-- ==== Sys2Proof/Word.lean ====
section
/-! DEFINITION. Word types of the model and the sparse store that holds its tables. -/

namespace Sys2Proof

/-- One byte. -/
abbrev Byte := BitVec 8

/-- A 32-bit word. -/
abbrev Word := BitVec 32

/-- A run of bytes, lowest address first. -/
abbrev Bytes := List Byte

/-- A sparse store: records by number, strictly rising, an unlisted number holding its record's default. The
operations on it are in Sys2Proof/Machine/Bits.lean. -/
abbrev Store (α : Type) := List (Nat × α)

end Sys2Proof
end

