-- ==== Sys2Proof/Syntax.lean ====
section
/-! DEFINITION. The commands of the LYS9632 block: one constructor of `Instr` per row of spec/opcode_table.json,
and the records their operands are made of. The table gives no row any bits, so what a row needs from outside
the device (a command packet, a frame, the data of a completion, a sensor reading) is its operand. -/

namespace Sys2Proof

/-- The board straps sampled at a reset (R83, R106, R473). -/
structure Straps where
  /-- HOST_BIF: two x8 links when high. -/
  hostBif : Bool := false
  /-- BOOT_SRC: the boot waits for the recovery window. -/
  bootSrc : Bool := false
  /-- OWNER_EN: owner slot 0 may be enrolled. -/
  ownerEn : Bool := false
  /-- MOD_SPD1:0: module bus speed. -/
  modSpd : BitVec 2 := 0
  deriving DecidableEq, Repr

/-- The parts of the family (00_scope.md, Variants). -/
inductive Variant where
  | lys9632F | lys9632N | lys9632C | lys9624S
  deriving DecidableEq, Repr

/-- A command channel (R35, R69, R435): the admin ring of a function, a channel of the channel table, the sideband
transport, the forwarding link of a stitch port, or a forwarding entry that issues an inner command (R56). -/
inductive Chan where
  | admin (fn : Nat)
  | mailbox (ch : Nat)
  | sideband
  | link (port : Nat)
  | fwd (entry : Nat)
  deriving DecidableEq, Repr

/-- A command packet as the device reads it from a channel (R38): the header's fields, its reserved ones among them, and its payload.
The opcode is the row's own. `bad` says that the payload read completed poisoned or with a DMA fault (R40). The reserved fields are
flag bits 15:3, byte 23 and bytes 48 to 59: the device ignores them (R13), but the CRC covers them (R39). -/
structure Cmd where
  chan : Chan := .admin 0
  inl : Bool := true
  idem : Bool := false
  fence : Bool := false
  seq : Word := 0
  hops : List Nat := []
  pathLen : Nat := 0
  payloadLen : Nat := 0
  timeoutUs : Word := 0
  payloadAddr : BitVec 64 := 0
  respAddr : BitVec 64 := 0
  crc : Word := 0
  payload : Bytes := []
  bad : Bool := false
  rsvFlags : BitVec 13 := 0
  rsvByte : Byte := 0
  rsvTail : BitVec 96 := 0
  deriving DecidableEq, Repr

/-- The fields of a reply record that comes back from another unit (R42), and the bytes it carries for an output
buffer (R387). -/
structure Reply where
  status : Nat := 0
  detail : Nat := 0
  r0 : Nat := 0
  r1 : Nat := 0
  out : Bytes := []
  deriving DecidableEq, Repr

/-- The bytes a host read returns, and the first byte offset whose read completes with a DMA fault or poison. -/
structure HostData where
  data : Bytes := []
  badAt : Option Nat := none
  /-- What the boot flash holds after FW_WRITE has written a slot, as it is read back: `none` as written, `some none` a flash that does not
  answer (R105). -/
  readBack : Option (Option Bytes) := none
  deriving DecidableEq, Repr

/-- An SPDM request and the transport it came by: 0 and 1 the DOE of PF0 and PF1, 2 the sideband bus (R91). -/
structure SpdmMsg where
  transport : Nat := 0
  data : Bytes := []
  deriving DecidableEq, Repr

/-- What an ATS completion grants (R129, R130). -/
structure AtsReply where
  size : Nat := 4096
  target : Nat := 0
  rd : Bool := true
  wr : Bool := true
  deriving DecidableEq, Repr

/-- A host access to a register or window: the BAR (0, 2, 4), the expansion ROM (6) or the configuration space (255), the byte offset,
the size in bytes, whether a write has EP set, and the requester ID when the requester is another than the manager of the function or its
tenant (R118 to R123, R146, R159, R431). -/
structure RegAccess where
  bar : Nat := 0
  offset : Nat := 0
  size : Nat := 4
  bad : Bool := false
  rid : Option Nat := none
  deriving DecidableEq, Repr

/-- A frame as it arrives on a line port: its bytes without the FCS, the FCS, and whether the PCS flagged a symbol
error inside it (R171). -/
structure RxFrame where
  data : Bytes := []
  fcs : Word := 0
  symErr : Bool := false
  deriving DecidableEq, Repr

/-- What a module management bus transaction came to: 0 still on the bus, 1 done with `data`, 2 not
acknowledged (R178, R179, R187). -/
structure ModReply where
  outcome : Nat := 1
  data : Bytes := []
  deriving DecidableEq, Repr

/-- A frame as it arrives on a stitch port: header, payload and CRC (R384). -/
structure StitchFrame where
  data : Bytes := []
  deriving DecidableEq, Repr

/-- One change an engine program makes to an exact-match table it declares (R213). -/
structure EngineEm where
  table : Nat := 0
  insert : Bool := true
  key : Bytes := []
  rule : Nat := 0
  user : Word := 0
  deriving DecidableEq, Repr

/-- What an engine program returns (R213): the packet's bytes and how many of them it added at the head (negative:
removed), its colour and queue, whether it drops the packet, up to four copies (colour, queue, bytes), its table changes,
and its flow counter increments (index, packets, bytes). -/
structure EngineResult where
  data : Bytes := []
  head : Int := 0
  colour : Nat := 0
  queue : Nat := 0xFFFF
  drop : Bool := false
  copies : List (Nat × Nat × Bytes) := []
  ems : List EngineEm := []
  flows : List (Nat × Nat × Nat) := []
  deriving DecidableEq, Repr


/-- The commands of the block, one per row of spec/opcode_table.json. -/
inductive Instr where
  /-- POWER_ON (R75). -/
  | powerOn (straps : Straps)
  /-- SYS_RST_N (R75). -/
  | sysRstN (straps : Straps)
  /-- POWER_LOSS (R470). -/
  | powerLoss
  /-- WATCHDOG_RESET (R75). -/
  | watchdogReset (straps : Straps)
  /-- BOOT_SLOT_VERIFIED (R85). -/
  | bootSlotVerified (slotB : Bool) (image : Option Bytes)
  /-- CLAY_TRAINING_DONE (R79). -/
  | clayTrainingDone (ok : Bool)
  /-- DRY_LEFT (R79). -/
  | dryLeft (certOk : Bool)
  /-- BOOT_RESTART (R470). -/
  | bootRestart
  /-- RETRY_FLASH (R83). -/
  | retryFlash (fn : Nat)
  /-- LOAD_RECOVERY (R83). -/
  | loadRecovery (fn : Nat)
  /-- RECOVERY_WINDOW_WRITE (R83). -/
  | recoveryWindowWrite (fn : Nat) (offset : Nat) (data : Bytes)
  /-- ENTROPY_READY (R93). -/
  | entropyReady
  /-- ENTROPY_FAIL (R95). -/
  | entropyFail
  /-- IDENTIFY (R58). -/
  | identify (c : Cmd)
  /-- CAPABILITY (R57). -/
  | capability (c : Cmd)
  /-- MODE_GET (R16). -/
  | modeGet (c : Cmd)
  /-- MODE_SET (R22). -/
  | modeSet (c : Cmd)
  /-- MODE_SET_AT_TIME (R17). -/
  | modeSetAtTime
  /-- GATE_DECIDED (R107). -/
  | gateDecided
  /-- MODE_TRANSITION_COMPLETE (R22). -/
  | modeTransitionComplete
  /-- DORMANT_CLOCKS_STOP (R108). -/
  | dormantClocksStop
  /-- WAKE_DONE (R110). -/
  | wakeDone
  /-- WAKE_IN_N (R109). -/
  | wakeInN
  /-- WH_WAKE (R406). -/
  | whWake (fn : Nat) (value : Word)
  /-- WAKE_TIMER (R407). -/
  | wakeTimer
  /-- PORT_SIGNAL_DETECT (R109). -/
  | portSignalDetect (port : Nat)
  /-- RESET_UNIT (R18). -/
  | resetUnit (c : Cmd) (straps : Straps)
  /-- ECHO (R57). -/
  | echo (c : Cmd)
  /-- STATUS_OF (R60). -/
  | statusOf (c : Cmd)
  /-- FORWARD (R56). -/
  | forward (c : Cmd)
  /-- CHANNEL_BIND (R72). -/
  | channelBind (c : Cmd)
  /-- FORWARDED_REPLY (R54). -/
  | forwardedReply (entry : Nat) (answer : Reply)
  /-- COMMAND_TIMEOUT (R49). -/
  | commandTimeout (ch : Chan) (seq : Word)
  /-- MBOX_DOORBELL (R65). -/
  | mboxDoorbell (fn : Nat) (box : Nat) (value : Word)
  /-- MBOX_ACK (R66). -/
  | mboxAck (fn : Nat) (box : Nat) (value : Word)
  /-- MBOX_TIMEOUT (R66). -/
  | mboxTimeout (box : Nat)
  /-- IMAGE_LOAD (R98). -/
  | imageLoad (c : Cmd) (img : HostData)
  /-- GATE_CHECK (R101). -/
  | gateCheck (c : Cmd)
  /-- FW_WRITE (R105). -/
  | fwWrite (c : Cmd) (img : HostData)
  /-- FW_ACTIVATE (R105). -/
  | fwActivate (c : Cmd)
  /-- OWNER_ENROL (R106). -/
  | ownerEnrol (c : Cmd)
  /-- RANDOM (R94). -/
  | random (c : Cmd)
  /-- CERT_READ (R103). -/
  | certRead (c : Cmd)
  /-- GET_VERSION (R91). -/
  | getVersion (m : SpdmMsg)
  /-- GET_CAPABILITIES (R91). -/
  | getCapabilities (m : SpdmMsg)
  /-- NEGOTIATE_ALGORITHMS (R91). -/
  | negotiateAlgorithms (m : SpdmMsg)
  /-- GET_DIGESTS (R91). -/
  | getDigests (m : SpdmMsg)
  /-- GET_CERTIFICATE (R89). -/
  | getCertificate (m : SpdmMsg)
  /-- CHALLENGE (R91). -/
  | challenge (m : SpdmMsg)
  /-- GET_MEASUREMENTS (R92). -/
  | getMeasurements (m : SpdmMsg)
  /-- KEY_EXCHANGE (R91). -/
  | keyExchange (m : SpdmMsg)
  /-- FINISH (R91). -/
  | finish (m : SpdmMsg)
  /-- HEARTBEAT (R91). -/
  | heartbeat (m : SpdmMsg)
  /-- KEY_UPDATE (R91). -/
  | keyUpdate (m : SpdmMsg)
  /-- END_SESSION (R91). -/
  | endSession (m : SpdmMsg)
  /-- CHUNK_SEND (R91). -/
  | chunkSend (m : SpdmMsg)
  /-- CHUNK_GET (R91). -/
  | chunkGet (m : SpdmMsg)
  /-- PERST (R76). -/
  | perst (link : Nat)
  /-- HOT_RESET (R140). -/
  | hotReset (link : Nat)
  /-- LINK_TRAINED (R112). -/
  | linkTrained (link : Nat) (rate : Nat) (width : Nat) (flit : Bool)
  /-- SURPRISE_DOWN (R137). -/
  | surpriseDown (link : Nat)
  /-- PCIE_UNCORRECTABLE_ERROR (R137). -/
  | pcieUncorrectableError (link : Nat) (code : Nat)
  /-- CONT_RELEASE (R140). -/
  | contRelease (fn : Nat) (key : Nat)
  /-- FLR (R133). -/
  | flr (fn : Nat)
  /-- FLR_COMPLETE (R133). -/
  | flrComplete (fn : Nat)
  /-- VF_ENABLE_CLEAR (R134). -/
  | vfEnableClear (pf : Nat)
  /-- BUS_MASTER_ENABLE (R136). -/
  | busMasterEnable (fn : Nat) (on : Bool)
  /-- MSIX_UNMASK (R126). -/
  | msixUnmask (fn : Nat) (entry : Nat) (which : Nat)
  /-- READ_COMPLETION (R319). -/
  | readCompletion (tag : Nat) (data : Bytes) (last : Bool) (bad : Nat)
  /-- READ_TIMEOUT (R116). -/
  | readTimeout (tag : Nat)
  /-- TRANSLATION_COMPLETION (R130). -/
  | translationCompletion (req : Nat) (ok : Bool) (entry : AtsReply)
  /-- INVALIDATE_REQUEST (R131). -/
  | invalidateRequest (itag : Nat) (fn : Nat) (base : Nat) (size : Nat)
  /-- INVALIDATE_COMPLETION (R131). -/
  | invalidateCompletion (itag : Nat) (fn : Nat)
  /-- PEER_WINDOW_WRITE (R144). -/
  | peerWindowWrite (pf : Nat) (rid : Nat) (offset : Nat) (data : Bytes) (bad : Bool)
  /-- PEER_WINDOW_READ (R144). -/
  | peerWindowRead (pf : Nat) (rid : Nat) (offset : Nat) (len : Nat)
  /-- REGISTER_WRITE (R9). -/
  | registerWrite (fn : Nat) (a : RegAccess) (value : Nat)
  /-- FUNC_CREATE (R151). -/
  | funcCreate (c : Cmd)
  /-- FUNC_DESTROY (R157). -/
  | funcDestroy (c : Cmd)
  /-- FUNC_QUERY (R155). -/
  | funcQuery (c : Cmd)
  /-- SPOOF_SET (R162). -/
  | spoofSet (c : Cmd)
  /-- LINE_FRAME_RECEIVE (R171). -/
  | lineFrameReceive (port : Nat) (f : RxFrame)
  /-- PAUSE_FRAME_RECEIVE (R173). -/
  | pauseFrameReceive (port : Nat) (data : Bytes)
  /-- PAUSE_EXPIRY (R174). -/
  | pauseExpiry (port : Nat) (prio : Nat)
  /-- PAUSE_WATCHDOG (R174). -/
  | pauseWatchdog (port : Nat) (prio : Nat)
  /-- PAUSE_XOFF_REPEAT (R271). -/
  | pauseXoffRepeat (port : Nat) (prio : Nat)
  /-- LPI_ENTRY (R175). -/
  | lpiEntry (port : Nat)
  /-- PORT_LINK_CHANGE (R439). -/
  | portLinkChange (port : Nat) (up : Bool) (width : Nat)
  /-- EGRESS_DEQUEUE (R267). -/
  | egressDequeue (root : Nat)
  /-- TIMED_LAUNCH (R269). -/
  | timedLaunch (queue : Nat)
  /-- FRAME_DEPARTURE (R241). -/
  | frameDeparture (port : Nat)
  /-- TESTGEN_FRAME (R182). -/
  | testgenFrame (gen : Nat)
  /-- WIDTH_DOWNSHIFT_TRIGGER (R176). -/
  | widthDownshiftTrigger (port : Nat)
  /-- WIDTH_UPSHIFT_TRIGGER (R176). -/
  | widthUpshiftTrigger (port : Nat)
  /-- WIDTH_PROPOSE_TIMEOUT (R391). -/
  | widthProposeTimeout (port : Nat)
  /-- MODULE_POLL (R178). -/
  | modulePoll (bus : Nat) (present : Bool) (bytes : List (Nat × Byte)) (states : List Nat)
  /-- MOD_BUS_STRETCH_TIMEOUT (R179). -/
  | modBusStretchTimeout (bus : Nat)
  /-- PORT_CONFIG (R188). -/
  | portConfig (c : Cmd)
  /-- PORT_STATUS (R187). -/
  | portStatus (c : Cmd)
  /-- MOD_READ (R187). -/
  | modRead (c : Cmd) (got : ModReply)
  /-- MOD_WRITE (R187). -/
  | modWrite (c : Cmd) (got : ModReply)
  /-- PORT_LOOPBACK (R181). -/
  | portLoopback (c : Cmd)
  /-- TESTGEN_SET (R182). -/
  | testgenSet (c : Cmd)
  /-- TESTGEN_STATUS (R184). -/
  | testgenStatus (c : Cmd)
  /-- GRAPH_WRITE (R216). -/
  | graphWrite (c : Cmd)
  /-- BIND_SET (R190). -/
  | bindSet (c : Cmd)
  /-- TREE_WRITE (R201). -/
  | treeWrite (c : Cmd)
  /-- TREESET_WRITE (R199). -/
  | treesetWrite (c : Cmd)
  /-- RULE_WRITE (R203). -/
  | ruleWrite (c : Cmd)
  /-- CLASS_WRITE (R205). -/
  | classWrite (c : Cmd)
  /-- ALIST_WRITE (R206). -/
  | alistWrite (c : Cmd)
  /-- SPREAD_SET (R210). -/
  | spreadSet (c : Cmd)
  /-- INDIR_WRITE (R210). -/
  | indirWrite (c : Cmd)
  /-- FLOWCNT_READ (R215). -/
  | flowcntRead (c : Cmd)
  /-- PROGRAM_LIST (R216). -/
  | programList (c : Cmd)
  /-- ENGINE_RETURN (R209). -/
  | engineReturn (pkt : Nat) (r : EngineResult)
  /-- ENGINE_BUDGET_EXCEEDED (R214). -/
  | engineBudgetExceeded (pkt : Nat)
  /-- LEARN_COMPLETE (R228). -/
  | learnComplete (pkt : Nat)
  /-- EM_DEFINE (R220). -/
  | emDefine (c : Cmd)
  /-- EM_UPDATE (R226). -/
  | emUpdate (c : Cmd)
  /-- COMMIT (R242). -/
  | commit (c : Cmd)
  /-- COMMIT_SWITCH (R242). -/
  | commitSwitch
  /-- EPOCH_DRAIN_END (R242). -/
  | epochDrainEnd
  /-- DRAIN_MAX_EXPIRY (R242). -/
  | drainMaxExpiry
  /-- COMMIT_DONE (R242). -/
  | commitDone
  /-- EM_LOOKUP (R224). -/
  | emLookup (c : Cmd)
  /-- EM_AGED_READ (R230). -/
  | emAgedRead (c : Cmd)
  /-- SIEVE_DEFINE (R232). -/
  | sieveDefine (c : Cmd)
  /-- SIEVE_UPDATE (R236). -/
  | sieveUpdate (c : Cmd)
  /-- SIEVE_SEARCH (R233). -/
  | sieveSearch (c : Cmd)
  /-- SIEVE_STEP (R246). -/
  | sieveStep (c : Cmd)
  /-- EPOCH_GET (R246). -/
  | epochGet (c : Cmd)
  /-- SWEEPER_VISIT (R229). -/
  | sweeperVisit (table : Nat) (index : Nat)
  /-- POOL_LAYOUT (R249). -/
  | poolLayout (c : Cmd)
  /-- QUOTA_SET (R252). -/
  | quotaSet (c : Cmd)
  /-- OWNER_QUERY (R275). -/
  | ownerQuery (c : Cmd)
  /-- FORFEIT (R258). -/
  | forfeit (c : Cmd)
  /-- SILT_READ (R259). -/
  | siltRead (c : Cmd)
  /-- SILT_RECLAIM (R259). -/
  | siltReclaim (c : Cmd)
  /-- SILT_AUDIT_REFRESH (R259). -/
  | siltAuditRefresh
  /-- POOL_STATUS (R275). -/
  | poolStatus (c : Cmd)
  /-- WM_SET (R272). -/
  | wmSet (c : Cmd)
  /-- WM_READ (R275). -/
  | wmRead (c : Cmd)
  /-- WATERMARK_REGISTER_WRITE (R272). -/
  | watermarkRegisterWrite (fn : Nat) (a : RegAccess) (value : Nat)
  /-- POLICER_WRITE (R263). -/
  | policerWrite (c : Cmd)
  /-- POLICER_READ (R276). -/
  | policerRead (c : Cmd)
  /-- SCHED_WRITE (R266). -/
  | schedWrite (c : Cmd)
  /-- CURVE_WRITE (R260). -/
  | curveWrite (c : Cmd)
  /-- PORT_BUF_SET (R271). -/
  | portBufSet (c : Cmd)
  /-- QUEUE_STATUS (R276). -/
  | queueStatus (c : Cmd)
  /-- CTX_LOAD (R287). -/
  | ctxLoad (c : Cmd)
  /-- CTX_DELETE (R288). -/
  | ctxDelete (c : Cmd)
  /-- CTX_READ (R296). -/
  | ctxRead (c : Cmd)
  /-- CTX_UPDATE (R296). -/
  | ctxUpdate (c : Cmd)
  /-- CIPHER_STATUS (R296). -/
  | cipherStatus (c : Cmd)
  /-- CIPHER_MESSAGE_START (R292). -/
  | cipherMessageStart (stream : Bool) (unit : Nat)
  /-- CIPHER_RESULT (R293). -/
  | cipherResult (pkt : Nat)
  /-- SUBMISSION_DOORBELL (R304). -/
  | submissionDoorbell (fn : Nat) (q : Nat) (value : Word)
  /-- DESCRIPTOR_FETCH_COMPLETE (R304). -/
  | descriptorFetchComplete (qp : Nat) (data : Bytes) (bad : Bool)
  /-- TX_DATA_READ_COMPLETE (R163). -/
  | txDataReadComplete (qp : Nat) (frame : Nat) (data : Bytes) (bad : Bool)
  /-- TX_READ_RETRY (R254). -/
  | txReadRetry (qp : Nat)
  /-- COMPLETION_DOORBELL (R308). -/
  | completionDoorbell (fn : Nat) (q : Nat) (value : Word)
  /-- ARM (R311). -/
  | arm (fn : Nat) (q : Nat) (value : Word)
  /-- MODERATION_TIMEOUT (R311). -/
  | moderationTimeout (qp : Nat)
  /-- ADMIN_ENABLE (R312). -/
  | adminEnable (pf : Nat) (value : Word)
  /-- ADMIN_DISABLE (R316). -/
  | adminDisable (pf : Nat) (value : Word)
  /-- QUEUE_CREATE (R330). -/
  | queueCreate (c : Cmd)
  /-- QUEUE_STOP (R315). -/
  | queueStop (c : Cmd)
  /-- QUEUE_START (R331). -/
  | queueStart (c : Cmd)
  /-- QUEUE_DESTROY (R315). -/
  | queueDestroy (c : Cmd)
  /-- QUEUE_QUERY (R331). -/
  | queueQuery (c : Cmd)
  /-- GO (R321). -/
  | go (fn : Nat) (ch : Nat) (value : Word)
  /-- CHANNEL_START (R321). -/
  | channelStart (ch : Nat)
  /-- CHANNEL_ABORT (R324). -/
  | channelAbort (fn : Nat) (ch : Nat) (value : Word)
  /-- PUMP_TRANSFER_COMPLETE (R323). -/
  | pumpTransferComplete (ch : Nat) (data : Bytes)
  /-- PCQ_HEAD (R325). -/
  | pcqHead (fn : Nat) (m : Nat) (value : Word)
  /-- PUMP_ASSIGN (R332). -/
  | pumpAssign (c : Cmd)
  /-- PCQ_SET (R332). -/
  | pcqSet (c : Cmd)
  /-- PUMP_RECOVER (R328). -/
  | pumpRecover (c : Cmd)
  /-- PUMP_STATUS (R332). -/
  | pumpStatus (c : Cmd)
  /-- TIME_NOW_LO_READ (R336). -/
  | timeNowLoRead (pf : Nat)
  /-- TIME_CONFIG (R346). -/
  | timeConfig (c : Cmd)
  /-- TIME_GET (R348). -/
  | timeGet (c : Cmd)
  /-- TIME_ADJUST (R348). -/
  | timeAdjust (c : Cmd)
  /-- TIME_PORT_SET (R347). -/
  | timePortSet (c : Cmd)
  /-- PPS_IN_READ (R344). -/
  | ppsInRead (c : Cmd)
  /-- SYNCE_SET (R345). -/
  | synceSet (c : Cmd)
  /-- PTP_SYNC (R339). -/
  | ptpSync (port : Nat) (f : RxFrame)
  /-- FOLLOW_UP (R340). -/
  | followUp (port : Nat) (f : RxFrame)
  /-- DELAY_REQ (R340). -/
  | delayReq (port : Nat) (f : RxFrame)
  /-- DELAY_RESP (R340). -/
  | delayResp (port : Nat) (f : RxFrame)
  /-- ANNOUNCE (R340). -/
  | announce (port : Nat) (f : RxFrame)
  /-- SIGNALING (R340). -/
  | signaling (port : Nat) (f : RxFrame)
  /-- PTP_TRANSMIT (R340). -/
  | ptpTransmit (port : Nat) (kind : Nat)
  /-- SYNC_LOSS (R337). -/
  | syncLoss
  /-- HOLDOVER_EXPIRY (R337). -/
  | holdoverExpiry
  /-- CARRIER_RESUME (R355). -/
  | carrierResume (carrier : Nat)
  /-- PPS_IN_EDGE (R344). -/
  | ppsInEdge
  /-- PPS_OUT_RISE (R343). -/
  | ppsOutRise
  /-- PPS_OUT_FALL (R343). -/
  | ppsOutFall
  /-- SYNCE_LANE_LOSS (R345). -/
  | synceLaneLoss (pin : Nat)
  /-- SYNCE_CLOCK_RETURN (R345). -/
  | synceClockReturn (pin : Nat)
  /-- FH_CARRIER_SET (R350). -/
  | fhCarrierSet (c : Cmd)
  /-- CARRIER_RECORD_EFFECTIVE (R351). -/
  | carrierRecordEffective (carrier : Nat)
  /-- FH_FLOW_SET (R353). -/
  | fhFlowSet (c : Cmd)
  /-- FH_FLOW_STATUS (R361). -/
  | fhFlowStatus (c : Cmd)
  /-- FH_GRID_QUERY (R361). -/
  | fhGridQuery (c : Cmd)
  /-- FH_WINDOW_CLOSE (R357). -/
  | fhWindowClose (flow : Nat)
  /-- COMB_SET_WRITE (R362). -/
  | combSetWrite (c : Cmd)
  /-- COMB_SET_DISABLE_DONE (R382). -/
  | combSetDisableDone (set : Nat)
  /-- COMB_CFLOW_WRITE (R363). -/
  | combCflowWrite (c : Cmd)
  /-- COMB_WEIGHTS (R368). -/
  | combWeights (c : Cmd)
  /-- WEIGHT_BANK_LOADED (R368). -/
  | weightBankLoaded (set : Nat) (data : HostData)
  /-- COMB_SWITCH (R369). -/
  | combSwitch (c : Cmd)
  /-- COMB_BANK_SWITCH (R369). -/
  | combBankSwitch (set : Nat)
  /-- COMB_STATUS (R383). -/
  | combStatus (c : Cmd)
  /-- UPLINK_SYMBOL_CLOSE (R372). -/
  | uplinkSymbolClose (set : Nat)
  /-- UPLINK_RECORD_WRITE (R374). -/
  | uplinkRecordWrite (set : Nat)
  /-- DOWNLINK_COMBINE (R376). -/
  | downlinkCombine (set : Nat)
  /-- DL_FRAME_READY (R377). -/
  | dlFrameReady (set : Nat) (antenna : Nat)
  /-- PKT (R386). -/
  | pkt (port : Nat) (f : StitchFrame)
  /-- CMD (R387). -/
  | cmd (port : Nat) (f : StitchFrame)
  /-- RSP (R387). -/
  | rsp (port : Nat) (f : StitchFrame)
  /-- NULL (R385). -/
  | null (port : Nat) (f : StitchFrame)
  /-- STITCH_RETRY_TIMEOUT (R389). -/
  | stitchRetryTimeout (port : Nat)
  /-- STITCH_SIGNAL_LOSS (R401). -/
  | stitchSignalLoss (port : Nat)
  /-- HELLO (R390). -/
  | hello (port : Nat) (f : StitchFrame)
  /-- CERT (R390). -/
  | cert (port : Nat) (f : StitchFrame)
  /-- PROOF (R392). -/
  | proof (port : Nat) (f : StitchFrame)
  /-- ADMIT (R392). -/
  | admitted (port : Nat) (f : StitchFrame)
  /-- LEAVE (R390). -/
  | leave (port : Nat) (f : StitchFrame)
  /-- WIDTH_PROPOSE (R391). -/
  | widthPropose (port : Nat) (f : StitchFrame)
  /-- WIDTH_ACCEPT (R391). -/
  | widthAccept (port : Nat) (f : StitchFrame)
  /-- WIDTH_REFUSE (R391). -/
  | widthRefuse (port : Nat) (f : StitchFrame)
  /-- WIDTH_SWITCH (R391). -/
  | widthSwitch (port : Nat) (f : StitchFrame)
  /-- REST (R402). -/
  | rest (port : Nat) (f : StitchFrame)
  /-- REST_ACK (R402). -/
  | restAck (port : Nat) (f : StitchFrame)
  /-- WAKE (R402). -/
  | wake (port : Nat)
  /-- PING (R396). -/
  | ping (port : Nat) (f : StitchFrame)
  /-- PONG (R396). -/
  | pong (port : Nat) (f : StitchFrame)
  /-- PREPARE (R399). -/
  | prepare (port : Nat) (f : StitchFrame)
  /-- CONFIRM (R399). -/
  | confirm (port : Nat) (f : StitchFrame)
  /-- REFUSE (R399). -/
  | refuse (port : Nat) (f : StitchFrame)
  /-- ABORT (R399). -/
  | abort (port : Nat) (f : StitchFrame)
  /-- CONFIRM_DEADLINE (R399). -/
  | confirmDeadline
  /-- SKEW_MEASURE (R398). -/
  | skewMeasure
  /-- MEMBER_ROUTE_TIMEOUT (R401). -/
  | memberRouteTimeout (member : Nat)
  /-- REST_IDLE (R402). -/
  | restIdle (port : Nat)
  /-- REST_SCHEDULED_WAKE (R402). -/
  | restScheduledWake (port : Nat)
  /-- WAKE_PATTERN_HEARD (R403). -/
  | wakePatternHeard (port : Nat)
  /-- WAKE_PATTERN_TIMEOUT (R403). -/
  | wakePatternTimeout (port : Nat)
  /-- AQ_CONFIG (R404). -/
  | aqConfig (c : Cmd)
  /-- AQ_JOIN (R392). -/
  | aqJoin (c : Cmd)
  /-- AQ_LEAVE (R405). -/
  | aqLeave (c : Cmd)
  /-- AQ_STATUS (R405). -/
  | aqStatus (c : Cmd)
  /-- AQ_CERT_READ (R394). -/
  | aqCertRead (c : Cmd)
  /-- ENGINE_CLOCK_GATE (R408). -/
  | engineClockGate (engine : Nat)
  /-- WELL_CLOCK_GATE (R408). -/
  | wellClockGate (well : Nat)
  /-- WELL_POWER_GATE (R408). -/
  | wellPowerGate (well : Nat)
  /-- CIPHER_UNIT_GATE (R408). -/
  | cipherUnitGate (stream : Bool) (unit : Nat)
  /-- MGMT_CORE_GATE (R408). -/
  | mgmtCoreGate (core : Nat)
  /-- CLAY_CHANNEL_POWER_DOWN (R408). -/
  | clayChannelPowerDown (ch : Nat)
  /-- COMBINER_GROUP_GATE (R408). -/
  | combinerGroupGate (group : Nat)
  /-- UNIT_WAKE_COMPLETE (R409). -/
  | unitWakeComplete (kind : Nat) (index : Nat)
  /-- ACCOUNTING_INTERVAL (R416). -/
  | accountingInterval (util : List Nat)
  /-- POINT_CHANGE_DONE (R411). -/
  | pointChangeDone (domain : Nat)
  /-- PLANNED_WAKE (R420). -/
  | plannedWake (carrier : Nat) (uplink : Bool)
  /-- SENSOR_SAMPLE (R421). -/
  | sensorSample (readings : List Int)
  /-- POWER_SAMPLE (R414). -/
  | powerSample (rails : List Nat)
  /-- THERMAL_TRIP (R421). -/
  | thermalTrip (sensor : Nat)
  /-- POWER_POLICY (R424). -/
  | powerPolicy (c : Cmd)
  /-- POWER_COST_SET (R419). -/
  | powerCostSet (c : Cmd)
  /-- POWER_PLAN_SET (R420). -/
  | powerPlanSet (c : Cmd)
  /-- POWER_STATUS (R425). -/
  | powerStatus (c : Cmd)
  /-- POWER_TELEMETRY (R414). -/
  | powerTelemetry (c : Cmd)
  /-- POWER_VF_READ (R410). -/
  | powerVfRead (c : Cmd)
  /-- PATROL_SCRUB (R426). -/
  | patrolScrub (memory : Nat) (addr : Nat) (bits : Nat)
  /-- PARITY_ERROR (R433). -/
  | parityError (addr : Nat)
  /-- FIRMWARE_STATE_LOST (R433). -/
  | firmwareStateLost
  /-- SUPPLY_FAULT (R470). -/
  | supplyFault (rail : Nat)
  /-- FAULT_STATUS_CLEAR (R437). -/
  | faultStatusClear (fn : Nat) (value : Word)
  /-- EVT_ENABLE_WRITE (R442). -/
  | evtEnableWrite (fn : Nat) (n : Nat) (value : Word)
  /-- COUNTER_PAGE_READ (R447). -/
  | counterPageRead (fn : Nat) (offset : Nat)
  /-- COUNTERS_READ (R446). -/
  | countersRead (c : Cmd)
  /-- CNT_GRANT (R448). -/
  | cntGrant (c : Cmd)
  /-- MON_CONFIG (R449). -/
  | monConfig (c : Cmd)
  /-- MON_READ (R451). -/
  | monRead (c : Cmd)
  /-- CNT_CTX_READ (R452). -/
  | cntCtxRead (c : Cmd)
  /-- LINE_REFCLK_LOSS (R475). -/
  | lineRefclkLoss
  /-- HOST_REFCLK_LOSS (R475). -/
  | hostRefclkLoss (link : Nat)
  /-- SEEP_CLOCK_LOSS (R475). -/
  | seepClockLoss
  /-- VF_ENABLE_SET (R134). -/
  | vfEnableSet (pf : Nat) (numVfs : Nat)
  /-- ATS_ENABLE_CLEAR (R132). -/
  | atsEnableClear (fn : Nat)
  /-- REGISTER_READ (R120). -/
  | registerRead (fn : Nat) (a : RegAccess)
  /-- MOD_BUS_ARBITRATION_LOST (R179). -/
  | modBusArbitrationLost (bus : Nat)
  /-- MOD_BUS_IDLE (R179). -/
  | modBusIdle (bus : Nat) (got : ModReply)
  /-- LPI_WAKE (R175). -/
  | lpiWake (port : Nat)
  /-- STITCH_CTRL_BAD (R390). -/
  | stitchCtrlBad (port : Nat) (f : StitchFrame)
  /-- ENGINE_FAULT (R214). -/
  | engineFault (pkt : Nat) (check : Bool)
  deriving DecidableEq, Repr

end Sys2Proof
end

