-- ==== Sys2Proof/Config.lean ====
section
/-! DEFINITION. What one implementation fixes and what the spec leaves free. Every constant here is opaque:
nothing can be proved of its value, so a claim holds whatever it is (logs 10, 12 and 13). -/

namespace Sys2Proof.Config

/-- The device serial (R58). Safe: free. -/
opaque serial : BitVec 64
/-- SHA-384 of the boot ROM (R88, R92). -/
opaque romHash : BitVec 384
/-- The four Celwald public keys held in the boot ROM (R85). -/
opaque celwaldKey : Nat → Bytes
/-- SHA-384 (R84, R96). -/
opaque sha384 : Bytes → BitVec 384
/-- ECDSA P-384 verification: public key, digest, signature (R85, R87, R96, R392). -/
opaque ecdsaVerify : Bytes → BitVec 384 → Bytes → Bool
/-- ECDSA P-384 signature by the alias key of a running image (R88, R91, R392). -/
opaque aliasSign : BitVec 384 → Nat → BitVec 384 → Bytes
/-- ECDSA P-384 signature by the device identity key (R88, R394). -/
opaque identitySign : BitVec 384 → Bytes
/-- The certificate chain of slot 0, for the running image's BODY_HASH and SEC_VERSION (R89). -/
opaque slot0Chain : BitVec 384 → Nat → Bytes
/-- The key-wrapping certificate, for the running image (R88, R103). -/
opaque wrapCert : BitVec 384 → Nat → Bytes
/-- The public key of a certificate chain (R392). -/
opaque chainKey : Bytes → Bytes
/-- Whether a partner's chain verifies to the Celwald root (R392). -/
opaque chainVerifies : Bytes → Bool
/-- Output byte `i` of DRBG request `n` (R93). -/
opaque drbg : Nat → Nat → Byte
/-- A drop draw of the queue manager, 0 to 255, for draw number `n` (R260). -/
opaque draw : Nat → BitVec 8
/-- A value the spec leaves undefined, drawn for the `n`th time. -/
opaque freeValue : Nat → Nat
/-- SPDM response bytes that DSP0274 defines and the spec cites: request code, version state, request bytes,
a count that tells the exchanges apart. -/
opaque spdmBody : Nat → Nat → Bytes → Nat → Bytes
/-- Whether an SPDM FINISH verifies in the session (R91). -/
opaque spdmFinishOk : Bytes → Nat → Bool
/-- A public key lies on the P-384 curve (R287). -/
opaque onCurve : Bytes → Bool
/-- The 48 key bytes that CTX_LOAD unwraps, none when the RFC 3394 check fails: ephemeral public key, wrapped key and
FixedInfo, under the key-wrapping pair of the running image's BODY_HASH and SEC_VERSION (R88, R286, R287). -/
opaque unwrapKey : BitVec 384 → Nat → Bytes → Bytes → Bytes → Option Bytes
/-- AES-GCM or GMAC protection: key, 12-byte nonce, associated data, plain text; cipher text and 16-byte tag. -/
opaque gcmSeal : Bytes → Bytes → Bytes → Bytes → Bytes × Bytes
/-- AES-GCM or GMAC opening: key, nonce, associated data, cipher text, tag; plain text when the tag verifies. -/
opaque gcmOpen : Bytes → Bytes → Bytes → Bytes → Bytes → Option Bytes
/-- The PDCP key streams: algorithm, key, COUNT, bearer, direction, text (R277, R282). -/
opaque pdcpCipher : Nat → Bytes → Nat → Nat → Nat → Bytes → Bytes
/-- The PDCP integrity codes: algorithm, key, COUNT, bearer, direction, message; 4 bytes (R277, R282). -/
opaque pdcpMac : Nat → Bytes → Nat → Nat → Nat → Bytes → Bytes
/-- What the die's fuses say of the voltage of point `p` of a domain (R410); `Machine.pointMv` keeps the bounds the spec sets. -/
opaque pointFuse : Nat → Nat → Nat
/-- What the die's fuses say of the CLAMP point (R410, R421); `Machine.clampPoint` keeps its bounds. -/
opaque clampFuse : Nat
/-- Name, budget in cycles and version of engine program `p`; none when the firmware lists no such program (R216). -/
opaque program : Nat → Option (Nat × Nat × Nat)
/-- Engine program `p` declares exact-match table `t` (R213). -/
opaque programTable : Nat → Nat → Bool
/-- Engine program `p` declares flow counter `n` (R213). -/
opaque programCounter : Nat → Nat → Bool
/-- The engine of its well that firmware chooses for a packet that is handed off, by packet number (R212). -/
opaque engineOf : Nat → Nat
/-- The 1 MiB expansion ROM image at flash offset 0x0410_0000 (R123). -/
opaque romByte : Nat → Byte
/-- The source address of the control frames a line port sends (R173). -/
opaque portMac : Nat → BitVec 48
/-- The wake time of a PHY type in ns, by lanes and rate (R175). -/
opaque phyWakeNs : Nat → Nat → Nat
/-- The group certificate: group ID, members' serials, issue count (R394). -/
opaque groupCert : Nat → List Nat → Nat → Bytes
/-- A nonce or group number drawn from the DRBG for request `n` (R390, R394). -/
opaque nonce : Nat → BitVec 256

/-- How far the boot ROM has come between two of its reports, by the wellhead's count (R81); `Machine.bootStage` keeps it among the stages that lie
there. -/
opaque romStage : Nat → Nat
/-- Packets that may stand before a pipeline that takes one every 4/3 ns at the top point (R33). -/
opaque pipeDepth : Nat
/-- The active owner key hash that a partner's certificate chain states, zeros for none (R92, R392). -/
opaque chainOwner : Bytes → BitVec 384
/-- The Ethernet, IP and UDP headers of a G.8275.2 message of `n` bytes that a port sends: port, the frame it answers (R340). -/
opaque ptpUdp : Nat → Bytes → Nat → Bytes
/-- The 30 bytes of an Announce's data set that the PTP clock sends: port, the best data set heard (R340). -/
opaque announceBody : Nat → Nat → Bytes
/-- Where in the range of a Completion Timeout Value code the device's time-out lies (R116); `Machine.ctoNs` keeps it in the range. -/
opaque ctoPick : Nat → Nat
/-- Celwald's PCI Vendor ID (R117). -/
opaque vendorId : BitVec 16
/-- The die stepping, the Revision ID (R117). -/
opaque stepping : BitVec 8
/-- Subsystem Vendor ID and subsystem ID of the flash identity area, none when it holds no valid values (R117). -/
opaque subsystem : Option (BitVec 32)
/-- Next capability offset in the header of the containment DVSEC (R139). -/
opaque dvsecNext : BitVec 12

end Sys2Proof.Config
end

