-- ==== Sys2Proof/Machine/Bits.lean ====
section
/-! DEFINITION. Byte order, bit fields, checks and the sparse store: the plain data operations every unit uses. -/

namespace Sys2Proof.Machine

open Sys2Proof

/-- The little-endian number some bytes spell (00_scope.md). -/
def le : Bytes → Nat
  | [] => 0
  | b :: r => b.toNat + 256 * le r

/-- The big-endian number some bytes spell: packet headers are in network byte order. -/
def be (b : Bytes) : Nat := b.foldl (fun a x => a * 256 + x.toNat) 0

/-- `n` bytes of a number, low byte first. -/
def toLe : Nat → Nat → Bytes
  | 0, _ => []
  | n + 1, v => BitVec.ofNat 8 v :: toLe n (v / 256)

/-- `n` bytes of a number, high byte first. -/
def toBe (n v : Nat) : Bytes := (toLe n v).reverse

/-- `n` bytes from offset `off`; missing bytes are left out. -/
def slice (b : Bytes) (off n : Nat) : Bytes := (b.drop off).take n

/-- The field of `n` bytes at offset `off` of a little-endian structure. -/
def fld (b : Bytes) (off n : Nat) : Nat := le (slice b off n)

/-- The field of `n` bytes at offset `off` of a header in network byte order. -/
def fldBe (b : Bytes) (off n : Nat) : Nat := be (slice b off n)

/-- Bits `lo + w - 1 : lo` of a number. -/
def bits (v lo w : Nat) : Nat := v / 2 ^ lo % 2 ^ w

/-- Bit `i` of a number. -/
def bit (v i : Nat) : Bool := v.testBit i

/-- A number as a signed field of `w` bits. -/
def signed (w v : Nat) : Int := if v % 2 ^ w < 2 ^ (w - 1) then (v % 2 ^ w : Nat) else (v % 2 ^ w : Nat) - (2 ^ w : Nat)

/-- A signed number as a field of `w` bits. -/
def unsigned (w : Nat) (v : Int) : Nat := (v % (2 ^ w : Nat)).toNat

/-- 1 or 0. -/
def b2n (b : Bool) : Nat := if b then 1 else 0

/-- Replace the bytes of `b` from `off` by `d`, keeping the length of `b` when `d` fits. -/
def patch (b : Bytes) (off : Nat) (d : Bytes) : Bytes := b.take off ++ d ++ b.drop (off + d.length)

/-- `n` zero bytes. -/
def zeros (n : Nat) : Bytes := List.replicate n 0

/-- One step of a reflected CRC of 32 bits. -/
def crcBit (poly c : Nat) : Nat := if c % 2 = 1 then Nat.xor (c / 2) poly else c / 2

/-- One byte of a reflected CRC of 32 bits. -/
def crcByte (poly : Nat) (c : Nat) (b : Byte) : Nat :=
  let c := Nat.xor c b.toNat
  crcBit poly (crcBit poly (crcBit poly (crcBit poly (crcBit poly (crcBit poly (crcBit poly (crcBit poly c)))))))

/-- CRC-32C of RFC 3720 (R39). -/
def crc32c (b : Bytes) : Nat := Nat.xor (b.foldl (crcByte 0x82F63B78) 0xFFFFFFFF) 0xFFFFFFFF

/-- CRC-32C started from a seed, with no final XOR: the exact-match hashes use it (R223). -/
def crc32cFrom (seed : Nat) (b : Bytes) : Nat := b.foldl (crcByte 0x82F63B78) seed

/-- The Ethernet frame check sequence of IEEE 802.3, PRESUMED from the standard (log 14). -/
def fcs32 (b : Bytes) : Nat := Nat.xor (b.foldl (crcByte 0xEDB88320) 0xFFFFFFFF) 0xFFFFFFFF

/-- The Internet checksum's sum of 16-bit words, folded (RFC 1071). -/
def onesSum : Bytes → Nat
  | [] => 0
  | [a] => a.toNat * 256
  | a :: b :: r =>
    let t := a.toNat * 256 + b.toNat + onesSum r
    t % 65536 + t / 65536

/-- The Internet checksum of some bytes. -/
def inetChecksum (b : Bytes) : Nat := 65535 - onesSum b

/-- The record of number `k` in a sparse store, `d` when none is listed. -/
def Store.get {α : Type} (d : α) (k : Nat) : Store α → α
  | [] => d
  | (i, v) :: r => if i = k then v else Store.get d k r

/-- List `v` as record `k`, in its place among rising numbers. -/
def Store.put {α : Type} (k : Nat) (v : α) : Store α → Store α
  | [] => [(k, v)]
  | (i, w) :: r => if i < k then (i, w) :: Store.put k v r else if i = k then (k, v) :: r else (k, v) :: (i, w) :: r

/-- Store `v` as record `k`: the list stays strictly rising and lists no default. -/
def Store.set {α : Type} [DecidableEq α] (d : α) (k : Nat) (v : α) (st : Store α) : Store α :=
  if v = d then st.filter (fun x => x.1 != k) else Store.put k v st

/-- Change record `k`. -/
def Store.upd {α : Type} [DecidableEq α] (d : α) (k : Nat) (f : α → α) (st : Store α) : Store α :=
  Store.set d k (f (Store.get d k st)) st

/-- Store a run of records from number `k`. -/
def Store.setMany {α : Type} [DecidableEq α] (d : α) (k : Nat) : List α → Store α → Store α
  | [], st => st
  | v :: r, st => Store.setMany d (k + 1) r (Store.set d k v st)

/-- Read `n` bytes of a byte store from offset `a`, unlisted bytes 0. -/
def readBytes (st : Store Byte) (a : Nat) : Nat → Bytes
  | 0 => []
  | n + 1 => Store.get 0 a st :: readBytes st (a + 1) n

/-- Strictly rising keys from `lo`, none of them listing the default: the one canonical form of a store. -/
def Store.wfFrom {α : Type} [DecidableEq α] (d : α) : Nat → Store α → Bool
  | _, [] => true
  | lo, (i, v) :: r => decide (lo ≤ i) && decide (v ≠ d) && Store.wfFrom d (i + 1) r

/-- The canonical form of a sparse store. -/
def Store.wf {α : Type} [DecidableEq α] (d : α) (st : Store α) : Bool := Store.wfFrom d 0 st

/-- The first `n` records from number `k`. -/
def Store.run {α : Type} (d : α) (k n : Nat) (st : Store α) : List α := (List.range n).map fun i => Store.get d (k + i) st

/-- Split bytes into records of `n` bytes, `fuel` of them at most. -/
def records (n : Nat) : Nat → Bytes → List Bytes
  | 0, _ => []
  | f + 1, b => if b.isEmpty then [] else b.take n :: records n f (b.drop n)

/-- The set bits of a number, lowest first, among the first `w`. -/
def setBits (v w : Nat) : List Nat := (List.range w).filter fun i => v.testBit i

/-- How many of the first `w` bits are set. -/
def popcount (v w : Nat) : Nat := (setBits v w).length

/-- The first element of a list that `p` holds of. -/
def firstWhere {α : Type} (p : α → Bool) (l : List α) : Option α := l.find? p

/-- Replace the elements of a list that `p` holds of. -/
def mapWhere {α : Type} (p : α → Bool) (f : α → α) (l : List α) : List α := l.map fun x => if p x then f x else x

end Sys2Proof.Machine
end

