-- ==== Sys2Proof/Machine/State.lean ====
section
/-! DEFINITION. The state of the LYS9632 as plain data: every register, buffer, queue, counter and mode
the spec gives the device, the commands that wait, and what the device has put out. Field docstrings name
the rules of spec/ they follow; INVENTORY.md lists the reset value of each. -/

namespace Sys2Proof.Machine

open Sys2Proof

/-- Why a command ends the machine. No rule of the spec stops the block, so nothing raises this; it names the
one outcome the host's interface leaves room for. Safe: it is never answered. -/
inductive Fault where
  /-- Never raised: every command the spec lists leaves the device in a state. Safe. -/
  | halted
  deriving DecidableEq, Repr

/-- Why a command has no meaning. -/
inductive Refusal where
  /-- Raised by the dispatch for a command that has no meaning yet. Safe: no claim can rest on it. -/
  | notModelled (mnemonic : String)
  deriving DecidableEq, Repr

/-- The device modes (R19). -/
inductive Mode where
  | dry | priming | proving | flowing | dormant | shutIn
  deriving DecidableEq, Repr

/-- The time states (R336, R337). -/
inductive TState where
  | free | acquiring | locked | holdover
  deriving DecidableEq, Repr

/-- What a device-issued host read is for (R116, R304, R319, R322, R368). -/
inductive ReadUse where
  /-- Descriptors of a device queue pair. -/
  | fetch (qp : Nat)
  /-- Frame data of a transmit frame of a device queue pair: the TAG of its first descriptor. -/
  | txData (qp frame : Nat)
  /-- Source data of a Pump channel; 255 is the recovery channel. -/
  | pump (ch : Nat)
  /-- A weight bank of a Combiner set. -/
  | weights (set : Nat)
  /-- Anything else a command reads. -/
  | other
  deriving DecidableEq, Repr

/-- What a host access is for: the read and write classes of R317, and who hears of its refusal (R130). -/
inductive WKind where
  /-- A read. -/
  | read
  /-- Payload of a received packet. -/
  | rx
  /-- Bytes of a Pump channel's destination. -/
  | dest (ch : Nat)
  /-- A completion entry. -/
  | cqe
  /-- A Pump record. -/
  | record
  /-- A reply, its output bytes, or another record of a command. -/
  | reply
  deriving DecidableEq, Repr

/-- The output pins the spec names. -/
inductive Pin where
  | ppsOut | syncE0 | syncE1 | fault | thermal | intr
  deriving DecidableEq, Repr

/-- One thing the device puts out, as an observer at its pins sees it. -/
inductive Out where
  /-- A posted write to host memory by a function: `relaxed` is its Relaxed Ordering attribute (R115), `bad` says that EP is set because it
  carries poisoned bytes (R430). -/
  | hostWrite (fn addr : Nat) (data : Bytes) (relaxed bad : Bool)
  /-- A read request to host memory by a function. -/
  | hostRead (fn tag addr len : Nat)
  /-- An MSI-X message of a function's entry. -/
  | msix (fn entry : Nat) (addr : BitVec 64) (data : Word)
  /-- Assert_INTx or Deassert_INTx of a function, on its Interrupt Pin: 1 INTA, 2 INTB. -/
  | intx (fn pin : Nat) (on : Bool)
  /-- A Translation Request. -/
  | atsRequest (fn addr : Nat) (write : Bool)
  /-- An Invalidate Completion. -/
  | invCompletion (fn itag : Nat)
  /-- An Unsupported Request, or an advisory or uncorrectable error reported on a link. -/
  | pcieError (link code : Nat)
  /-- The data a host register or window read returns. -/
  | readData (value : Nat)
  /-- Bytes a host read of the peer window returns; `bad` says that the completion has EP set. -/
  | readBytes (data : Bytes) (bad : Bool)
  /-- A completion with Unsupported Request that answers a refused read of the peer window. -/
  | unsupportedRead (link : Nat)
  /-- A frame on a line port, FCS excluded; `badFcs` says that the frame is sent with a wrong FCS. -/
  | lineFrame (port : Nat) (data : Bytes) (badFcs : Bool)
  /-- An Unris frame on a stitch port. -/
  | stitchFrame (port ty seq : Nat) (data : Bytes)
  /-- A physical signal on a stitch port: the wake pattern (0), a retrain (1) or a lane step (2, lanes). -/
  | stitchSignal (port kind arg : Nat)
  /-- A reply record on the sideband transport. -/
  | sideband (data : Bytes)
  /-- An SPDM response. -/
  | spdm (data : Bytes)
  /-- Bytes programmed into the boot flash. -/
  | flash (addr : Nat) (data : Bytes)
  /-- A transaction on a module management bus: kind 0 start, 1 stop driving, 2 nine clock pulses, 3 data path word. -/
  | moduleBus (bus kind : Nat) (data : Bytes)
  /-- A level at a pin. -/
  | pinLevel (pin : Pin) (high : Bool)
  /-- A voltage request to the VDD_CORE regulator, in mV. -/
  | regulator (mv : Nat)
  deriving DecidableEq, Repr


/-- One counted latch of the counter page of a function (R447). -/
structure Seen where
  /-- which LO register was read last, as a page offset (R447) -/
  counter : Nat := 0
  /-- the whole counter at the latch (R447) -/
  value : BitVec 64 := 0
  /-- device time bits 23:0 at the latch (R447) -/
  time24 : BitVec 24 := 0
  /-- a latch has happened (R447) -/
  used : Bool := false
  deriving DecidableEq, Repr

/-- What the device knows of a firmware image it has checked (R84, R85). -/
structure FwInfo where
  /-- FW_VERSION (R84) -/
  fwVersion : Word := 0
  /-- SEC_VERSION 0-63 (R84) -/
  secVersion : Nat := 0
  /-- BODY_HASH (R84) -/
  bodyHash : BitVec 384 := 0
  /-- KEY_ID (R84) -/
  keyId : Nat := 0
  /-- OWNER_PUB of an image whose owner signature counts (R84,R87) -/
  ownerPub : Bytes := []
  /-- the image passed R85 to R87 (R105) -/
  verified : Bool := true
  deriving DecidableEq, Repr

/-- One copy of the flash slot selector (R80). -/
structure SelCopy where
  /-- 32-bit sequence (R80) -/
  seqNo : Nat := 0
  /-- slot B is primary (R80) -/
  primaryB : Bool := false
  deriving DecidableEq, Repr

/-- What is fused or lies in the board's flash: it survives every reset (R77). -/
structure Fuses where
  /-- which part of the family this die is (R2) -/
  variant : Variant := .lys9632F
  /-- fused owner slots 0-3: SHA-384 of the owner key (R106) -/
  ownerKeys : Store (BitVec 384) := []
  /-- fused SEC_VERSION floor (R86) -/
  floor : Nat := 0
  /-- revocation mask of the four Celwald keys (R85) -/
  revoked : BitVec 4 := 0
  /-- the fuse integrity check passes (R82) -/
  intact : Bool := true
  /-- first selector copy, none when its CRC is wrong (R80) -/
  selA : Option SelCopy := some {}
  /-- second selector copy (R80) -/
  selB : Option SelCopy := none
  /-- what is known of the image in slot A (R80,R105) -/
  slotA : Option FwInfo := some {}
  /-- what is known of the image in slot B (R80,R105) -/
  slotB : Option FwInfo := none
  deriving DecidableEq, Repr

/-- The boot sequence and BOOT_STATUS (R79-R87, R470, R473). -/
structure BootSt where
  /-- LAST_RESET (R75,R81) -/
  lastReset : Nat := 0
  /-- FAIL_CODE (R81,R82) -/
  failCode : Nat := 0
  /-- STAGE (R81) -/
  stage : Nat := 6
  /-- IDENT_INCOMPLETE (R81,R90) -/
  identIncomplete : Bool := false
  /-- OWNER_ENROLLED (R81) -/
  ownerEnrolled : Bool := false
  /-- SLOT_USED, true for slot B (R81) -/
  slotUsed : Bool := false
  /-- RECOVERY (R81) -/
  recovery : Bool := false
  /-- FALLBACK (R81) -/
  fallback : Bool := false
  /-- FAILED (R81) -/
  failed : Bool := false
  /-- DONE (R81) -/
  done : Bool := true
  /-- hash of the active owner key, taken at boot (R87,R106) -/
  activeOwner : Option (BitVec 384) := none
  /-- the image accepted by this boot, running once DRY is left (R84) -/
  image : Option FwInfo := some {}
  /-- Clay training has completed (R79) -/
  clayTrained : Bool := true
  /-- a supply fault stopped the boot in DRY (R470) -/
  supplyStopped : Bool := false
  /-- VDD_WH stands above its monitor threshold (R470,R472) -/
  powered : Bool := true
  /-- a reset of the device follows the reply just written; the straps it will sample (R59,R400) -/
  resetDue : Option Straps := none
  /-- straps as last sampled: HOST_BIF, BOOT_SRC, OWNER_EN, MOD_SPD1:0 (R473) -/
  straps : Straps := {}
  /-- recovery window bytes, unlisted bytes 0 (R83,R119) -/
  window : Store Byte := []
  deriving DecidableEq, Repr

/-- The SPDM responder (R91-R94). -/
structure SpdmSt where
  /-- GET_VERSION has been answered (R91) -/
  version : Bool := false
  /-- GET_CAPABILITIES has been answered (R91) -/
  caps : Bool := false
  /-- NEGOTIATE_ALGORITHMS has been answered (R91) -/
  algs : Bool := false
  /-- secp384r1 and AES-256-GCM were selected (R91) -/
  kex : Bool := false
  /-- session state: 0 none, 1 KEY_EXCHANGE answered, 2 established (R91) -/
  session : Nat := 0
  /-- KEY_UPDATE requests answered in the session (R91) -/
  keyGen : Nat := 0
  /-- the requester's DataTransferSize, 0 while it has stated none (R91) -/
  xfer : Nat := 0
  /-- large request gathered by CHUNK_SEND (R91) -/
  chunkIn : Bytes := []
  /-- large response served by CHUNK_GET (R91) -/
  chunkOut : Bytes := []
  /-- requests that arrived in DORMANT, held until wake (R91) -/
  held : List (Nat × Bytes) := []
  /-- IMAGE_ID and BODY_HASH of each table image loaded, in load order (R92) -/
  images : List (Word × BitVec 384) := []
  /-- the same list as measured at the last COMMIT (R92) -/
  imagesCommitted : List (Word × BitVec 384) := []
  deriving DecidableEq, Repr

/-- The always-on island (R406, R407, R342, R110). -/
structure Wellhead where
  /-- WH_WAKE_EN bits 7:0 (R406) -/
  wakeEn : BitVec 8 := 0xFF
  /-- WH_WAKE_STATUS.LATCHED (R406) -/
  latched : BitVec 8 := 0
  /-- WH_WAKE_STATUS.FIRST (R406) -/
  first : Nat := 0
  /-- WH_TIMER.TICKS (R406) -/
  timer : Word := 0
  /-- the timer has fired in this DORMANT stay (R407) -/
  timerFired : Bool := false
  /-- a wake sequence is running (R110) -/
  waking : Bool := false
  /-- the clocks are stopped in DORMANT (R108,R342) -/
  clocksStopped : Bool := false
  /-- seep ticks counted since the clocks stopped (R342) -/
  ticks : Nat := 0
  /-- time since the last seep edge, in 10^-6 ns (R342) -/
  tickAcc : Nat := 0
  /-- the wellhead runs from its internal oscillator (R475) -/
  seepInternal : Bool := false
  deriving DecidableEq, Repr

/-- Where the reply of a running command goes (R42, R54). -/
structure CmdRef where
  /-- channel the command came by (R35) -/
  chan : Chan := .sideband
  /-- SEQ (R38) -/
  seq : Word := 0
  /-- opcode (R38) -/
  op : Nat := 0
  /-- RESP_ADDR (R38) -/
  resp : BitVec 64 := 0
  /-- target unit, as Machine.unitCode numbers it (R37) -/
  unit : Nat := 0
  /-- the reply will carry REMOTE (R42) -/
  remote : Bool := false
  deriving DecidableEq, Repr

/-- What a command answers: the fields of its reply record (R42, R44). -/
structure Answer where
  /-- STATUS (R44) -/
  status : Nat := 0
  /-- DETAIL (R42) -/
  detail : Nat := 0
  /-- RESULT0 (R42) -/
  r0 : Nat := 0
  /-- RESULT1 (R42) -/
  r1 : Nat := 0
  /-- bytes the command writes at OUT_ADDR (R43,R387) -/
  out : Bytes := []
  /-- OUT_ADDR (R43) -/
  outAddr : Nat := 0
  deriving DecidableEq, Repr

/-- An accepted command that has no reply yet (R36, R37, R49, R50). -/
structure Running where
  /-- its channel, SEQ, opcode and RESP_ADDR (R36) -/
  ref : CmdRef := {}
  /-- 0 not started, 1 partly done, 2 effect complete (R49) -/
  stage : Nat := 0
  /-- device time at acceptance (R49) -/
  since : Nat := 0
  /-- time-out in us (R38,R49) -/
  timeoutUs : Nat := 100000
  /-- its packet while an earlier command of the channel holds its start off (R37) -/
  held : Option Cmd := none
  deriving DecidableEq, Repr

/-- One command channel: sequence window, reply cache, commands in flight (R35, R36, R46). -/
structure ChanSt where
  /-- H, the last SEQ accepted as new (R46,R48) -/
  last : Option Word := none
  /-- replies by SEQ (R46) -/
  cache : List (Word × Answer) := []
  /-- accepted commands without a reply, oldest first (R36) -/
  running : List Running := []
  deriving DecidableEq, Repr

/-- One forwarding entry (R54, R55, R56). -/
structure FwdEntry where
  /-- entry number (R54) -/
  num : Nat := 0
  /-- the origin's SEQ and RESP_ADDR (R54) -/
  origin : CmdRef := {}
  /-- the entry serves a FORWARD (R56) -/
  inner : Bool := false
  /-- OUT_ADDR of the originating command (R387) -/
  outAddr : Nat := 0
  /-- stitch port the command left by, none inside the device (R54,R387) -/
  port : Option Nat := none
  /-- SEQ on the outgoing channel (R54) -/
  outSeq : Word := 0
  /-- the command was marked IDEMPOTENT (R401) -/
  idem : Bool := false
  /-- it has been resent once (R401) -/
  resent : Bool := false
  /-- header and payload, kept for a resend (R401) -/
  body : Bytes := []
  /-- member the command is for; of an inner command, the unit that issues it (R397) -/
  member : Nat := 0
  /-- device time when it was made (R55) -/
  since : Nat := 0
  /-- how far an inner command has come (R49,R56) -/
  stage : Nat := 0
  /-- remaining time-out at this unit in us (R55) -/
  remainUs : Nat := 0
  /-- the tag's state word holds TIMED_OUT (R50) -/
  timedOut : Bool := false
  deriving DecidableEq, Repr

/-- One channel table entry (R69). -/
structure ChanEntry where
  /-- MASTER_A (R69) -/
  masterA : Word := 0
  /-- MASTER_B (R69) -/
  masterB : Word := 0
  /-- VALID (R69) -/
  valid : Bool := false
  /-- COMMANDS (R69) -/
  commands : Bool := false
  /-- PRIV (R69) -/
  priv : Bool := false
  /-- BOX (R69) -/
  box : Nat := 0
  deriving DecidableEq, Repr

/-- One mailbox block (R62-R68). -/
structure Mbox where
  /-- MBOX_ADDR_LO (R62) -/
  addrLo : Word := 0
  /-- MBOX_ADDR_HI (R62) -/
  addrHi : Word := 0
  /-- MBOX_NOTICE (R62,R63) -/
  notice : Word := 0
  /-- MBOX_ACK (R62,R64) -/
  ack : Word := 0
  /-- MBOX_STATUS (R62,R64) -/
  status : Word := 0
  /-- MBOX_TMO (R62) -/
  tmo : Word := 0
  /-- KIND of the pending notice (R63) -/
  kind : Nat := 0
  /-- master that rang the pending notice (R456) -/
  ringer : Word := 0
  /-- SEQ of a notice whose tag holds TIMED_OUT (R50,R66) -/
  tmoSeq : Option Nat := none
  deriving DecidableEq, Repr

/-- One PCIe link (R111, R112, R137-R142, R145). -/
structure LinkSt where
  /-- LINK_UP (R145) -/
  up : Bool := true
  /-- RATE 1-7 (R112,R145) -/
  rate : Nat := 7
  /-- WIDTH in lanes (R112,R145) -/
  width : Nat := 16
  /-- FLIT mode (R112,R145) -/
  flit : Bool := true
  /-- LSTATE (R145) -/
  lstate : Nat := 0
  /-- the link is frozen (R139) -/
  frozen : Bool := false
  /-- CONT_STATUS.CAUSE (R139) -/
  cause : Nat := 0
  /-- CONT_COUNT (R139) -/
  count : Nat := 0
  /-- device time in ns at the freeze (R139) -/
  time : Nat := 0
  /-- the host has enabled ASPM L1 (R142) -/
  aspmL1 : Bool := false
  /-- L1 PM Substates enables: bit 2 ASPM L1.2, bit 3 ASPM L1.1 (R113,R142) -/
  l1ss : Nat := 0
  /-- L1 substate the link rests in: 0 none, 1 L1.1, 2 L1.2 (R142) -/
  l1sub : Nat := 0
  /-- the host has enabled L0p (R113) -/
  l0pEn : Bool := false
  deriving DecidableEq, Repr

/-- The configuration space fields of one function that the spec acts on (R113-R136). -/
structure FnCfg where
  /-- Bus Master Enable (R136) -/
  bme : Bool := false
  /-- MSI-X Enable (R124) -/
  msixEn : Bool := false
  /-- Function Mask (R126) -/
  fnMask : Bool := false
  /-- Interrupt Disable (R124,R145) -/
  intxDis : Bool := true
  /-- Assert_INTx has been sent and not withdrawn (R127) -/
  intxOn : Bool := false
  /-- ATS Enable (R130) -/
  ats : Bool := false
  /-- Enable Relaxed Ordering (R115) -/
  relaxed : Bool := true
  /-- Max_Payload_Size (R113) -/
  mps : Nat := 128
  /-- Max_Read_Request_Size (R113) -/
  mrrs : Nat := 512
  /-- Completion Timeout Value in bits 3:0, disable in bit 4 (R116) -/
  cto : Nat := 0
  /-- VF Enable of a physical function (R134,R148) -/
  vfEnable : Bool := false
  /-- NumVFs of a physical function (R134,R148) -/
  numVfs : Nat := 0
  /-- an FLR is running, Transactions Pending is set (R133) -/
  flr : Bool := false
  /-- CONT_STATUS.REL_REFUSED (R139) -/
  relRefused : Bool := false
  /-- an FLR initiated in DORMANT waits for WAKE_DONE (R135) -/
  deferFlr : Bool := false
  /-- writable address bits of the six base address registers (R118,R159) -/
  bars : Store Word := []
  /-- those of a physical function's VF base address registers (R159) -/
  vfBars : Store Word := []
  /-- expansion ROM base address, bit 0 its enable (R118,R123) -/
  rom : Word := 0
  /-- ID-based ordering enables, of requests and of completions (R113) -/
  ido : Nat := 0
  /-- 10-bit and 14-bit tag requester enables (R113) -/
  tagEn : Nat := 0
  /-- ECRC generation and check enables (R113) -/
  ecrc : Nat := 0
  /-- ARI Capable Hierarchy of a physical function (R113) -/
  ari : Bool := false
  /-- AER Uncorrectable Error Status (R113,R144,R431) -/
  aerUnc : Word := 0
  /-- AER Uncorrectable Error Mask (R113) -/
  aerUncMask : Word := 0
  /-- AER Uncorrectable Error Severity (R113) -/
  aerUncSev : Word := 0x00462030
  /-- AER Correctable Error Status (R113,R144,R431) -/
  aerCor : Word := 0
  /-- AER Correctable Error Mask (R113) -/
  aerCorMask : Word := 0x2000
  deriving DecidableEq, Repr

/-- One MSI-X table entry and its shadow (R125, R126). -/
structure Msix where
  /-- message address as written (R125) -/
  addr : BitVec 64 := 0
  /-- message data as written (R125) -/
  data : Word := 0
  /-- Mask bit (R125) -/
  mask : Bool := true
  /-- pending bit (R126) -/
  pend : Bool := false
  /-- shadowed address (R126) -/
  shAddr : BitVec 64 := 0
  /-- shadowed data (R126) -/
  shData : Word := 0
  deriving DecidableEq, Repr

/-- One device-issued host read, a wait under R50 (R114, R116, R319). -/
structure ReadTag where
  /-- read tag (R114) -/
  num : Nat := 0
  /-- function whose requester ID it uses (R116) -/
  fn : Nat := 0
  /-- what the read is for (R317) -/
  use : ReadUse := .other
  /-- bytes held in the sump for it (R318) -/
  bytes : Nat := 0
  /-- device time of its issue (R449) -/
  born : Nat := 0
  /-- untranslated address it reads (R131) -/
  addr : Nat := 0
  /-- byte offset of its data within its transfer (R323) -/
  off : Nat := 0
  deriving DecidableEq, Repr

/-- One translation cache entry (R129). -/
structure AtcEntry where
  /-- function of the requester ID (R129) -/
  fn : Nat := 0
  /-- untranslated address, aligned to the size (R129) -/
  base : Nat := 0
  /-- 4 KiB to 1 GiB (R129) -/
  size : Nat := 4096
  /-- translated address (R129) -/
  target : Nat := 0
  /-- read permission (R130) -/
  rd : Bool := true
  /-- write permission (R130) -/
  wr : Bool := true
  deriving DecidableEq, Repr

/-- One Translation Request in flight (R130, R131). -/
structure AtsReq where
  /-- request number (R130) -/
  num : Nat := 0
  /-- function (R130) -/
  fn : Nat := 0
  /-- address asked for (R130) -/
  addr : Nat := 0
  /-- the access that missed writes (R130) -/
  write : Bool := false
  /-- accesses held until the completion, in order (R130) -/
  holds : List (WKind × Out) := []
  /-- overlapped by an Invalidate Request (R131) -/
  stale : Bool := false
  deriving DecidableEq, Repr

/-- One Invalidate Request not yet completed (R131). -/
structure InvReq where
  /-- its tag (R131) -/
  itag : Nat := 0
  /-- function (R131) -/
  fn : Nat := 0
  /-- first address (R131) -/
  base : Nat := 0
  /-- range (R131) -/
  size : Nat := 4096
  /-- reads that used the removed entries and have not ended (R131) -/
  waits : List Nat := []
  deriving DecidableEq, Repr

/-- PEER_BASE, PEER_LIMIT, PEER_WIN and PEER_ALLOW of one physical function (R145). -/
structure PeerRegs where
  /-- PEER_BASE_n (R145) -/
  base : Store (BitVec 64) := []
  /-- PEER_LIMIT_n (R145) -/
  limit : Store (BitVec 64) := []
  /-- PEER_WIN (R145) -/
  win : BitVec 64 := 0
  /-- PEER_ALLOW_n (R145) -/
  allow : Store Word := []
  deriving DecidableEq, Repr

/-- One allow list of one function (R162). -/
structure Spoof where
  /-- check on (R162) -/
  enable : Bool := false
  /-- the entries as loaded (R162) -/
  entries : List Bytes := []
  deriving DecidableEq, Repr

/-- One function's allocation record and what hangs on it (R147-R166, R447). -/
structure Func where
  /-- created by FUNC_CREATE, by an image, or a physical function (R148) -/
  created : Bool := false
  /-- QP_COUNT (R150) -/
  qpCount : Nat := 0
  /-- VEC_COUNT (R150) -/
  vecCount : Nat := 0
  /-- POLICERS (R150) -/
  policers : Nat := 0
  /-- CISTERN_KIB (R150) -/
  cisternKib : Nat := 0xFFFFFFFF
  /-- EM_ENTRIES (R150) -/
  emEntries : Nat := 0
  /-- SIEVE_ENTRIES (R150) -/
  sieveEntries : Nat := 0
  /-- CIPHER_CTX (R150) -/
  cipherCtx : Nat := 0
  /-- EAXC_ENTRIES (R150) -/
  eaxcEntries : Nat := 0
  /-- QP_BASE (R150,R152) -/
  qpBase : Nat := 0
  /-- VEC_BASE (R150,R152) -/
  vecBase : Nat := 0
  /-- COUNTER_PAGE (R150) -/
  counterPage : Bool := false
  /-- allow lists 0 MAC, 1 VLAN, 2 IPv4, 3 IPv6, 4 eAxC (R162) -/
  spoof : Store Spoof := []
  /-- counter number granted in each slot (R448) -/
  grants : Store Nat := []
  /-- the page's one latch (R447) -/
  latch : Seen := {}
  /-- exception bucket on the host-transmit path, in packets (R197) -/
  excTokens : Nat := 64
  /-- part of the next token (R197) -/
  excFrac : Nat := 0
  /-- device time of its last fill (R197) -/
  excLast : Nat := 0
  /-- FUNC_DESTROY that waits for an FLR to end (R158) -/
  destroying : Option CmdRef := none
  deriving DecidableEq, Repr

/-- The fronthaul verdict a passed frame carries (R356, R357). -/
structure Verdict where
  /-- flow (R357) -/
  flow : Nat := 0
  /-- 0 EARLY, 1 ON_TIME, 2 LATE (R356) -/
  kind : Nat := 0
  /-- T_sym of the grid instance, 2^-16 ns (R356) -/
  tSym : Nat := 0
  /-- C-plane frame (R354) -/
  cplane : Bool := false
  deriving DecidableEq, Repr

/-- The ring a host-sent frame came from (R309). -/
structure TxTag where
  /-- device queue pair (R309) -/
  qp : Nat := 0
  /-- TAG of its first descriptor (R306) -/
  tag : Nat := 0
  /-- NDESC (R306) -/
  ndesc : Nat := 1
  /-- USER (R306) -/
  user : Nat := 0
  /-- TS_REQ (R300) -/
  tsReq : Bool := false
  /-- frame bytes (R306) -/
  len : Nat := 0
  deriving DecidableEq, Repr

/-- A PUSH_TUNNEL that ran, for the fix-ups an ESP protect repeats (R281). -/
structure PushFix where
  /-- byte offset of the template in the packet (R207) -/
  pos : Nat := 0
  /-- L3_OFF (R206) -/
  l3 : Nat := 0xFF
  /-- L4_OFF (R206) -/
  l4 : Nat := 0xFF
  /-- FIX (R207) -/
  fix : Nat := 0
  deriving DecidableEq, Repr

/-- A packet in the device (R169, R194, R208, R241, R255, R357). -/
structure Packet where
  /-- number the model gives each packet and copy (R255) -/
  num : Nat := 0
  /-- the packet's bytes, FCS excluded (R248) -/
  bytes : Bytes := []
  /-- its Cistern buffer (R248) -/
  buf : Option Nat := none
  /-- line port it came in by (R171) -/
  port : Option Nat := none
  /-- function that transmitted it (R190) -/
  fn : Option Nat := none
  /-- ring it completes on (R309) -/
  tx : Option TxTag := none
  /-- epoch it holds (R241) -/
  epoch : Nat := 0
  /-- it has not left its epoch (R241) -/
  live : Bool := true
  /-- its first parse was in FLOWING (R25) -/
  serviceMode : Bool := false
  /-- arrival timestamp (R169,R335) -/
  ts : Nat := 0
  /-- UNLOCKED when it was taken (R337) -/
  tsUnlocked : Bool := false
  /-- MAC error flags (R171) -/
  macErr : Nat := 0
  /-- parse flags (R198) -/
  pflags : Nat := 0
  /-- recorded header slots: start, advance, node (R194) -/
  slots : Store (Nat × Nat × Nat) := []
  /-- class (R203) -/
  cls : Nat := 0
  /-- colour (R203) -/
  colour : Nat := 0
  /-- queue handle (R204) -/
  queue : Nat := 0xFFFF
  /-- spreading hash (R211) -/
  hash : Nat := 0
  /-- next word of its action list (R208) -/
  next : Nat := 0
  /-- copies made (R208) -/
  copies : Nat := 0
  /-- times handed off (R209) -/
  handoffs : Nat := 0
  /-- last PUSH_TUNNEL it ran (R281) -/
  push : Option PushFix := none
  /-- 1 a Delay_Req, 2 a two-step Sync of the firmware PTP clock: its departure is reported to it (R340) -/
  ptp : Nat := 0
  /-- its completion carries a timestamp though no port received it (R375) -/
  stamped : Bool := false
  /-- launch time T (R269) -/
  launch : Option Nat := none
  /-- the launch time came from a descriptor (R358) -/
  fromDesc : Bool := false
  /-- when it joined its queue (R269,R449) -/
  joined : Nat := 0
  /-- departure stamps to write: byte offset and FORMAT (R341) -/
  stamps : List (Nat × Nat) := []
  /-- fronthaul verdict (R357) -/
  verdict : Option Verdict := none
  /-- it started after L + LATE_TOL (R270) -/
  late : Bool := false
  /-- ingress priority, for the port's occupancy (R271) -/
  prio : Nat := 0
  deriving DecidableEq, Repr

/-- A received pause on one priority (R173, R174). -/
structure Held where
  /-- when the received pause time runs out (R173) -/
  upTo : Nat := 0
  /-- start of the unbroken hold (R174) -/
  since : Nat := 0
  /-- a pause is in force (R174) -/
  on : Bool := false
  /-- the watchdog has tripped: pause is ignored (R174) -/
  tripped : Bool := false
  /-- when the last pause frame for it came (R174) -/
  lastPause : Nat := 0
  /-- XOFF has been sent and not yet XON (R271) -/
  xoff : Bool := false
  /-- XOFF_KIB (R271) -/
  xoffKib : Nat := 512
  /-- XON_KIB (R271) -/
  xonKib : Nat := 256
  deriving DecidableEq, Repr

/-- PORT_CONFIG of one port (R186). -/
structure PortCfg where
  /-- 0 off, 1 Ethernet, 2 stitch (R186) -/
  mode : Nat := 0
  /-- LANES (R186) -/
  lanes : Nat := 1
  /-- RATE 0-3 (R186) -/
  rate : Nat := 0
  /-- MAX_FRAME (R186) -/
  maxFrame : Nat := 9728
  /-- PFC (R186) -/
  pfc : Bool := false
  /-- FC_RX (R186) -/
  fcRx : Bool := false
  /-- FC_TX (R186) -/
  fcTx : Bool := false
  /-- LPI (R186) -/
  lpi : Bool := false
  /-- WAKE_ARM (R186) -/
  wakeArm : Bool := false
  /-- PFC_ENABLE (R186) -/
  pfcEnable : BitVec 8 := 0
  /-- PAUSE_WD in ms (R174,R186) -/
  pauseWd : Nat := 50
  /-- LPI_IDLE in us (R175,R186) -/
  lpiIdle : Nat := 10
  /-- WIDTH_FLOOR (R186) -/
  widthFloor : Nat := 1
  /-- WIDTH_CEIL (R186) -/
  widthCeil : Nat := 4
  deriving DecidableEq, Repr

/-- TIME_PORT_SET of one port and its PTP clock (R340, R347). -/
structure PtpPort where
  /-- ROLE (R347) -/
  role : Nat := 0
  /-- PROFILE (R347) -/
  profile : Nat := 1
  /-- DOMAIN (R347) -/
  domain : Nat := 24
  /-- ONE_STEP (R347) -/
  oneStep : Bool := false
  /-- PRIO (R347) -/
  prio : Nat := 0
  /-- LOG_SYNC (R347) -/
  logSync : Int := 0
  /-- RX_DELAY (R335,R347) -/
  rxDelay : Int := 0
  /-- TX_DELAY (R335,R347) -/
  txDelay : Int := 0
  /-- PEER (R347) -/
  peer : Bytes := []
  /-- origin time of the last Sync, in 2^-16 ns (R340) -/
  t1 : Option Int := none
  /-- its arrival timestamp (R340) -/
  t2 : Option Nat := none
  /-- departure timestamp of the last Delay_Req (R340) -/
  t3 : Option Nat := none
  /-- last mean path delay, in 2^-16 ns (R340) -/
  meanDelay : Int := 0
  /-- best Announce data set heard, as one ordered number (R340) -/
  announce : Option Nat := none
  /-- unicast negotiation granted (G.8275.2) (R340) -/
  granted : Bool := false
  /-- sequenceId of the next PTP message the port sends (R340) -/
  seqNo : Nat := 0
  deriving DecidableEq, Repr

/-- One line port (R167-R185, R335). -/
structure PortSt where
  /-- configuration (R186) -/
  cfg : PortCfg := {}
  /-- link up (R187) -/
  up : Bool := false
  /-- current width in lanes (R176,R187) -/
  width : Nat := 0
  /-- LB_MODE (R180) -/
  lb : Nat := 0
  /-- transmitter in low-power idle (R175,R187) -/
  lpiOn : Bool := false
  /-- since when nothing was there to send (R175) -/
  idleSince : Nat := 0
  /-- pause state of each priority (R174) -/
  held : Store Held := []
  /-- frame being sent (R241) -/
  onWire : Option Packet := none
  /-- its start-of-frame instant (R335) -/
  sfd : Nat := 0
  /-- when the wire can take the next frame: 20 bytes beyond the last one (R264) -/
  txFree : Nat := 0
  /-- PTP settings (R347) -/
  ptp : PtpPort := {}
  /-- when the quad's pipeline can take the next packet (kept at the quad's first port) (R33) -/
  overNext : Nat := 0
  /-- exception bucket of the port, in packets (R197) -/
  excTokens : Nat := 64
  /-- part of the next token (R197) -/
  excFrac : Nat := 0
  /-- device time of its last fill (R197) -/
  excLast : Nat := 0
  deriving DecidableEq, Repr

/-- One test generator and its checker (R182-R184). -/
structure TestGen where
  /-- PORT (R182) -/
  port : Nat := 0
  /-- sending (R182) -/
  run : Bool := false
  /-- checker running (R182) -/
  check : Bool := false
  /-- CONSUME (R182) -/
  consume : Bool := false
  /-- PATTERN (R182) -/
  pattern : Nat := 0
  /-- LEN_MIN (R182) -/
  lenMin : Nat := 64
  /-- LEN_MAX (R182) -/
  lenMax : Nat := 64
  /-- RATE_KBPS (R182) -/
  rateKbps : Nat := 0
  /-- FILL (R182) -/
  fill : Byte := 0
  /-- the HDR_LEN template bytes (R182) -/
  hdr : Bytes := []
  /-- COUNT (R182) -/
  count : Nat := 0
  /-- SENT, and n of the next frame (R184) -/
  sent : Nat := 0
  /-- CHECKED (R183) -/
  checked : Nat := 0
  /-- SEQ_GAP (R183) -/
  seqGap : Nat := 0
  /-- SEQ_OOO (R183) -/
  seqOoo : Nat := 0
  /-- PAYLOAD_ERR (R183) -/
  payErr : Nat := 0
  /-- last SEQ the checker saw (R183) -/
  lastSeq : Option Nat := none
  /-- LAT_MIN (R184) -/
  latMin : Int := 0x7FFFFFFFFFFFFFFF
  /-- LAT_MAX (R184) -/
  latMax : Int := -0x8000000000000000
  /-- LAT_SUM (R184) -/
  latSum : Int := 0
  /-- when RATE_KBPS lets the next frame start (R182) -/
  nextAt : Nat := 0
  deriving DecidableEq, Repr

/-- A transfer on a module management bus (R178, R179, R187). -/
structure ModXfer where
  /-- the MOD_READ or MOD_WRITE it serves (R187) -/
  ref : CmdRef := {}
  /-- MOD_WRITE (R187) -/
  write : Bool := false
  /-- device address (R187) -/
  dev : Nat := 0
  /-- BANK (R187) -/
  bank : Nat := 0
  /-- PAGE (R187) -/
  page : Nat := 0
  /-- OFFSET (R187) -/
  offset : Nat := 0
  /-- LEN (R187) -/
  len : Nat := 0
  /-- bytes to write (R187) -/
  data : Bytes := []
  /-- OUT_ADDR (R187) -/
  outAddr : Nat := 0
  deriving DecidableEq, Repr

/-- One module management bus (R178, R179). -/
structure ModBus where
  /-- transfer in hand (R179) -/
  xfer : Option ModXfer := none
  /-- arbitrations lost in this transfer (R179) -/
  lost : Nat := 0
  /-- waiting for the bus to be idle (R179) -/
  backOff : Bool := false
  /-- module bytes last written or polled, keyed ((device x 256 + bank) x 256 + page) x 256 + offset (R178) -/
  pages : Store Byte := []
  /-- CMIS data path state of each lane as last polled (R178) -/
  dataPath : Store Nat := []
  deriving DecidableEq, Repr

/-- One transition of a parse node (R191). -/
structure Transition where
  /-- VALUE_t (R191) -/
  value : Nat := 0
  /-- NEXT_t (R191) -/
  next : Nat := 0
  /-- TRANS_VALID bit t (R191) -/
  valid : Bool := false
  deriving DecidableEq, Repr

/-- A parse node (R191). -/
structure ParseNode where
  /-- SEL_OFF (R191) -/
  selOff : Nat := 0
  /-- SEL_END (R191) -/
  selEnd : Bool := false
  /-- SEL_WIDTH (R191) -/
  selWidth : Nat := 0
  /-- SLOT (R191) -/
  slot : Nat := 0xFF
  /-- SEL_MASK (R191) -/
  selMask : Nat := 0
  /-- ADV_CONST (R191) -/
  advConst : Nat := 0
  /-- LEN_OFF (R191) -/
  lenOff : Nat := 0
  /-- LEN_WIDTH (R191) -/
  lenWidth : Nat := 0
  /-- LEN_SCALE (R191) -/
  lenScale : Nat := 0
  /-- DEFAULT_NEXT (R191) -/
  defaultNext : Nat := 0x8000
  /-- CHK_OFF (R191) -/
  chkOff : Nat := 0
  /-- CHK_SCOPE (R191) -/
  chkScope : Bool := false
  /-- CHK_WIDTH (R191) -/
  chkWidth : Nat := 0
  /-- CHK_SCALE (R191) -/
  chkScale : Nat := 0
  /-- CHK_BIAS (R191) -/
  chkBias : Nat := 0
  /-- the transitions in order (R191) -/
  trans : List Transition := []
  deriving DecidableEq, Repr

/-- A graph record (R196). -/
structure GraphRec where
  /-- ROOT (R196) -/
  root : Nat := 0
  /-- DEPTH_POLICY (R196) -/
  depthPolicy : Nat := 1
  /-- CONFLICT_POLICY (R196) -/
  conflictPolicy : Nat := 2
  /-- EXC_CLASS (R196) -/
  excClass : Nat := 0
  /-- EXC_QUEUE (R196) -/
  excQueue : Nat := 0xFFFF
  /-- EXC_RATE, 0 selects 10,000 (R196) -/
  excRate : Nat := 0
  deriving DecidableEq, Repr

/-- One binding table entry (R190). -/
structure Binding where
  /-- graph (R190) -/
  graph : Nat := 0
  /-- tree set (R190) -/
  treeSet : Nat := 0
  deriving DecidableEq, Repr

/-- One key field of a tree set record (R199). -/
structure KeyField where
  /-- SRC_f (R199) -/
  src : Nat := 0
  /-- BIT_OFF_f (R199) -/
  bitOff : Nat := 0
  /-- WIDTH_f (R199) -/
  width : Nat := 0
  deriving DecidableEq, Repr

/-- A tree set record (R199). -/
structure TreeSet where
  /-- ROOT (R199) -/
  root : Nat := 0
  /-- DEFAULT_RULE (R199) -/
  defaultRule : Nat := 0
  /-- the key fields in use (R199) -/
  fields : List KeyField := []
  deriving DecidableEq, Repr

/-- A rule (R203). -/
structure Rule where
  /-- CLASS (R203) -/
  cls : Nat := 0
  /-- COLOUR (R203) -/
  colour : Nat := 0
  /-- QUEUE (R203) -/
  queue : Nat := 0xFFFF
  deriving DecidableEq, Repr

/-- A class record (R205). -/
structure ClassRec where
  /-- ALIST (R205) -/
  alist : Nat := 0
  /-- LEN (R205) -/
  len : Nat := 1
  deriving DecidableEq, Repr

/-- A spreading record (R210). -/
structure SpreadRec where
  /-- ALG (R210) -/
  alg : Nat := 0
  /-- SLOT_L3 (R210) -/
  slotL3 : Nat := 0xFF
  /-- SLOT_L4 (R210) -/
  slotL4 : Nat := 0xFF
  /-- SLOT_TUN (R210) -/
  slotTun : Nat := 0xFF
  /-- FIELDS (R210) -/
  fields : BitVec 16 := 0
  /-- KEY, missing bytes 0 (R210) -/
  key : Bytes := []
  deriving DecidableEq, Repr

/-- A policer record (R263). -/
structure Policer where
  /-- CIR (R263) -/
  cir : Nat := 0xFFFFFFFF
  /-- PIR (R263) -/
  pir : Nat := 0xFFFFFFFF
  /-- CBS (R263) -/
  cbs : Nat := 268435456
  /-- PBS (R263) -/
  pbs : Nat := 268435456
  /-- AWARE (R263) -/
  aware : Bool := false
  deriving DecidableEq, Repr

/-- A group or queue node record (R266). -/
structure SchedNode where
  /-- PARENT (R266) -/
  parent : Nat := 0xFF
  /-- TIMED (R266) -/
  timed : Bool := false
  /-- LATE_DROP (R266) -/
  lateDrop : Bool := false
  /-- PRIO (R266) -/
  prio : Nat := 0
  /-- LIMIT_KIB (R266) -/
  limitKib : Nat := 1024
  /-- QUANTUM (R266) -/
  quantum : Nat := 9728
  /-- BURST (R266) -/
  burst : Nat := 9728
  /-- CURVE_G (R266) -/
  curveG : Nat := 0xFF
  /-- CURVE_Y (R266) -/
  curveY : Nat := 0xFF
  /-- CURVE_R (R266) -/
  curveR : Nat := 0xFF
  /-- CIR (R266) -/
  cir : Nat := 0
  /-- CBS (R266) -/
  cbs : Nat := 0
  /-- PIR (R266) -/
  pir : Nat := 0
  /-- PBS (R266) -/
  pbs : Nat := 0
  /-- LATE_TOL (R266) -/
  lateTol : Nat := 0
  deriving DecidableEq, Repr

/-- A curve record (R260). -/
structure Curve where
  /-- MIN_KIB (R260) -/
  minKib : Nat := 0xFFFF
  /-- MAX_KIB (R260) -/
  maxKib : Nat := 0xFFFF
  /-- PMAX (R260) -/
  pmax : Nat := 0
  deriving DecidableEq, Repr

/-- One bank of every double-banked store (R240); an unlisted record holds its R480 value. -/
structure Bank where
  /-- parse nodes, keyed 256 x graph + node (R191,R240) -/
  nodes : Store ParseNode := []
  /-- graph records (R196,R240) -/
  graphs : Store GraphRec := []
  /-- binding table, keyed by the BIND_SET source number (R190,R240) -/
  binds : Store Binding := []
  /-- tree set records (R199,R240) -/
  treeSets : Store TreeSet := []
  /-- class records (R205,R240) -/
  classes : Store ClassRec := []
  /-- action words (R205,R240) -/
  words : Store (BitVec 64) := []
  /-- spreading records by function (R210,R240) -/
  spreads : Store SpreadRec := []
  /-- indirection entries, keyed 4,096 x function + index (R210,R240) -/
  indir : Store Nat := []
  /-- policer records (R263,R240) -/
  policers : Store Policer := []
  /-- group records (R266,R240) -/
  groups : Store SchedNode := []
  /-- groups last written attached to a port of lanes 8 to 15 (R7,R100) -/
  hiGroups : List Nat := []
  /-- ports 8 to 15 whose binding has been written (R7,R100) -/
  hiBinds : List Nat := []
  /-- network egress queue records (R266,R240) -/
  netQs : Store SchedNode := []
  /-- host-transmit queue records (R266,R240) -/
  hostQs : Store SchedNode := []
  /-- curve records (R260,R240) -/
  curves : Store Curve := []
  deriving DecidableEq, Repr

/-- A tree node (R201). -/
structure TreeNode where
  /-- TYPE (R201) -/
  ty : Nat := 1
  /-- WIDTH of a SPLIT, TABLE of EXACT and SIEVE (R201) -/
  width : Nat := 0
  /-- KEY_BIT (R201) -/
  keyBit : Nat := 0
  /-- THRESHOLD, or KEYSEL mask in bits 7:0 (R201) -/
  thresh : Nat := 0
  /-- LEFT, RULE of a LEAF, or MISS (R201) -/
  left : Nat := 0
  /-- RIGHT (R201) -/
  right : Nat := 0
  deriving DecidableEq, Repr

/-- An exact-match entry (R222). -/
structure EmEntry where
  /-- KEY (R222) -/
  key : Bytes := []
  /-- RULE (R222) -/
  rule : Nat := 0
  /-- USER (R222) -/
  user : Nat := 0
  /-- HIT (R222) -/
  hit : Bool := false
  /-- IDLE (R222) -/
  idle : Nat := 0
  /-- STATIC (R222) -/
  static : Bool := false
  /-- LEARNED (R222) -/
  learned : Bool := false
  deriving DecidableEq, Repr

/-- An exact-match table (R219, R222). -/
structure EmTab where
  /-- KEY_LEN (R219) -/
  keyLen : Nat := 0
  /-- FUNC (R219) -/
  fn : Nat := 0
  /-- LOG2_BUCKETS (R219) -/
  log2 : Nat := 4
  /-- SEED_A (R219) -/
  seedA : Nat := 0
  /-- SEED_B (R219) -/
  seedB : Nat := 1
  /-- AGE_MS (R219) -/
  ageMs : Nat := 0
  /-- NOTICE_MS (R219) -/
  noticeMs : Nat := 100
  /-- VALID entries, keyed 4 x bucket + slot (R222) -/
  entries : Store EmEntry := []
  /-- device time of the last EM_LEARN_FAIL notice (R228) -/
  lastNotice : Option Nat := none
  /-- next entry the sweeper visits (R229) -/
  sweep : Nat := 0
  deriving DecidableEq, Repr

/-- An aged-entry record (R231). -/
structure AgedRec where
  /-- TABLE (R231) -/
  table : Nat := 0
  /-- LEARNED (R231) -/
  learned : Bool := false
  /-- RULE (R231) -/
  rule : Nat := 0
  /-- USER (R231) -/
  user : Nat := 0
  /-- TIME (R231) -/
  time : Nat := 0
  /-- KEY (R231) -/
  key : Bytes := []
  deriving DecidableEq, Repr

/-- A Sieve row (R233). -/
structure SieveRow where
  /-- VALID (R233) -/
  valid : Bool := false
  /-- VALUE AND MASK (R233) -/
  value : BitVec 160 := 0
  /-- MASK (R233) -/
  mask : BitVec 160 := 0
  /-- RULE (R233) -/
  rule : Nat := 0
  deriving DecidableEq, Repr

/-- A Sieve table (R232). -/
structure SieveTab where
  /-- MODE (R232) -/
  mode : Nat := 0
  /-- FUNC (R232) -/
  fn : Nat := 0
  /-- FIRST_BANK (R232) -/
  firstBank : Nat := 0
  /-- BANKS (R232) -/
  banks : Nat := 0
  /-- the PF_COUNT pre-filter key bit positions (R232,R234) -/
  pfBits : List Nat := []
  /-- VALID rows by table row (R233) -/
  rows : Store SieveRow := []
  /-- tag of each bank in bits 7:0, tag mask in bits 15:8 (R234) -/
  tags : Store (BitVec 16) := []
  deriving DecidableEq, Repr

/-- A COMMIT in progress (R242). -/
structure CommitSt where
  /-- its command (R242) -/
  ref : CmdRef := {}
  /-- NEW_EPOCH (R242) -/
  newEpoch : Nat := 0
  /-- DRAIN_MAX in us (R242) -/
  drainUs : Nat := 10000
  /-- S (R242) -/
  switchAt : Nat := 0
  /-- S has passed (R242) -/
  switched : Bool := false
  /-- device time of the switch (R242) -/
  switchedAt : Nat := 0
  /-- the draining epoch (R242) -/
  oldEpoch : Nat := 0
  /-- packets evicted (R242) -/
  evicted : Nat := 0
  /-- step 6 is running (R242) -/
  copying : Bool := false
  /-- the reply has gone out already (time-out, SHUT-IN) (R243) -/
  replied : Bool := false
  /-- armed by a group change (R245) -/
  group : Bool := false
  deriving DecidableEq, Repr

/-- Epochs, single stores, exact-match and Sieve tables (R219-R247). -/
structure TableSt where
  /-- the bank new packets read (R240) -/
  active : Bank := {}
  /-- the other bank (R240) -/
  inactive : Bank := {}
  /-- stores written since the last COMMIT, by section TYPE (R240,R100) -/
  written : List Nat := []
  /-- current epoch (R241) -/
  epoch : Nat := 0
  /-- COMMIT in progress (R242) -/
  commit : Option CommitSt := none
  /-- tree nodes, one store (R201) -/
  treeNodes : Store TreeNode := []
  /-- rules, keyed 65,536 x set + index (R203) -/
  rules : Store Rule := []
  /-- exact-match tables (R219) -/
  em : Store EmTab := []
  /-- Sieve tables (R232) -/
  sieve : Store SieveTab := []
  /-- aged-entry FIFO, oldest first (R230) -/
  aged : List AgedRec := []
  /-- the image fault held, as a reason value (R99,R100) -/
  imageFault : Option Nat := none
  /-- an IMAGE_LOAD is in progress (R100) -/
  loading : Bool := false
  /-- gate reason 0x0050 is latched (R100,R429) -/
  uncorrLatch : Bool := false
  /-- flow counters: packets and bytes (R215) -/
  flowCnt : Store (Nat × Nat) := []
  deriving DecidableEq, Repr

/-- A Cistern buffer in use and its share record (R248, R252, R255, R256, R257). -/
structure Buf where
  /-- buffer number (R248) -/
  num : Nat := 0
  /-- pool (R248) -/
  pool : Nat := 0
  /-- last owner, the owner charged (R252) -/
  owner : Nat := 0
  /-- generation recorded (R257) -/
  gen : Nat := 0
  /-- the last owner's own claim (R255) -/
  loHolder : Option Nat := none
  /-- claims of the other holders (R255) -/
  holders : List Nat := []
  /-- LO_FREED (R256) -/
  loFreed : Bool := false
  /-- port and priority of a received packet that has not left its epoch (R271) -/
  ingress : Option (Nat × Nat) := none
  /-- device time at allocation (R259) -/
  born : Nat := 0
  deriving DecidableEq, Repr

/-- What the silt audit last found of an owner (R259). -/
structure SiltRec where
  /-- buffers outstanding (R259) -/
  outstanding : Nat := 0
  /-- age histogram (R259) -/
  bins : List Nat := []
  deriving DecidableEq, Repr

/-- A watermark slot (R272, R273). -/
structure Wm where
  /-- WM_SRC (R272) -/
  src : Word := 0
  /-- WM_THRESH (R272) -/
  thresh : Word := 0x0A000000
  /-- CROSSED (R272) -/
  crossed : Bool := false
  /-- ABOVE (R272) -/
  above : Bool := false
  /-- crossings since the count was cleared, unsaturated (R272,R275) -/
  count : Nat := 0
  deriving DecidableEq, Repr

/-- The buckets and counters of a policer (R262, R263, R276). -/
structure PolState where
  /-- committed bucket, in 10^-6 bits (R262) -/
  tc : Nat := 0
  /-- peak bucket, in 10^-6 bits (R262) -/
  tp : Nat := 0
  /-- device time of the last fill, in ns (R262) -/
  last : Nat := 0
  deriving DecidableEq, Repr

/-- DRR and shaper state of a group or queue (R267, R268, R276). -/
structure NodeState where
  /-- DEFICIT (R267) -/
  deficit : Nat := 0
  /-- LAST_ROUND (R267) -/
  lastRound : Nat := 0
  /-- active (R267) -/
  active : Bool := false
  /-- the buckets have not been debited since they were full (R268) -/
  full : Bool := true
  /-- committed bucket (R268) -/
  tc : Int := 0
  /-- peak bucket (R268) -/
  tp : Int := 0
  /-- device time of the last fill, in ns (R268) -/
  last : Nat := 0
  /-- ROUND of this node as a parent (R267) -/
  round : Nat := 0
  /-- committed-band child visited last in the pass under way (R267) -/
  cursor : Option Nat := none
  /-- excess-band child visited last in the pass under way (R267) -/
  cursorX : Option Nat := none
  /-- the child visited last is still sending on its visit: 0 none, 1 in the committed band, 2 in the excess band (R267) -/
  visiting : Nat := 0
  /-- packets sent (R276) -/
  sent : Nat := 0
  /-- green drops (R276) -/
  dropG : Nat := 0
  /-- yellow drops (R276) -/
  dropY : Nat := 0
  /-- red drops (R276) -/
  dropR : Nat := 0
  deriving DecidableEq, Repr

/-- Pools, owners, buffers (R248-R259) and the queue manager (R260-R273). -/
structure CisternSt where
  /-- COUNT and RESERVE of each pool, empty before a layout is loaded (R249,R100) -/
  layout : List (Nat × Nat) := []
  /-- least free outside the reserve since the last POOL_STATUS (R275) -/
  least : List Nat := []
  /-- buffers in use (R248) -/
  bufs : List Buf := []
  /-- number of the next buffer (R248) -/
  nextBuf : Nat := 0
  /-- number of the next packet or copy (R255) -/
  nextPkt : Nat := 0
  /-- quota in KiB of owners 1,026-1,058, unlisted: no cap (R252) -/
  quotas : Store Nat := []
  /-- generation of each owner (R257) -/
  gens : Store Nat := []
  /-- orphan reclaim enabled (R259) -/
  reclaim : Bool := false
  /-- RECLAIM_MS (R259,R275) -/
  reclaimMs : Nat := 1
  /-- the audit as last refreshed (R259) -/
  silt : Store SiltRec := []
  /-- watermark slots (R272) -/
  wms : Store Wm := []
  /-- policer buckets, unlisted: full (R262) -/
  pol : Store (Option PolState) := []
  /-- green, yellow and red packets of each policer (R262) -/
  polCnt : Store (Nat × Nat × Nat) := []
  /-- the 17 roots (R264) -/
  roots : Store NodeState := []
  /-- group state (R264) -/
  groups : Store NodeState := []
  /-- network egress queue state (R264) -/
  netQs : Store NodeState := []
  /-- host-transmit queue state (R264) -/
  hostQs : Store NodeState := []
  /-- packets in each network egress queue, head first (R260) -/
  queues : Store (List Packet) := []
  /-- free values drawn so far (R260) -/
  draws : Nat := 0
  /-- packets handed to engines (R209) -/
  engine : List Packet := []
  /-- program, well and ARG of each packet an engine holds (R212) -/
  progs : Store (Nat × Nat × Nat) := []
  /-- packets that wait for a LEARN insertion (R228) -/
  learning : List Packet := []
  /-- packets whose job waits for the next interval (R416) -/
  heldJobs : List Packet := []
  deriving DecidableEq, Repr

/-- A security context (R284, R286). -/
structure CtxRec where
  /-- TYPE (R284) -/
  ty : Nat := 0
  /-- byte 1: EXT_SEQ, TUNNEL, KEY256, INT_ONLY, SCI_TX, REPLAY, CHECK (R284) -/
  flags : Nat := 0
  /-- FUNC (R284) -/
  fn : Nat := 0
  /-- SPI_SSCI (R284) -/
  spi : Nat := 0
  /-- SALT (R284) -/
  salt : Bytes := []
  /-- SCI (R284) -/
  sci : Nat := 0
  /-- WINDOW (R284) -/
  window : Nat := 0
  /-- TX_SEQ (R284) -/
  txSeq : Nat := 0
  /-- RX_TOP (R284) -/
  rxTop : Nat := 0
  /-- SOFT_LIMIT (R284) -/
  soft : Nat := 0
  /-- HARD_LIMIT (R284) -/
  hard : Nat := 0
  /-- PACKETS (R284) -/
  packets : Nat := 0
  /-- L3_SLOT (R284) -/
  l3Slot : Nat := 0
  /-- ESP_SLOT (R284) -/
  espSlot : Nat := 0
  /-- KEY, never read out (R284) -/
  key : Bytes := []
  /-- KEY2, never read out (R284) -/
  key2 : Bytes := []
  /-- BITMAP: bit i is set when RX_TOP - i has been verified (R284) -/
  bitmap : BitVec 512 := 0
  /-- LOAD_GEN (R286) -/
  loadGen : Nat := 0
  /-- CTX_SOFT_EXPIRE has been raised (R289) -/
  softDone : Bool := false
  /-- CTX_HARD_EXPIRE has been raised (R289) -/
  hardDone : Bool := false
  /-- CIPHER_AUTH_FAIL (R291) -/
  authFail : Nat := 0
  /-- CIPHER_REPLAY (R291) -/
  replay : Nat := 0
  /-- CIPHER_EXHAUSTED (R291) -/
  exhausted : Nat := 0
  /-- CIPHER_LAYOUT (R291) -/
  layoutBad : Nat := 0
  /-- CTX_DELETE waiting for accepted messages (R288) -/
  deleting : Option CmdRef := none
  /-- messages completed under the old key since the delete (R296) -/
  doneAfter : Nat := 0
  deriving DecidableEq, Repr

/-- A cipher message: waiting, running or suspended in a unit (R278, R292, R293). -/
structure CipherMsg where
  /-- the packet (R277) -/
  pkt : Packet := {}
  /-- CONTEXT (R206) -/
  ctx : Nat := 0
  /-- DIR (R206) -/
  unprotect : Bool := false
  /-- URGENCY (R206) -/
  urgency : Nat := 0
  /-- it needs a stream-cipher unit (R277) -/
  stream : Bool := false
  /-- unit of its kind (R278) -/
  unit : Nat := 0
  /-- TX_SEQ it took at acceptance (R289) -/
  seqNo : Nat := 0
  /-- the context as accepted, with its key (R288) -/
  ctxRec : CtxRec := {}
  /-- blocks of the message (R277) -/
  blocks : Nat := 0
  /-- how many of them are authenticated data, fed first (R277) -/
  mac : Nat := 0
  /-- 0 waiting, 1 running, 2 suspended (R292) -/
  state : Nat := 0
  /-- order in which it reached the unit (R292) -/
  order : Nat := 0
  /-- when it last started or resumed (R293) -/
  startAt : Nat := 0
  /-- blocks fed before the last start: the saved position (R293) -/
  fed : Nat := 0
  deriving DecidableEq, Repr

/-- The inline cipher engine (R277-R296). -/
structure CipherSt where
  /-- security contexts (R284) -/
  ctxs : Store CtxRec := []
  /-- messages in the units, in order of arrival (R278) -/
  msgs : List CipherMsg := []
  /-- next arrival number (R292) -/
  order : Nat := 0
  /-- BOOT_NONCE (R286) -/
  nonce : Option (BitVec 128) := none
  /-- AES pipelines awake (R296,R408) -/
  aesAwake : BitVec 12 := 0xFFF
  /-- stream-cipher units awake (R296,R408) -/
  strAwake : BitVec 4 := 0xF
  deriving DecidableEq, Repr

/-- An RX buffer the device has fetched (R300, R310). -/
structure RxBuf where
  /-- ring index (R300) -/
  tag : Nat := 0
  /-- ADDR (R300) -/
  addr : Nat := 0
  /-- LEN (R300) -/
  len : Nat := 0
  /-- USER (R300) -/
  user : Nat := 0
  deriving DecidableEq, Repr

/-- A host frame whose descriptors have been fetched (R300, R309, R264). -/
structure TxFrame where
  /-- where it completes (R300) -/
  tx : TxTag := {}
  /-- address and length of each segment (R300) -/
  segs : List (Nat × Nat) := []
  /-- TIMED (R300) -/
  timed : Bool := false
  /-- LAUNCH (R300) -/
  launch : Nat := 0
  /-- the Pumps are reading its data (R318) -/
  reading : Bool := false
  /-- Cistern buffer held for it (R274) -/
  buf : Option Nat := none
  /-- it waits for a buffer (R254) -/
  waits : Bool := false
  deriving DecidableEq, Repr

/-- A command seen on an ADMIN ring and not yet accepted (R36, R313). -/
structure AdminCmd where
  /-- header slot (R313) -/
  tag : Nat := 0
  /-- header and inline payload (R313) -/
  bytes : Bytes := []
  deriving DecidableEq, Repr

/-- A queue pair (R297-R316, R330). -/
structure Qp where
  /-- function (R330) -/
  fn : Nat := 0
  /-- function-local number (R330) -/
  idx : Nat := 0
  /-- 0 TX, 1 RX, 2 ADMIN (R297) -/
  ty : Nat := 0
  /-- KEEP_ERRORED (R330) -/
  keepErr : Bool := false
  /-- LOG2_SQ (R297) -/
  log2Sq : Nat := 4
  /-- LOG2_CQ (R297) -/
  log2Cq : Nat := 4
  /-- SQ_ADDR (R330) -/
  sqAddr : Nat := 0
  /-- CQ_ADDR (R330) -/
  cqAddr : Nat := 0
  /-- VECTOR (R330) -/
  vector : Nat := 0xFFFF
  /-- MOD_US (R330) -/
  modUs : Nat := 0
  /-- MOD_COUNT (R330) -/
  modCount : Nat := 0
  /-- 0 none, 1 running, 2 stopped; 3 while a stop waits for a frame on a wire, which QUEUE_QUERY shows as 1 (R331) -/
  state : Nat := 0
  /-- the command whose stop waits for a frame on a wire (R315,R331) -/
  stopBy : Option CmdRef := none
  /-- that command is QUEUE_DESTROY (R331) -/
  stopGone : Bool := false
  /-- descriptors that stop has completed ABORTED (R331) -/
  stopCnt : Nat := 0
  /-- frames that left a wire during the stop and complete in their TAG's turn: TAG, status, detail, timestamp (R315) -/
  ended : List (Nat × Nat × Nat × Option (Nat × Bool)) := []
  /-- fetch index (R303) -/
  fetch : Nat := 0
  /-- fetch phase (R303) -/
  fetchPhase : Bool := true
  /-- last TAIL (R302,R331) -/
  tail : Nat := 0
  /-- a descriptor fetch is under way (R304) -/
  fetching : Bool := false
  /-- entries the fetch under way reads (R304) -/
  asked : Nat := 0
  /-- entries up to the last doorbell's TAIL that are still to be read for it (R299,R304,R305) -/
  due : Nat := 0
  /-- a doorbell came while a fetch was under way: the ring is read afresh after it (R304) -/
  latched : Bool := false
  /-- submission doorbell value latched in DORMANT (R142) -/
  latchTail : Option Word := none
  /-- completion doorbell value latched in DORMANT (R142) -/
  latchHead : Option Word := none
  /-- completion write index (R306) -/
  cqIdx : Nat := 0
  /-- write phase (R306) -/
  cqPhase : Bool := true
  /-- HEAD (R308) -/
  head : Nat := 0
  /-- completions written beyond HEAD (R308) -/
  used : Nat := 0
  /-- completion slots reserved (R308) -/
  reserved : Nat := 0
  /-- segments of the frame being gathered (R300) -/
  asm : List (Nat × Nat) := []
  /-- its first descriptor (R300) -/
  asmFirst : Option TxFrame := none
  /-- TX frames fetched and not yet read in, in ring order (R264) -/
  frames : List TxFrame := []
  /-- owned RX buffers in ring order (R261,R309) -/
  rxBufs : List RxBuf := []
  /-- packets waiting for buffers (R261) -/
  rxWait : List Packet := []
  /-- outstanding descriptors, oldest first (R314) -/
  outst : List TxTag := []
  /-- admin commands held unread (R36,R313) -/
  admin : List AdminCmd := []
  /-- ARM (R311) -/
  arm : Bool := false
  /-- device time when moderation started (R311) -/
  modAt : Option Nat := none
  /-- completions counted by moderation (R311) -/
  modCnt : Nat := 0
  deriving DecidableEq, Repr

/-- ADM_SQ_BASE, ADM_CQ_BASE, ADM_CTRL of one physical function (R312). -/
structure AdmRegs where
  /-- ADM_SQ_BASE (R312) -/
  sq : BitVec 64 := 0
  /-- ADM_CQ_BASE (R312) -/
  cq : BitVec 64 := 0
  /-- ADM_CTRL (R312) -/
  ctrl : Word := 0
  deriving DecidableEq, Repr

/-- A Pump register channel (R320). -/
structure PumpCh where
  /-- physical function it is assigned to, none: as R320 gives it (R320) -/
  pf : Option Nat := none
  /-- CH_SRC (R320) -/
  src : BitVec 64 := 0
  /-- CH_DST (R320) -/
  dst : BitVec 64 := 0
  /-- CH_COUNT (R320) -/
  count : Word := 0
  /-- CH_SHAPE (R320) -/
  shape : Word := 0
  /-- CH_CTRL, GO and ABORT read 0 when they have acted (R320) -/
  ctrl : Word := 0
  /-- RUNS (R320) -/
  runs : Nat := 0
  /-- LAST_STATUS (R320) -/
  lastStatus : Nat := 0
  /-- STATE (R320) -/
  state : Nat := 0
  /-- sump bytes it holds (R318) -/
  sump : Nat := 0
  /-- destination bytes written (R323) -/
  done : Nat := 0
  /-- read data in the sump that is not yet written: byte offset in the transfer and bytes (R318,R323) -/
  early : List (Nat × Bytes) := []
  /-- Cistern buffer held for its reads (R251,R274) -/
  buf : Option Nat := none
  /-- its last writes carried poison (R430) -/
  bad : Bool := false
  deriving DecidableEq, Repr

/-- A Pump completion queue (R325). -/
structure Pcq where
  /-- physical function (R325) -/
  pf : Nat := 0
  /-- LOG2_SIZE (R325) -/
  log2 : Nat := 0
  /-- VECTOR (R332) -/
  vector : Nat := 0xFFFF
  /-- ADDR (R332) -/
  addr : Nat := 0
  /-- record write index (R325) -/
  widx : Nat := 0
  /-- record phase (R326) -/
  phase : Bool := true
  /-- PCQ_HEAD (R325) -/
  head : Nat := 0
  /-- NOTIFY of each record written beyond HEAD, oldest first (R308,R325) -/
  unread : List Bool := []
  /-- slots reserved by channels (R321) -/
  reserved : Nat := 0
  /-- ARM (R325) -/
  arm : Bool := false
  deriving DecidableEq, Repr

/-- A PUMP_RECOVER on channel 255 (R328, R332). -/
structure Recover where
  /-- its command (R332) -/
  ref : CmdRef := {}
  /-- physical function that issued it (R332) -/
  pf : Nat := 0
  /-- its parameters, laid out as a channel's (R332) -/
  ch : PumpCh := {}
  deriving DecidableEq, Repr

/-- A host read that waits for a tag or for its bytes in the sump (R318, R319). -/
structure WaitRead where
  /-- function whose requester ID it uses (R319) -/
  fn : Nat := 0
  /-- what the read is for (R317) -/
  use : ReadUse := .other
  /-- address (R319) -/
  addr : Nat := 0
  /-- bytes (R318) -/
  len : Nat := 0
  /-- byte offset of its data within its transfer (R323) -/
  off : Nat := 0
  deriving DecidableEq, Repr

/-- Rings, admin registers, Pumps and sump (R297-R332). -/
structure RingSt where
  /-- queue pairs by device number (R297) -/
  qps : Store Qp := []
  /-- admin registers of PF0 and PF1 (R312) -/
  adm : Store AdmRegs := []
  /-- register channels, unlisted: as R320 gives them on leaving DRY (R320) -/
  chans : Store PumpCh := []
  /-- Pump completion queues (R325) -/
  pcqs : Store Pcq := []
  /-- transfers of channel 255, in acceptance order (R328) -/
  recover : List Recover := []
  /-- device-issued reads (R114) -/
  tags : List ReadTag := []
  /-- shared sump bytes in use (R318) -/
  sump : Nat := 0
  /-- reads that wait for a tag or for sump space, oldest first (R317,R318,R319) -/
  readQ : List WaitRead := []
  /-- tag and function of reads recorded TIMED_OUT whose completion has not come (R50,R51) -/
  lateReads : List (Nat × Nat) := []
  deriving DecidableEq, Repr

/-- TIME_CONFIG (R346). -/
structure TimeCfg where
  /-- SOURCE (R346) -/
  source : Nat := 0
  /-- PPS_OUT_EN (R346) -/
  ppsOutEn : Bool := false
  /-- PPS_GATE (R346) -/
  ppsGate : Bool := false
  /-- LOCK_COUNT (R346) -/
  lockCount : Nat := 16
  /-- UNLOCK_COUNT (R346) -/
  unlockCount : Nat := 4
  /-- LOCK_NS (R346) -/
  lockNs : Nat := 30
  /-- UNLOCK_NS (R346) -/
  unlockNs : Nat := 100
  /-- STEP_NS (R346) -/
  stepNs : Nat := 1000
  /-- HOLDOVER_S (R346) -/
  holdoverS : Nat := 30
  /-- PPS_WIDTH_MS (R346) -/
  ppsWidthMs : Nat := 100
  /-- PPS_OUT_OFFSET (R346) -/
  ppsOffset : Int := 0
  /-- SYNC_LOSS_MS (R346) -/
  syncLossMs : Nat := 3000
  deriving DecidableEq, Repr

/-- One PPS_IN edge record (R344, R348). -/
structure PpsEdge where
  /-- timestamp (R344) -/
  t : Nat := 0
  /-- SHORT (R344) -/
  short : Bool := false
  /-- UNLOCKED (R348) -/
  unlocked : Bool := false
  deriving DecidableEq, Repr

/-- One SyncE pin (R345). -/
structure SynceSt where
  /-- ENABLE (R348) -/
  enable : Bool := false
  /-- LANE (R348) -/
  lane : Nat := 0
  /-- DIV (R348) -/
  div : Nat := 0
  /-- the pin is held low (R345) -/
  low : Bool := true
  deriving DecidableEq, Repr

/-- Device time and synchronisation (R333-R348). -/
structure TimeSt where
  /-- device time: NS x 2^16 + FRAC (R333,R334) -/
  t : Nat := 0
  /-- part of the next 2^-16 ns, in 10^-12 (R338) -/
  sub : Nat := 0
  /-- frequency correction in parts per 10^12 (R338) -/
  freqPpt : Int := 0
  /-- time state (R336,R337) -/
  state : TState := .free
  /-- configuration (R346) -/
  cfg : TimeCfg := {}
  /-- STEPS (R336) -/
  steps : Nat := 0
  /-- last measured offset in ns (R348) -/
  lastOffset : Int := 0
  /-- consecutive measurements within LOCK_NS (R337) -/
  good : Nat := 0
  /-- consecutive measurements above UNLOCK_NS (R337) -/
  bad : Nat := 0
  /-- device time of the last measurement (R337) -/
  lastMeas : Nat := 0
  /-- when HOLDOVER was entered (R337) -/
  holdSince : Nat := 0
  /-- device time latched by each physical function's TIME_NOW_LO read (R336) -/
  latch : Store Nat := []
  /-- PPS_OUT is high (R343) -/
  ppsOut : Bool := false
  /-- when it rose (R343) -/
  ppsRose : Nat := 0
  /-- PPS_IN edges (R344) -/
  ppsFifo : List PpsEdge := []
  /-- last PPS_IN edge (R344) -/
  ppsLast : Option Nat := none
  /-- edges lost, as PPS_IN_READ reports them (R344,R348) -/
  ppsLost : Nat := 0
  /-- SyncE pins (R345) -/
  synce : Store SynceSt := []
  /-- coarse time held in the wellhead (R77,R334,R342) -/
  coarse : Nat := 0
  /-- port chosen by the BMCA (R339,R340) -/
  bestPort : Option Nat := none
  deriving DecidableEq, Repr

/-- A carrier record (R350). -/
structure Carrier where
  /-- MU (R350) -/
  mu : Nat := 0
  /-- PRBS (R350) -/
  prbs : Nat := 0
  /-- ENABLE (R350) -/
  enable : Bool := false
  /-- RUN_UNLOCKED (R350) -/
  runUnlocked : Bool := false
  /-- GRID_OFFSET in ns (R350) -/
  gridOffset : Int := 0
  /-- DIR_k, its length is PERIOD_SLOTS (R350) -/
  dirs : List Nat := []
  deriving DecidableEq, Repr

/-- A carrier record accepted and not yet in effect (R351). -/
structure PendCarrier where
  /-- the FH_CARRIER_SET, none for an image (R351) -/
  ref : Option CmdRef := none
  /-- the new record (R351) -/
  record : Carrier := {}
  /-- effective instant, in 2^-16 ns (R351) -/
  effAt : Nat := 0
  deriving DecidableEq, Repr

/-- A fronthaul flow record (R353). -/
structure Flow where
  /-- EAXC (R353) -/
  eaxc : Nat := 0
  /-- PORT (R353) -/
  port : Nat := 0
  /-- CARRIER (R353) -/
  carrier : Nat := 0
  /-- ENABLE (R353) -/
  enable : Bool := false
  /-- DIR (R353) -/
  tx : Bool := false
  /-- PLANE (R353) -/
  cplane : Bool := false
  /-- EARLY_DROP (R353) -/
  earlyDrop : Bool := false
  /-- LATE_DROP (R353) -/
  lateDrop : Bool := false
  /-- DIR_CHECK (R353) -/
  dirCheck : Bool := false
  /-- COMP_HDR (R353) -/
  compHdr : Bool := false
  /-- METH (R353) -/
  meth : Nat := 0
  /-- WIDTH (R353) -/
  width : Nat := 16
  /-- MONITOR (R353) -/
  monitor : Nat := 0xFF
  /-- QUEUE (R353) -/
  queue : Nat := 0
  /-- WIN_A (R353) -/
  winA : Int := 0
  /-- WIN_B (R353) -/
  winB : Int := 0
  deriving DecidableEq, Repr

/-- The counters of one fronthaul flow (R356, R361). -/
structure FlowCnt where
  /-- FH_ON_TIME (R361) -/
  onTime : Nat := 0
  /-- FH_EARLY (R361) -/
  early : Nat := 0
  /-- FH_LATE (R361) -/
  late : Nat := 0
  /-- FH_DIR_MISMATCH (R361) -/
  dirMis : Nat := 0
  /-- FH_LATE_COMBINER (R361) -/
  lateComb : Nat := 0
  /-- FH_NOT_TIMED (R361) -/
  notTimed : Nat := 0
  /-- last offset in ns (R361) -/
  lastOff : Int := 0
  deriving DecidableEq, Repr

/-- The fronthaul unit (R349-R361). -/
structure FhSt where
  /-- carrier records in effect (R350) -/
  carriers : Store Carrier := []
  /-- records waiting for their boundary (R351) -/
  pending : Store PendCarrier := []
  /-- the record that was in effect before a carrier's last change, with the instant of that change (R351,R382) -/
  olds : Store PendCarrier := []
  /-- carriers suspended (R355) -/
  suspended : Store Bool := []
  /-- flow table (R353) -/
  flows : Store Flow := []
  /-- flow counters (R361) -/
  cnt : Store FlowCnt := []
  /-- T_sym of the last window closed of each receive flow, in 2^-16 ns plus 1 (R357) -/
  closed : Store Nat := []
  deriving DecidableEq, Repr

/-- A weight bank (R367). -/
structure WBank where
  /-- WEPOCH (R367) -/
  wepoch : Nat := 0
  /-- which of the set's two places it lies in (R367) -/
  half : Nat := 0
  /-- SHIFT_o (R367) -/
  shifts : List Nat := []
  /-- weights, I and Q (R367) -/
  weights : List (Int × Int) := []
  deriving DecidableEq, Repr

/-- A Combiner set record (R362). -/
structure CombSet where
  /-- DIR (R362) -/
  dir : Nat := 0
  /-- CARRIER (R362) -/
  carrier : Nat := 0
  /-- ENABLE (R362) -/
  enable : Bool := false
  /-- ANTENNAS (R362) -/
  antennas : Nat := 1
  /-- LAYERS (R362) -/
  layers : Nat := 1
  /-- PRB_GROUP (R362) -/
  prbGroup : Nat := 1
  /-- START_PRB (R362) -/
  startPrb : Nat := 0
  /-- NUM_PRB (R362) -/
  numPrb : Nat := 1
  /-- CONTEXTS (R362) -/
  contexts : Nat := 2
  /-- OUT_QUEUE (R362) -/
  outQueue : Nat := 0
  /-- CLOSE_NS (R362) -/
  closeNs : Nat := 0
  /-- DL_LEAD (R362) -/
  dlLead : Nat := 10000
  /-- banks placed in Clay (R370) -/
  inClay : Bool := false
  /-- the active bank (R369) -/
  bank : Option WBank := none
  /-- the inactive bank when it is loaded (R367,R368) -/
  spare : Option WBank := none
  /-- COMB_WEIGHTS whose read runs (R368) -/
  loading : Option CmdRef := none
  /-- its LEN (R383) -/
  loadLen : Nat := 0
  /-- COMB_SWITCH armed (R369) -/
  armed : Option CmdRef := none
  /-- S, in 2^-16 ns (R369) -/
  switchAt : Nat := 0
  /-- the later of AT_TIME and acceptance + 100 us (R369) -/
  armedAt : Nat := 0
  /-- COMB_SET_WRITE with ENABLE 0 that waits for open symbols (R382) -/
  disabling : Option CmdRef := none
  /-- bank of symbols whose slot starts before the last S (R369) -/
  oldBank : Option WBank := none
  /-- device time at which it was enabled (R416) -/
  enabledAt : Nat := 0
  /-- slot boundary from which a set being disabled opens no context (R382) -/
  stopAt : Nat := 0
  /-- the record that a disable writes when its last symbol has ended (R382) -/
  nextRec : Bytes := []
  /-- the last S, in 2^-16 ns (R369) -/
  lastS : Nat := 0
  deriving DecidableEq, Repr

/-- The counters of one Combiner set (R383). -/
structure CombCnt where
  /-- the fourteen counters in the order of COMB_STATUS (R383) -/
  cnt : Store Nat := []
  deriving DecidableEq, Repr

/-- A CFLOW record (R363). -/
structure Cflow where
  /-- ROLE (R363) -/
  role : Nat := 0
  /-- SET (R363) -/
  set : Nat := 0
  /-- INDEX (R363) -/
  index : Nat := 0
  /-- TX_FLOW (R363) -/
  txFlow : Nat := 0
  /-- METH (R363) -/
  meth : Nat := 0
  /-- WIDTH (R363) -/
  width : Nat := 16
  /-- DMAC (R363) -/
  dmac : Bytes := []
  /-- SMAC (R363) -/
  smac : Bytes := []
  /-- VLAN_TCI (R363) -/
  vlanTci : Nat := 0
  /-- VLAN_EN (R363) -/
  vlanEn : Bool := false
  /-- COMP_HDR (R363) -/
  compHdr : Bool := false
  /-- PRB_PER_FRAME (R363) -/
  prbPerFrame : Nat := 1
  /-- ecpriSeqid of its next frame (R377) -/
  seqId : Nat := 0
  deriving DecidableEq, Repr

/-- An open Combiner symbol (R371, R376). Its accumulators are a function of the PRBs taken, since R365 makes the sum independent of their order. -/
structure SymCtx where
  /-- set (R371) -/
  set : Nat := 0
  /-- T_sym, in 2^-16 ns (R372) -/
  tSym : Nat := 0
  /-- start of its slot, in 2^-16 ns (R369) -/
  slotAt : Nat := 0
  /-- frameId (R374) -/
  frame : Nat := 0
  /-- subframeId (R374) -/
  sub : Nat := 0
  /-- slotId (R374) -/
  slot : Nat := 0
  /-- symbol (R374) -/
  sym : Nat := 0
  /-- PRBs taken: input, PRB, twelve samples (R371,R373) -/
  got : List (Nat × Nat × List (Int × Int)) := []
  /-- input frames claimed (R255,R372) -/
  claims : List Packet := []
  /-- closed or combining, its arithmetic finishing (R372) -/
  closed : Bool := false
  /-- close instant, in 2^-16 ns (R375) -/
  closeAt : Nat := 0
  /-- UNLOCKED at close (R374) -/
  unlocked : Bool := false
  /-- MU of the carrier record of its slot (R379,R382) -/
  mu : Nat := 0
  /-- downlink antennas whose frames are out (R377) -/
  doneAnt : List Nat := []
  deriving DecidableEq, Repr

/-- The antenna Combiner (R362-R383). -/
structure CombSt where
  /-- set records (R362) -/
  sets : Store CombSet := []
  /-- counters of each set (R383) -/
  cnts : Store CombCnt := []
  /-- CFLOW table (R363) -/
  cflows : Store Cflow := []
  /-- open and closing symbols (R371,R376) -/
  syms : List SymCtx := []
  /-- symbols closed or combined that a frame could still name: set and T_sym in 2^-16 ns (R364,R376) -/
  ended : List (Nat × Nat) := []
  /-- lane groups awake (R383,R408) -/
  awake : BitVec 16 := 0xFFFF
  deriving DecidableEq, Repr

/-- AQ_CONFIG (R404). -/
structure AqConfig where
  /-- GATEWAY_ROLE (R404) -/
  gatewayRole : Bool := false
  /-- BUDGET_US (R404) -/
  budgetUs : Nat := 20
  /-- SKEW_MAX_NS (R404) -/
  skewMaxNs : Nat := 1000
  /-- GUARD_US (R404) -/
  guardUs : Nat := 8
  /-- REST_TICKS (R404) -/
  restTicks : Nat := 0
  /-- REST_IDLE_US (R404) -/
  restIdleUs : Nat := 1000
  deriving DecidableEq, Repr

/-- An Unris frame in the retry buffer (R388, R389). -/
structure TxFrameU where
  /-- SEQ (R384) -/
  seq : Nat := 0
  /-- TYPE (R384) -/
  ty : Nat := 0
  /-- payload (R384) -/
  payload : Bytes := []
  deriving DecidableEq, Repr

/-- One stitch port's Unris link (R384-R391, R401-R403). -/
structure StitchSt where
  /-- SEQ of the next frame sent (R384) -/
  txSeq : Nat := 0
  /-- SEQ expected next (R389) -/
  rxSeq : Nat := 0
  /-- a frame has been received: ACK_VALID (R384) -/
  rxAny : Bool := false
  /-- a watermark crossing has called for an up-step not yet proposed (R176) -/
  upDue : Bool := false
  /-- frames not yet acknowledged, oldest first (R389) -/
  retry : List TxFrameU := []
  /-- consecutive replays without progress (R389) -/
  replays : Nat := 0
  /-- credits held for virtual channel 0 (R388) -/
  cred0 : Nat := 1024
  /-- credits held for virtual channel 1 (R388) -/
  cred1 : Nat := 1024
  /-- frames that wait for credits (R388) -/
  waiting : List TxFrameU := []
  /-- credits to return on virtual channel 0 (R388) -/
  owe0 : Nat := 0
  /-- credits to return on virtual channel 1 (R388) -/
  owe1 : Nat := 0
  /-- the link is at rest (R402) -/
  resting : Bool := false
  /-- a REST has been sent and not acknowledged (R402) -/
  restPend : Bool := false
  /-- current rest period in ticks (R403) -/
  restPeriod : Nat := 0
  /-- consecutive clean wakes (R403) -/
  cleanWakes : Nat := 0
  /-- when this end began its scheduled wake (R402,R403) -/
  listenAt : Option Nat := none
  /-- last PKT, CMD or RSP (R402) -/
  lastTraffic : Nat := 0
  /-- width this end has proposed (R391) -/
  proposal : Option Nat := none
  /-- width agreed, WIDTH_SWITCH not yet sent or heard (R391) -/
  stepTo : Option Nat := none
  /-- floor and ceiling that wait for a step to end (R177) -/
  lateCfg : Option (Nat × Nat) := none
  /-- partner's HELLO (R390) -/
  hello : Bytes := []
  /-- HELLO this end sent (R390,R392) -/
  ownHello : Bytes := []
  /-- partner's chain as gathered (R390) -/
  certs : Bytes := []
  /-- own chain and PROOF have been sent (R390) -/
  proofSent : Bool := false
  /-- partner's PROOF verified (R392) -/
  proofOk : Bool := false
  /-- the link is lost (R401) -/
  lost : Bool := false
  /-- one-way latencies measured, in ns (R396) -/
  pings : List Int := []
  deriving DecidableEq, Repr

/-- What this device knows of a member of its aquifer (R393-R398, R405). -/
structure Member where
  /-- the index is in use (R393) -/
  present : Bool := false
  /-- serial (R393) -/
  serial : Nat := 0
  /-- the member is an aquifer (R393) -/
  aquifer : Bool := false
  /-- gateway role bit (R393) -/
  role : Bool := false
  /-- CAP_UNITS (R58) -/
  caps : Word := 0
  /-- mode as last reported (R17) -/
  mode : Nat := 1
  /-- worst path latency of a member that is an aquifer (R396) -/
  inner : Nat := 0
  /-- path latency (R396) -/
  latency : Nat := 0
  /-- measured time offset (R398) -/
  offset : Int := 0
  /-- when it was last measured (R398) -/
  measured : Nat := 0
  /-- skewed (R398) -/
  skewed : Bool := false
  /-- next-hop stitch port, none when there is no route (R397) -/
  route : Option Nat := none
  /-- in DORMANT (R405) -/
  dormant : Bool := false
  deriving DecidableEq, Repr

/-- A timed group change at the gateway (R399). -/
structure Change where
  /-- change ID (R390) -/
  num : Nat := 0
  /-- the group command (R399) -/
  ref : CmdRef := {}
  /-- MODE_SET, else COMMIT (R399) -/
  isMode : Bool := false
  /-- TARGET or NEW_EPOCH (R399) -/
  arg : Nat := 0
  /-- DRAIN_MAX of a COMMIT (R399) -/
  drainUs : Nat := 0
  /-- AT_TIME (R399) -/
  atNs : Nat := 0
  /-- confirmation deadline (R399) -/
  deadline : Nat := 0
  /-- members that have not confirmed (R399) -/
  waiting : List Nat := []
  deriving DecidableEq, Repr

/-- A group change armed at a member (R399). -/
structure ArmedChange where
  /-- change ID (R399) -/
  num : Nat := 0
  /-- MODE_SET, else COMMIT (R399) -/
  isMode : Bool := false
  /-- TARGET or NEW_EPOCH (R399) -/
  arg : Nat := 0
  /-- DRAIN_MAX (R399) -/
  drainUs : Nat := 0
  /-- AT_TIME (R399) -/
  atNs : Nat := 0
  deriving DecidableEq, Repr

/-- A command carried to every member (R395, R400). -/
structure GroupOp where
  /-- entry number (R395) -/
  num : Nat := 0
  /-- the command (R395) -/
  ref : CmdRef := {}
  /-- members whose reply has not come (R395) -/
  waiting : List Nat := []
  /-- members that failed and their replies (R395) -/
  failed : List (Nat × Answer) := []
  /-- highest RESULT1 among the members (R245) -/
  best : Nat := 0
  /-- RESULT0 of this device's own answer (R242) -/
  r0 : Nat := 0
  /-- level of the aquifer addressed: 0 the one this device is a member of (R395) -/
  level : Nat := 0
  /-- index at that level of the member this device belongs to (R395) -/
  ownBit : Nat := 0
  /-- output bytes of this device's own answer (R387,R395) -/
  out : Bytes := []
  /-- OUT_ADDR (R387,R395) -/
  outAddr : Nat := 0
  /-- the gateway resets itself after the reply; the straps it will sample (R400) -/
  resetSelf : Option Straps := none
  deriving DecidableEq, Repr

/-- An aquifer that the device's aquifer is a member of (R393). -/
structure Upper where
  /-- group ID (R394) -/
  group : Nat := 0
  /-- member index (R393) -/
  index : Nat := 0
  /-- member index of its gateway (R393) -/
  gateway : Nat := 0
  /-- stratum (R393) -/
  stratum : Nat := 4
  deriving DecidableEq, Repr

/-- A join in progress (R392). -/
structure JoinSt where
  /-- the AQ_JOIN, none at the partner (R392) -/
  ref : Option CmdRef := none
  /-- stitch port (R392) -/
  port : Nat := 0
  /-- LEVEL (R393) -/
  level : Nat := 0
  /-- when it began (R392) -/
  since : Nat := 0
  deriving DecidableEq, Repr

/-- The aquifer (R384-R405). -/
structure AqSt where
  /-- configuration (R404) -/
  cfg : AqConfig := {}
  /-- BUDGET_US of the gateway, as its ADMIT told it (R390,R396,R404) -/
  budgetUs : Nat := 20
  /-- Unris link of each stitch port (R384) -/
  stitch : Store StitchSt := []
  /-- group ID of the aquifer it is in (R394) -/
  group : Option Nat := none
  /-- member index (R58,R393) -/
  index : Nat := 0xFFFE
  /-- member index of the gateway (R393) -/
  gateway : Nat := 0
  /-- stratum of the aquifer (R393) -/
  stratum : Nat := 3
  /-- members, keyed 64 x level + index: level 0 is this aquifer, higher levels are those in uppers (R393) -/
  members : Store Member := []
  /-- the aquifers above this one, the lowest first (R393) -/
  uppers : List Upper := []
  /-- join in progress (R392) -/
  join : Option JoinSt := none
  /-- timed group change this gateway runs (R399) -/
  change : Option Change := none
  /-- group change armed here (R399) -/
  armed : Option ArmedChange := none
  /-- commands carried to every member (R395) -/
  ops : List GroupOp := []
  /-- next change ID and group command number (R390) -/
  nextNum : Nat := 0
  /-- SEQ of the next command that leaves by each stitch port (R54) -/
  fwdSeqs : Store Word := []
  /-- times the group certificate has been issued (R394) -/
  certGen : Nat := 0
  deriving DecidableEq, Repr

/-- The cost table (R419). -/
structure CostTab where
  /-- MAC_FJ (R419) -/
  macFj : Nat := 1500
  /-- AES_PJ (R419) -/
  aesPj : Nat := 20
  /-- STREAM_PJ (R419) -/
  streamPj : Nat := 5
  /-- CAL (R419) -/
  cal : Nat := 100
  /-- AUTO_CAL (R419) -/
  autoCal : Bool := true
  /-- UP_UTIL (R419) -/
  upUtil : Nat := 85
  /-- DOWN_UTIL (R419) -/
  downUtil : Nat := 50
  /-- DOWN_HOLD (R419) -/
  downHold : Nat := 4
  /-- ENGINE_IDLE_NS (R419) -/
  engineIdleNs : Nat := 100
  /-- WELL_CG_US (R419) -/
  wellCgUs : Nat := 2
  /-- WELL_PG_US (R419) -/
  wellPgUs : Nat := 200
  /-- CIPH_IDLE_US (R419) -/
  ciphIdleUs : Nat := 50
  /-- DOWN_PCT (R419) -/
  downPct : Nat := 30
  /-- UP_PCT (R419) -/
  upPct : Nat := 70
  /-- DOWN_MS (R419) -/
  downMs : Nat := 10
  /-- UP_US (R419) -/
  upUs : Nat := 10
  /-- PKT_NJ and CLASS of each program (R419) -/
  progs : Store (Nat × Nat) := []
  deriving DecidableEq, Repr

/-- POWER_POLICY (R424). -/
structure PolicySt where
  /-- BUDGET_MW (R424) -/
  budgetMw : Nat := 150000
  /-- CAP_MW (R424) -/
  capMw : Nat := 150000
  /-- RESERVE_PCT (R424) -/
  reservePct : Nat := 25
  /-- LEAD_US (R424) -/
  leadUs : Nat := 20
  /-- WELL_FLOOR (R424) -/
  wellFloor : BitVec 12 := 0
  /-- AES_FLOOR (R424) -/
  aesFloor : Nat := 0
  /-- COMB_FLOOR (R424) -/
  combFloor : Nat := 0
  /-- FLOOR_d (R424) -/
  floors : Store Nat := []
  /-- CEIL_d (R424) -/
  ceils : Store Nat := []
  deriving DecidableEq, Repr

/-- POWER_PLAN_SET of a carrier (R420, R425). -/
structure Plan where
  /-- UL_AES (R425) -/
  ulAes : Nat := 0
  /-- DL_AES (R425) -/
  dlAes : Nat := 0
  /-- UL_WELLS (R425) -/
  ulWells : BitVec 16 := 0
  /-- DL_WELLS (R425) -/
  dlWells : BitVec 16 := 0
  deriving DecidableEq, Repr

/-- The Pumphouse (R408-R425). -/
structure PowerSt where
  /-- current point of each domain (R410) -/
  points : Store Nat := []
  /-- point a change under way leads to, plus 1; 0 for none (R411) -/
  pointTo : Store Nat := []
  /-- voltage last requested of the VDD_CORE regulator (R469) -/
  coreMv : Nat := 750
  /-- cost table in effect (R419) -/
  cost : CostTab := {}
  /-- cost table for the next interval (R419,R425) -/
  costNext : Option CostTab := none
  /-- policy as requested (R424) -/
  policy : PolicySt := {}
  /-- policy for the next interval (R425) -/
  policyNext : Option PolicySt := none
  /-- wake plan of each carrier (R420) -/
  plans : Store Plan := []
  /-- plans for the next interval (R425) -/
  plansNext : Store (Option Plan) := []
  /-- engines clock-gated (R408) -/
  engGated : BitVec 96 := 0
  /-- wells clock-gated (R408) -/
  wellCg : BitVec 12 := 0
  /-- wells power-gated (R408) -/
  wellPg : BitVec 12 := 0
  /-- management cores clock-gated (R408) -/
  mgmtCg : BitVec 4 := 0
  /-- Clay channels in power-down (R408) -/
  clayPd : BitVec 16 := 0
  /-- the time and fronthaul unit is clock-gated (R34,R355,R408) -/
  timeCg : Bool := true
  /-- units waking: kind, index and device time at which the wake started (R409) -/
  waking : List (Nat × Nat × Nat) := []
  /-- readings in 1/16 degree C (R413) -/
  sensors : List Int := []
  /-- rail powers in mW, in R414 order (R414) -/
  rails : List Nat := []
  /-- the last four package samples, newest first (R421) -/
  pkgs : List Nat := []
  /-- measured energy of the previous interval in uJ (R416,R425) -/
  lastUj : Nat := 0
  /-- measured energy of this interval in nJ (R418) -/
  accUj : Nat := 0
  /-- reserved spend of the interval, in fJ (R416) -/
  r : Nat := 0
  /-- bulk spend of the interval, in fJ (R416) -/
  n : Nat := 0
  /-- POWER_OVERRUN raised in this interval (R416) -/
  overrun : Bool := false
  /-- intervals since leaving DRY (R425) -/
  intervals : Nat := 0
  /-- consecutive intervals below DOWN_UTIL of each domain (R412) -/
  downRuns : Store Nat := []
  /-- intervals left in which no step down may follow a step up (R412) -/
  sinceUp : Store Nat := []
  /-- clamp applies (R421) -/
  clamp : Bool := false
  /-- shed applies (R421) -/
  shed : Bool := false
  /-- power cap applies (R421) -/
  cap : Bool := false
  /-- since when the hottest reading is below 100 degrees (R421) -/
  clampBelow : Option Nat := none
  /-- since when it is below 110 degrees (R421) -/
  shedBelow : Option Nat := none
  /-- since when the mean is below 95 percent of CAP_MW (R421) -/
  capBelow : Option Nat := none
  /-- last clip: field offset, requested, applied (R423,R425) -/
  clip : Option (Nat × Nat × Nat) := none
  deriving DecidableEq, Repr

/-- Event sources (R439-R443). -/
structure EvtSt where
  /-- EVT_STATUS (R441) -/
  status : Store Bool := []
  /-- EVT_ENABLE, source 0 held inverted is not needed: State.reset lists it (R441) -/
  enable : Store Bool := []
  /-- EVT_ROUTE of each source (R441) -/
  route : Store Word := []
  /-- EVT_DETAIL of each source (R440,R441) -/
  detail : Store Word := []
  /-- EVT_ROUTE_SEL of each physical function (R441) -/
  sel : Store Nat := []
  /-- MBOX_PEND_n, keyed 16 x PF + n (R443) -/
  mboxPend : Store Word := []
  deriving DecidableEq, Repr

/-- The fault record and memory protection (R426-R437). -/
structure FaultSt where
  /-- CAUSE (R437) -/
  cause : Nat := 0
  /-- MEMORY (R437) -/
  memory : Nat := 0
  /-- COUNT (R437) -/
  count : Nat := 0
  /-- UNCORR (R437) -/
  uncorr : Bool := false
  /-- LATCHED (R437) -/
  latched : Bool := false
  /-- FAULT_ADDR, FAULT_TIME and MEMORY are filled (R437) -/
  recorded : Bool := false
  /-- FAULT_ADDR (R437) -/
  addr : Nat := 0
  /-- FAULT_TIME (R437) -/
  time : Nat := 0
  /-- poisoned 64-bit words of each memory ID (R427) -/
  poison : Store (List Nat) := []
  deriving DecidableEq, Repr

/-- A histogram monitor (R449-R451). -/
structure Monitor where
  /-- KIND (R449) -/
  kind : Nat := 0
  /-- SHIFT (R451) -/
  shift : Nat := 0
  /-- INDEX (R449) -/
  index : Nat := 0
  /-- ALARM_NS (R450) -/
  alarm : Nat := 0
  /-- MIN (R450) -/
  min : Int := 0x7FFFFFFFFFFFFFFF
  /-- MAX (R450) -/
  max : Int := -0x8000000000000000
  /-- COUNT (R450) -/
  count : Nat := 0
  /-- SUM (R450) -/
  sum : Int := 0
  /-- BIN_k (R450) -/
  bins : Store Nat := []
  deriving DecidableEq, Repr

/-- A mode transition in progress (R22, R107, R108). -/
structure Transit where
  /-- the MODE_SET that started it (R22) -/
  ref : Option CmdRef := none
  /-- TARGET (R20) -/
  target : Mode := .priming
  /-- the validation gate is being evaluated (R102) -/
  gate : Bool := false
  /-- ENTRY_CAUSE the transition will leave (R21) -/
  cause : Nat := 1
  /-- a wake event came before DORMANT was reached: the command that saw it ends the entry (R31) -/
  abandon : Bool := false
  deriving DecidableEq, Repr

/-- A MODE_SET with an AT_TIME to come (R57, R17). -/
structure ArmedMode where
  /-- its command (R57) -/
  ref : Option CmdRef := none
  /-- TARGET (R57) -/
  target : Mode := .priming
  /-- AT_TIME (R57) -/
  atNs : Nat := 0
  /-- ENTRY_CAUSE it will leave (R21) -/
  cause : Nat := 1
  /-- a wake event has overtaken an armed change to DORMANT (R31) -/
  abandon : Bool := false
  deriving DecidableEq, Repr

/-- The whole device: every piece of state the spec gives it, and the queue of waiting commands. -/
structure State where
  /-- commands that wait, first in first out -/
  pending : List Instr := []
  /-- what the device has put out at its pins, newest first (R43) -/
  out : List Out := []
  /-- fuses and flash (R77) -/
  fuses : Fuses := {}
  /-- boot sequence (R79) -/
  boot : BootSt := {}
  /-- MODE (R19,R20) -/
  mode : Mode := .priming
  /-- ENTRY_CAUSE (R20,R21) -/
  entryCause : Nat := 0
  /-- transition in progress (R20) -/
  transit : Option Transit := none
  /-- timed MODE_SET (R57) -/
  armedMode : Option ArmedMode := none
  /-- mode DORMANT was entered from (R22) -/
  dormantFrom : Mode := .priming
  /-- CHAN_LOCK (R73,R458) -/
  served : Bool := false
  /-- ENTROPY_READY (R93) -/
  entropyReady : Bool := false
  /-- the source has failed (R95) -/
  entropyFailed : Bool := false
  /-- DRBG requests since the last reseed (R93) -/
  drbgCount : Nat := 0
  /-- BLOCKED (R101) -/
  blocked : Bool := false
  /-- BLOCK_REASON (R58,R101) -/
  blockReason : Nat := 0
  /-- SPDM responder (R91) -/
  spdm : SpdmSt := {}
  /-- wellhead (R406) -/
  wh : Wellhead := {}
  /-- command channels, keyed by Chan.code (R35) -/
  chans : Store ChanSt := []
  /-- forwarding entries (R54) -/
  fwd : List FwdEntry := []
  /-- channel table (R69,R71) -/
  chanTab : Store ChanEntry := []
  /-- CMD_ACCEPTED of each unit (R58) -/
  accepted : Store Nat := []
  /-- CMD_FAILED of each unit (R58) -/
  cmdFailed : Store Nat := []
  /-- mailbox blocks (R62,R456) -/
  boxes : Store Mbox := []
  /-- arbiter pointers of class 1 and class 2, keyed by arbiter (R438) -/
  arbiters : Store (Nat × Nat) := []
  /-- PCIe links (R111) -/
  links : Store LinkSt := []
  /-- configuration space of each function (R113) -/
  fns : Store FnCfg := []
  /-- MSI-X entries, keyed 4,096 x function + entry (R125) -/
  msix : Store Msix := []
  /-- peer registers of PF0 and PF1 (R145) -/
  peers : Store PeerRegs := []
  /-- translation cache, most recently used first (R129) -/
  atc : List AtcEntry := []
  /-- Translation Requests in flight (R130) -/
  atsReqs : List AtsReq := []
  /-- Invalidate Requests pending (R131) -/
  invReqs : List InvReq := []
  /-- requests of functions whose Bus Master Enable is 0, newest first (R136) -/
  heldOut : List (Nat × WKind × Out) := []
  /-- Clay bytes reached through the peer window, unlisted bytes 0 (R144,R322) -/
  clay : Store Byte := []
  /-- functions (R147,R149) -/
  funcs : Store Func := []
  /-- line ports (R167) -/
  ports : Store PortSt := []
  /-- test generators (R182) -/
  gens : Store TestGen := []
  /-- module management buses (R178) -/
  modBus : Store ModBus := []
  /-- tables and epochs (R240) -/
  tables : TableSt := {}
  /-- Cistern and traffic management (R248) -/
  cis : CisternSt := {}
  /-- inline cipher engine (R277) -/
  cipher : CipherSt := {}
  /-- rings and Pumps (R297) -/
  rings : RingSt := {}
  /-- device time (R333) -/
  time : TimeSt := {}
  /-- fronthaul unit (R349) -/
  fh : FhSt := {}
  /-- antenna Combiner (R362) -/
  comb : CombSt := {}
  /-- aquifer (R384) -/
  aq : AqSt := {}
  /-- Pumphouse (R408) -/
  power : PowerSt := {}
  /-- events (R439) -/
  evt : EvtSt := {}
  /-- faults (R437) -/
  fault : FaultSt := {}
  /-- numbered counters (R444,R445) -/
  counters : Store (BitVec 64) := []
  /-- histogram monitors (R449) -/
  monitors : Store Monitor := []
  deriving DecidableEq, Repr

/-- Function records of PF0 and PF1 at the start (R149). -/
def State.resetFuncs : Store Func :=
  [(0, { created := true, qpCount := 64, vecCount := 64, qpBase := 0, vecBase := 0 }),
   (1, { created := true, qpCount := 64, vecCount := 64, qpBase := 64, vecBase := 64 })]

/-- Channel table entries 4 and 5, made with functions 0 and 1 (R71). Requester IDs are those the configuration
space starts with. -/
def State.resetChanTab : Store ChanEntry :=
  [(4, { masterA := 0, masterB := 0, valid := true, commands := true, priv := true, box := 4 }),
   (5, { masterA := 1, masterB := 1, valid := true, commands := true, priv := true, box := 6 })]

/-- The device right after reset: the values on leaving DRY after a power-on (R9, R20, R75, R480). -/
def State.reset : State :=
  { funcs := State.resetFuncs
    chanTab := State.resetChanTab
    evt := { status := [(898, true)], enable := [(0, true)], route := [(0, 0x40000000)] } }

end Sys2Proof.Machine
end

