-- ==== Sys2Proof/Machine/Ops.lean ====
section
/-! DEFINITION. Named operations over the state: what is present, functions and links, counters, host accesses,
buffers of the outside world. -/

namespace Sys2Proof.Machine

open Sys2Proof

/-! ## What is present (R1 to R8) -/

/-- CAP_UNITS of a part (00_scope.md, Variants). -/
def capOf : Variant → Nat
  | .lys9632F => 0x1F
  | .lys9632N => 0x1E
  | .lys9632C => 0x1D
  | .lys9624S => 0x02

/-- CAP_UNITS (R2). -/
def capUnits (s : State) : Nat := capOf s.fuses.variant

/-- The antenna Combiner is present. -/
def hasCombiner (s : State) : Bool := bit (capUnits s) 0
/-- The cipher units are present. -/
def hasCipher (s : State) : Bool := bit (capUnits s) 1
/-- Stitch port mode and the Unris link are present. -/
def hasStitch (s : State) : Bool := bit (capUnits s) 2
/-- Wells 8 to 11 are present. -/
def hasWellsHi (s : State) : Bool := bit (capUnits s) 3
/-- Line lanes 8 to 15 are present. -/
def hasLanesHi (s : State) : Bool := bit (capUnits s) 4
/-- Wells present: 12, or 8. -/
def wellCount (s : State) : Nat := if hasWellsHi s then 12 else 8
/-- Line lanes present: 16, or 8. -/
def laneCount (s : State) : Nat := if hasLanesHi s then 16 else 8

/-- The canonical form of Clay, the addressed memory (R322): offsets strictly rising, and no byte listed that reads as an unlisted one. -/
abbrev Memory.wf (m : Store Byte) : Prop := Store.wf 0 m = true

/-! ## Status codes (R44) -/

/-- Status codes (R44). -/
def stOk : Nat := 0x00
def stBusy : Nat := 0x01
def stRetry : Nat := 0x02
def stDuplicate : Nat := 0x03
def stBadOpcode : Nat := 0x10
def stBadLength : Nat := 0x11
def stBadCheck : Nat := 0x12
def stBadPath : Nat := 0x13
def stNoUnit : Nat := 0x14
def stDenied : Nat := 0x15
def stNoResource : Nat := 0x20
def stQuota : Nat := 0x21
def stState : Nat := 0x22
def stTimeout : Nat := 0x30
def stAborted : Nat := 0x31
def stLinkLost : Nat := 0x32
def stNotReady : Nat := 0x33
def stInternal : Nat := 0x3F

/-! ## Modes and time -/

/-- Mode codes (R19). -/
def Mode.code : Mode → Nat
  | .dry => 0
  | .priming => 1
  | .proving => 2
  | .flowing => 3
  | .dormant => 4
  | .shutIn => 5

/-- The mode a code names. -/
def modeOf : Nat → Option Mode
  | 0 => some .dry
  | 1 => some .priming
  | 2 => some .proving
  | 3 => some .flowing
  | 4 => some .dormant
  | 5 => some .shutIn
  | _ => none

/-- PROVING or FLOWING. -/
def inService (s : State) : Bool := s.mode == .proving || s.mode == .flowing

/-- Device time in ns (R333). -/
def nowNs (s : State) : Nat := s.time.t / 65536

/-- UNLOCKED (R337). -/
def unlocked (s : State) : Bool := s.time.state == .free || s.time.state == .acquiring

/-- Move device time on to an instant that lies ahead, in 2^-16 ns; time never runs back (DESIGN CHOICE, unsafe: log 17). -/
def advanceTo (t : Nat) (s : State) : State :=
  if s.time.t < t then { s with time := { s.time with t := t } } else s

/-- Move device time on to an instant in ns. -/
def advanceNs (ns : Nat) (s : State) : State := advanceTo (ns * 65536) s

/-! ## Free values (DESIGN CHOICE, safe: log 10) -/

/-- Take the next free value: the value and the state that has counted it. -/
def drawFree (s : State) : Nat × State :=
  (Config.freeValue s.cis.draws, { s with cis := { s.cis with draws := s.cis.draws + 1 } })

/-- A request to the DRBG (R93): its number among the free values, and the count that leads to a reseed. -/
def drbgRequest (s : State) : Nat × State :=
  (s.cis.draws, { s with drbgCount := (s.drbgCount + 1) % 2 ^ 20, cis := { s.cis with draws := s.cis.draws + 1 } })

/-- Take the next drop draw of the queue manager (R260). -/
def drawDrop (s : State) : Nat × State :=
  ((Config.draw s.cis.draws).toNat, { s with cis := { s.cis with draws := s.cis.draws + 1 } })

/-! ## The outside -/

/-- Put something out. -/
def emit (o : Out) (s : State) : State := { s with out := o :: s.out }

/-- Functions (R147): function 0 and 1 are physical. -/
def isVf (f : Nat) : Bool := decide (2 ≤ f)

/-- The physical function a function belongs to (R147). -/
def pfOf (f : Nat) : Nat := if f < 2 then f else if f - 2 < 512 then 0 else 1

/-- SR-IOV VF number of a virtual function (R147). -/
def vfNumber (f : Nat) : Nat := f - 2 - 512 * pfOf f + 1

/-- The link of a function (R111). -/
def linkOf (s : State) (f : Nat) : Nat := if s.boot.straps.hostBif then pfOf f else 0

/-- The links of the arrangement (R111). -/
def linkList (s : State) : List Nat := if s.boot.straps.hostBif then [0, 1] else [0]

/-- The requester ID of a function, link number in bit 16 (R69). Bits 15:0 are the function number (DESIGN CHOICE, unsafe: log 28), since the host assigns bus numbers. -/
def ridOf (s : State) (f : Nat) : Nat := linkOf s f * 65536 + f

/-- The function of a requester ID. -/
def fnOfRid (rid : Nat) : Nat := rid % 65536

/-- A function's record. -/
def funcOf (s : State) (f : Nat) : Func := Store.get {} f s.funcs

/-- Change a function's record. -/
def updFunc (f : Nat) (g : Func → Func) (s : State) : State := { s with funcs := Store.upd {} f g s.funcs }

/-- A function's configuration space. -/
def cfgOf (s : State) (f : Nat) : FnCfg := Store.get {} f s.fns

/-- Change a function's configuration space. -/
def updCfg (f : Nat) (g : FnCfg → FnCfg) (s : State) : State := { s with fns := Store.upd {} f g s.fns }

/-- A link. -/
def linkAt (s : State) (l : Nat) : LinkSt := Store.get {} l s.links

/-- Change a link. -/
def updLink (l : Nat) (g : LinkSt → LinkSt) (s : State) : State := { s with links := Store.upd {} l g s.links }

/-- A virtual function is enumerated: VF Enable and NumVFs of its physical function cover it (R148). -/
def enumerated (s : State) (f : Nat) : Bool :=
  let p := cfgOf s (pfOf f)
  p.vfEnable && decide (vfNumber f ≤ p.numVfs)

/-- A function is live (R148). -/
def live (s : State) (f : Nat) : Bool :=
  decide (f < 1026) && (!isVf f || ((funcOf s f).created && enumerated s f))

/-- The function's link is frozen (R138). -/
def frozen (s : State) (f : Nat) : Bool := (linkAt s (linkOf s f)).frozen

/-- The mode lets a function reach the host (R19, R128). -/
def modeTalks (s : State) : Bool := s.mode != .dry && s.mode != .dormant && s.mode != .shutIn

/-- A function can issue requests at all: mode, link and FLR allow it (R128, R133, R138). -/
def fnUp (s : State) (f : Nat) : Bool := live s f && modeTalks s && !frozen s f && !(cfgOf s f).flr

/-- A function can issue requests now (R136). -/
def canIssue (s : State) (f : Nat) : Bool := fnUp s f && (cfgOf s f).bme

/-- Data rings and Pump channels are served (R26, R108, R299, R321): in PROVING and FLOWING, until a change to PRIMING or to DORMANT has been
accepted. -/
def serving (s : State) : Bool := inService s && !(s.transit.any fun x => x.target == .dormant || x.target == .priming)

/-! ## Counters (R444, R445) -/

/-- Add to a numbered counter, modulo 2^64; counters run in every mode but DRY. -/
def countBy (n k : Nat) (s : State) : State :=
  if s.mode = .dry then s else { s with counters := Store.upd 0 n (fun v => v + BitVec.ofNat 64 k) s.counters }

/-- Count one occurrence. -/
def count (n : Nat) (s : State) : State := countBy n 1 s

/-- Read a numbered counter. -/
def counterOf (s : State) (n : Nat) : BitVec 64 := Store.get 0 n s.counters

/-- Number of counter `i` of line port `p`. -/
def cPort (p i : Nat) : Nat := 32 * p + i
/-- Number of device counter `i`. -/
def cDev (i : Nat) : Nat := 0x200 + i
/-- Number of counter `i` of exact-match table `t`. -/
def cEm (t i : Nat) : Nat := 0x280 + 3 * t + i
/-- Number of counter `i` of memory `m`. -/
def cMem (m i : Nat) : Nat := 0x340 + 4 * (m - 1) + i
/-- Number of POISON_DROP of an owner. -/
def cOwnerPoison (o : Nat) : Nat := if o < 1026 then 0x4000 + 32 * o + 17 else 0x380 + (o - 1026)
/-- Number of counter `i` of quad `q`. -/
def cQuad (q i : Nat) : Nat := 0x3C0 + 4 * q + i
/-- Number of FH_SUSPENDED of carrier `c`. -/
def cCarrier (c : Nat) : Nat := 0x3E0 + c
/-- Number of counter `i` of function `f`. -/
def cFn (f i : Nat) : Nat := 0x4000 + 32 * f + i

/-- HOST_BAD_ACCESS. -/
def badAccess (s : State) : State := count (cDev 3) s

/-! ## Host accesses (R114, R129, R130, R136, R138) -/

/-- A cached translation that covers an address of a function and permits the access (R129, R130). -/
def atcFind (s : State) (f addr : Nat) (write : Bool) : Option AtcEntry :=
  s.atc.find? fun e => e.fn == f && decide (e.base ≤ addr) && decide (addr < e.base + e.size) && (if write then e.wr else e.rd)

/-- An entry that has been used goes to the front: the cache replaces the least recently used (R129). -/
def atcTouch (e : AtcEntry) (s : State) : State := { s with atc := e :: s.atc.filter (fun x => !decide (x = e)) }

/-- The function and address of a host access, and whether it writes. -/
def Out.access : Out → Option (Nat × Nat × Bool)
  | .hostWrite f a _ _ _ => some (f, a, true)
  | .hostRead f _ a _ => some (f, a, false)
  | _ => none

/-- A host access with its address replaced. -/
def Out.moveTo (a : Nat) : Out → Out
  | .hostWrite f _ d ro bad => .hostWrite f a d ro bad
  | .hostRead f t _ n => .hostRead f t a n
  | o => o

/-- Issue one host access of a function through address translation (R130). A frozen link discards it, a function
whose Bus Master Enable is 0 holds it (R136). A cached translation that
does not permit the access is a miss. -/
def issue (k : WKind) (o : Out) (s : State) : State :=
  match o.access with
  | none => emit o s
  | some (f, a, w) =>
    if !fnUp s f then s
    else if !(cfgOf s f).bme then { s with heldOut := (f, k, o) :: s.heldOut }
    else if !(cfgOf s f).ats then emit o s
    else if s.atsReqs.any (fun r => r.fn == f) then
      -- an earlier access of the function is held: this one keeps its place behind it
      { s with atsReqs := mapWhere (fun r => r.fn == f) (fun r => { r with holds := r.holds ++ [(k, o)] }) s.atsReqs }
    else match atcFind s f a w with
      | some e => emit (o.moveTo (e.target + (a - e.base))) (atcTouch e s)
      | none =>
        emit (.atsRequest f a w) { s with atsReqs := s.atsReqs ++
          [{ num := s.atsReqs.foldl (fun m r => max m (r.num + 1)) 0, fn := f, addr := a, write := w, holds := [(k, o)] }] }

/-- Cut a run of `len` bytes at `addr` into requests of at most `big` bytes that cross no 4 KiB boundary (R319);
`fuel` bounds the number of requests. -/
def chunks (big : Nat) : Nat → Nat → Nat → List (Nat × Nat)
  | 0, _, _ => []
  | fuel + 1, addr, len =>
    if len = 0 then []
    else
      let n := max 1 (min len (min big (4096 - addr % 4096)))
      (addr, n) :: chunks big fuel (addr + n) (len - n)

/-- A posted write to host memory, in requests of at most Max_Payload_Size (R319), with the Relaxed Ordering attribute or without; a request
some of whose bytes `bad` picks, by offset and length in the write, has EP set (R430). `k` says what the write is for. -/
def postWrite (k : WKind) (relaxed : Bool) (bad : Nat → Nat → Bool) (f addr : Nat) (d : Bytes) (s : State) : State :=
  (chunks (cfgOf s f).mps (d.length + 1) addr d.length).foldl
    (fun t p => issue k (.hostWrite f p.1 (slice d (p.1 - addr) p.2) relaxed (bad (p.1 - addr) p.2)) t) s

/-- A posted payload write: it carries Relaxed Ordering while the function's Enable Relaxed Ordering is 1 (R115). -/
def hostWriteP (k : WKind) (bad : Nat → Nat → Bool) (f addr : Nat) (d : Bytes) (s : State) : State := postWrite k (cfgOf s f).relaxed bad f addr d s

/-- A posted write of a completion, a record or a reply, which never carries Relaxed Ordering (R115). -/
def hostWrite (k : WKind) (f addr : Nat) (d : Bytes) (s : State) : State := postWrite k false (fun _ _ => false) f addr d s

/-! ## Device-issued reads: tags, the sump and the read classes (R114, R131, R143, R317 to R319) -/

/-- A free read tag (R114): reads of a link never use the tags reserved for the other. -/
def freeTag (s : State) (f : Nat) : Option Nat :=
  let l := linkOf s f
  let mine := (s.rings.tags.filter fun t => linkOf s t.fn == l).length
  let others := s.rings.tags.length - mine
  let room := if s.boot.straps.hostBif then decide (mine < 512 ∨ (mine - 512) + (others - 512) < 3072) else decide (mine < 4096)
  let used (i : Nat) : Bool := s.rings.tags.any fun t => t.num == i
  -- a number whose late completion may still come is taken only when there is no other
  if room then ((List.range 4096).find? fun i => !used i && !(s.rings.lateReads.any fun t => t.1 == i)).orElse fun _ =>
    (List.range 4096).find? fun i => !used i
  else none

/-- Some of `n` bytes at an address lie in a peer range of the function's physical function (R143, R146). -/
def inPeerRange (s : State) (f addr n : Nat) : Bool :=
  let p := Store.get {} (pfOf f) s.peers
  [0, 1, 2, 3].any fun i =>
    let lim := (Store.get 0 i p.limit).toNat
    let bas := (Store.get 0 i p.base).toNat
    bit lim 0 && decide (bas / 4096 ≤ lim / 4096) && decide (bas / 4096 ≤ (addr + n - 1) / 4096) && decide (addr / 4096 ≤ lim / 4096)

/-- The shared sump, in bytes: 8,192 KiB less 256 KiB for the staging of class 1 writes and 64 KiB for channel 255 (R318). -/
def sumpShared : Nat := (8192 - 256 - 64) * 1024

/-- A read whose bytes lie in the shared sump on its own account: a register channel holds its space for its reads, and channel 255
has its own (R318). -/
def ReadUse.shared : ReadUse → Bool
  | .pump _ => false
  | _ => true

/-- Shared sump bytes in use (R318, R332): what the channels hold, and the bytes of every other read under way. -/
def sumpUsed (s : State) : Nat := s.rings.sump + ((s.rings.tags.filter fun t => t.use.shared).map (·.bytes)).sum

/-- A read's bytes can be held in the sump now (R318). -/
def sumpFits (s : State) (w : WaitRead) : Bool := !w.use.shared || decide (sumpUsed s + w.len ≤ sumpShared)

/-- The read engine's class of a read (R317). An ADMIN ring's queue pair is told by its type; what firmware and commands read is in
class 1 with channel 255. -/
def engineClass (s : State) : ReadUse → Nat
  | .fetch q => if (Store.get ({} : Qp) q s.rings.qps).ty = 2 then 1 else 2
  | .txData _ _ => 3
  | .pump n => if n = 255 then 1 else 3
  | .weights _ => 1
  | .other => 1

/-- A waiting read can be issued: it has a tag and its place in the sump (R318, R319). -/
def readReady (s : State) (w : WaitRead) : Bool := (freeTag s w.fn).isSome && sumpFits s w

/-- The read to issue next (R317): the oldest of the highest class among those that can be issued. -/
def nextRead (s : State) : Option WaitRead :=
  let ready := s.rings.readQ.filter (readReady s)
  (ready.find? fun w => engineClass s w.use == 1).orElse fun _ =>
    (ready.find? fun w => engineClass s w.use == 2).orElse fun _ => ready.head?

/-- Issue a waiting read under its tag (R114, R116, R319). -/
def issueRead (w : WaitRead) (s : State) : State :=
  match freeTag s w.fn with
  | none => s
  | some t =>
    issue .read (.hostRead w.fn t w.addr w.len)
      { s with rings := { s.rings with
          readQ := s.rings.readQ.erase w
          tags := s.rings.tags ++ [{ num := t, fn := w.fn, use := w.use, bytes := w.len, born := nowNs s, off := w.off, addr := w.addr }] } }

/-- Issue the reads that can be issued, `fuel` at most. -/
def serveReadsN : Nat → State → State
  | 0, s => s
  | fuel + 1, s =>
    match nextRead s with
    | none => s
    | some w => serveReadsN fuel (issueRead w s)

/-- Issue the waiting reads that can be issued now (R317, R319). -/
def serveReads (s : State) : State := serveReadsN s.rings.readQ.length s

/-- Ask for one read: it is issued when a tag and its place in the sump are there, and waits until then (R318, R319). A function that
cannot reach the host issues none (R133, R138), and none goes out to a peer range (R143). -/
def readRequest (f : Nat) (use : ReadUse) (addr len off : Nat) (s : State) : State :=
  if !fnUp s f || inPeerRange s f addr len then s
  else serveReads { s with rings := { s.rings with readQ := s.rings.readQ ++ [{ fn := f, use := use, addr := addr, len := len, off := off }] } }

/-- Ask for a device read from byte `off` of its transfer, in requests of at most Max_Read_Request_Size (R319). -/
def hostReadAt (f : Nat) (use : ReadUse) (addr len off : Nat) (s : State) : State :=
  (chunks (cfgOf s f).mrrs (len + 1) addr len).foldl (fun t p => readRequest f use p.1 p.2 (off + (p.1 - addr)) t) s

/-- Ask for a device read. -/
def hostRead (f : Nat) (use : ReadUse) (addr len : Nat) (s : State) : State := hostReadAt f use addr len 0 s

/-- Tags that `mine` picks have had their last completion (R319): they are free, Invalidate Requests wait for them no longer (R131), and
reads that waited go out. -/
def freeTags (mine : ReadTag → Bool) (s : State) : State :=
  let gone := (s.rings.tags.filter mine).map (·.num)
  serveReads { s with
    rings := { s.rings with tags := s.rings.tags.filter fun t => !mine t }
    invReqs := s.invReqs.map fun (r : InvReq) => { r with waits := r.waits.filter fun n => !gone.contains n } }

/-- Reads that `mine` picks are recorded TIMED_OUT: their completions will be discarded (R50, R51). -/
def timeOutReads (mine : ReadTag → Bool) (s : State) : State :=
  freeTags mine { s with rings := { s.rings with lateReads := s.rings.lateReads ++ (s.rings.tags.filter mine).map fun t => (t.num, t.fn) } }

/-- The issuer of some reads no longer wants them: those that wait are withdrawn, and those under way keep their tags and their sump bytes until
their last completion, whose data is discarded (R319). -/
def dropReads (mine : ReadUse → Bool) (s : State) : State :=
  { s with rings := { s.rings with
      readQ := s.rings.readQ.filter fun w => !mine w.use
      tags := mapWhere (fun t => mine t.use) (fun t => { t with use := .other }) s.rings.tags } }

/-- A read is over for its issuer. -/
def endReads (use : ReadUse) (s : State) : State := dropReads (fun u => decide (u = use)) s

/-- Every read of a queue pair is over for it: its descriptors and its frames. -/
def endQpReads (n : Nat) (s : State) : State :=
  dropReads (fun
    | .fetch q => q == n
    | .txData q _ => q == n
    | _ => false) s

/-- Every read of a use has had its last completion, or never went out. -/
def finishReads (use : ReadUse) (s : State) : State :=
  freeTags (fun t => decide (t.use = use)) { s with rings := { s.rings with readQ := s.rings.readQ.filter fun w => !decide (w.use = use) } }

/-- Some functions can send nothing more (R133, R138): their reads that wait are withdrawn, and those under way are recorded TIMED_OUT. -/
def cutReads (mine : Nat → Bool) (s : State) : State :=
  timeOutReads (fun t => mine t.fn) { s with rings := { s.rings with readQ := s.rings.readQ.filter fun w => !mine w.fn } }

/-- A port's record. -/
def portAt (s : State) (p : Nat) : PortSt := Store.get {} p s.ports

/-- Change a port's record. -/
def updPort (p : Nat) (g : PortSt → PortSt) (s : State) : State := { s with ports := Store.upd {} p g s.ports }

/-- A stitch link's record. -/
def stitchAt (s : State) (p : Nat) : StitchSt := Store.get {} p s.aq.stitch

/-- Change a stitch link's record. -/
def updStitch (p : Nat) (g : StitchSt → StitchSt) (s : State) : State :=
  { s with aq := { s.aq with stitch := Store.upd {} p g s.aq.stitch } }

/-- The quad of a line port. -/
def quadOf (p : Nat) : Nat := p / 4

/-- The hottest temperature sensor, in 1/16 degree C (R413). -/
def hottest (s : State) : Int := s.power.sensors.foldl max (s.power.sensors.headD 0)

/-- The running image's BODY_HASH and SEC_VERSION, of which the alias key is made (R88). -/
def imageId (s : State) : BitVec 384 × Nat := ((s.boot.image.map (·.bodyHash)).getD 0, (s.boot.image.map (·.secVersion)).getD 0)

end Sys2Proof.Machine
end

