-- ==== Sys2Proof/Machine/Nodes.lean ====
section
/-! DEFINITION. The nodes of the egress scheduler (R264 to R267): what a bank's records attach them to, and nodes that hold no packet any
longer. -/

namespace Sys2Proof.Machine

open Sys2Proof

/-! ## Banks (R240, R241) -/

/-- The bank that a packet of an epoch reads. -/
def bankFor (s : State) (epoch : Nat) : Bank := if epoch = s.tables.epoch then s.tables.active else s.tables.inactive

/-- The record a group holds on leaving DRY (R266). -/
def groupDfl (g : Nat) : SchedNode := { parent := if g ≤ 16 then g else 0xFF }
/-- The record a network egress queue holds on leaving DRY. -/
def netDfl (q : Nat) : SchedNode := if q < 128 then { parent := q / 8, prio := q % 8 } else {}
/-- The record a host-transmit queue holds on leaving DRY. -/
def hostDfl (_ : Nat) : SchedNode := { parent := 16 }

/-- A group's record. -/
def groupRec (b : Bank) (g : Nat) : SchedNode := Store.get (groupDfl g) g b.groups
/-- A network egress queue's record. -/
def netRec (b : Bank) (q : Nat) : SchedNode := Store.get (netDfl q) q b.netQs
/-- A host-transmit queue's record. -/
def hostRec (b : Bank) (q : Nat) : SchedNode := Store.get (hostDfl q) q b.hostQs

/-- The root a group's record names, none when it is detached (R264, R266). -/
def rootOfGroup (b : Bank) (g : Nat) : Option Nat :=
  if g < 256 ∧ (groupRec b g).parent < 17 then some (groupRec b g).parent else none

/-- The root a queue's record leads to, none when it or its group is detached. PARENT 0xFF detaches a queue, so that no queue sits in group 255,
though R266 gives a queue record the groups 0 to 255 (DESIGN CHOICE, unsafe: log 36). -/
def rootOfQueue (b : Bank) (r : SchedNode) : Option Nat := if r.parent = 0xFF then none else rootOfGroup b r.parent

/-- The port a network egress queue drains to, none when it or its group is detached (R260). -/
def portOfQueue (b : Bank) (q : Nat) : Option Nat :=
  (rootOfQueue b (netRec b q)).bind fun r => if r < 16 then some r else none

/-! ## Active nodes (R267) -/

/-- A node whose queue has emptied becomes inactive (R267). -/
def deactivate (round : Nat) (node : SchedNode) (n : NodeState) : NodeState :=
  { n with deficit := min n.deficit node.burst, lastRound := round, active := false }

/-- The packets of a network egress queue. -/
def queueAt (s : State) (q : Nat) : List Packet := Store.get [] q s.cis.queues

/-- A host-transmit queue holds a frame that is still to be read. -/
def ringHolds (s : State) (q : Nat) : Bool := (Store.get ({} : Qp) q s.rings.qps).frames.any fun f => !f.reading

/-- ROUND of a group. -/
def roundOf (s : State) (g : Nat) : Nat := (Store.get ({} : NodeState) g s.cis.groups).round

/-- Some queue of a group holds a packet. -/
def groupHolds (s : State) (g : Nat) : Bool :=
  let b := s.tables.active
  if rootOfGroup b g = some 16 then s.rings.qps.any fun x => (hostRec b x.1).parent == g && ringHolds s x.1
  else s.cis.queues.any fun x => !x.2.isEmpty && (netRec b x.1).parent == g && !(netRec b x.1).timed

/-- Queues and groups that have lost their last packet otherwise than by sending it become inactive (R267). -/
def restNodes (s : State) : State :=
  let b := s.tables.active
  let rest (gone : Nat → Bool) (round : Nat → Nat) (node : Nat → SchedNode) (st : Store NodeState) : Store NodeState :=
    (st.filter fun x => x.2.active && gone x.1).foldl (fun a x => Store.set {} x.1 (deactivate (round x.1) (node x.1) x.2) a) st
  let rootRound (g : Nat) : Nat := (Store.get ({} : NodeState) ((rootOfGroup b g).getD 0) s.cis.roots).round
  { s with cis := { s.cis with
    netQs := rest (fun q => (queueAt s q).isEmpty) (fun q => roundOf s (netRec b q).parent) (netRec b) s.cis.netQs
    hostQs := rest (fun q => !ringHolds s q) (fun q => roundOf s (hostRec b q).parent) (hostRec b) s.cis.hostQs
    groups := rest (fun g => !groupHolds s g) rootRound (groupRec b) s.cis.groups } }

end Sys2Proof.Machine
end

