-- ==== Sys2Proof/Machine/Flags.lean ====
section
/-! DEFINITION. Status and flag computations: event sources and their delivery (R439 to R443), MSI-X and INTx
(R124 to R128), wake events (R406, R407), histogram monitors (R449, R450), poison (R427, R430), and watermarks (R272, R273). -/

namespace Sys2Proof.Machine

open Sys2Proof

/-! ## MSI-X and INTx -/

/-- VEC_BACKED of a function (R125, R148): a function that is not live has none. -/
def vecBacked (s : State) (f : Nat) : Nat := if live s f then (funcOf s f).vecCount else 0

/-- An MSI-X entry of a function. -/
def msixAt (s : State) (f e : Nat) : Msix := Store.get {} (4096 * f + e) s.msix

/-- Change an MSI-X entry. -/
def updMsix (f e : Nat) (g : Msix → Msix) (s : State) : State := { s with msix := Store.upd {} (4096 * f + e) g s.msix }

/-- A message of the entry can go out now (R124, R126, R128). -/
def msixReady (s : State) (f e : Nat) : Bool :=
  let c := cfgOf s f
  canIssue s f && c.msixEn && !c.fnMask && !(msixAt s f e).mask

/-- Send the message of an entry, or leave it pending (R126, R128). An entry that is not backed sends nothing (R125). -/
def sendMsix (f e : Nat) (s : State) : State :=
  if vecBacked s f ≤ e then s
  else if msixReady s f e then emit (.msix f e (msixAt s f e).shAddr (msixAt s f e).shData) s
  else updMsix f e (fun m => { m with pend := true }) s

/-- Send the pending message of an entry that can go out (R126, R128). -/
def flushMsix (f e : Nat) (s : State) : State :=
  if (msixAt s f e).pend && msixReady s f e && decide (e < vecBacked s f) then
    emit (.msix f e (msixAt s f e).shAddr (msixAt s f e).shData) (updMsix f e (fun m => { m with pend := false }) s)
  else s

/-- Send every pending message of a function that can go out (R128). -/
def flushFn (f : Nat) (s : State) : State :=
  (s.msix.filter fun p => p.1 / 4096 == f && p.2.pend).foldl (fun t p => flushMsix f (p.1 % 4096) t) s

/-- The interrupt mode of a physical function, as HOST_INT_STATUS codes it (R124, R145). -/
def intMode (s : State) (f : Nat) : Nat :=
  let c := cfgOf s f
  if c.msixEn then 1 else if c.intxDis then 0 else 2

/-- Status of an event source. -/
def evtStatus (s : State) (src : Nat) : Bool := Store.get false src s.evt.status
/-- Enable of an event source. -/
def evtEnable (s : State) (src : Nat) : Bool := Store.get false src s.evt.enable
/-- EVT_ROUTE of an event source. -/
def evtRoute (s : State) (src : Nat) : Word := Store.get 0 src s.evt.route
/-- EVT_DETAIL of an event source. -/
def evtDetail (s : State) (src : Nat) : Word := Store.get 0 src s.evt.detail

/-- VEC_EN of a route (R441). -/
def routeVec (r : Word) : Bool := r.getLsbD 29
/-- WAKE of a route. -/
def routeWake (r : Word) : Bool := r.getLsbD 31
/-- PF of a route. -/
def routePf (r : Word) : Nat := b2n (r.getLsbD 11)
/-- VECTOR of a route. -/
def routeVector (r : Word) : Nat := r.toNat % 2048

/-- The INTx condition of a physical function: a source routed to it with VEC_EN has status and enable 1 (R442). -/
def intxCond (s : State) (pf : Nat) : Bool :=
  s.evt.status.any fun p => p.2 && evtEnable s p.1 && routeVec (evtRoute s p.1) && routePf (evtRoute s p.1) == pf

/-- Interrupt Pin of a physical function (R127): 1 is INTA, and 2 INTB, which PF1 uses while both share one link. -/
def intxPin (s : State) (pf : Nat) : Nat := if pf = 1 ∧ !s.boot.straps.hostBif then 2 else 1

/-- The device can withdraw an INTx line: its link carries messages (R128, R138, R142). -/
def canWithdraw (s : State) (pf : Nat) : Bool := modeTalks s && !frozen s pf

/-- Bring the INTx line of a physical function up to date (R127, R128). -/
def updIntx (pf : Nat) (s : State) : State :=
  let want := intMode s pf == 2 && intxCond s pf
  let now := (cfgOf s pf).intxOn
  if want && !now && canIssue s pf then emit (.intx pf (intxPin s pf) true) (updCfg pf (fun c => { c with intxOn := true }) s)
  else if !want && now && canWithdraw s pf then emit (.intx pf (intxPin s pf) false) (updCfg pf (fun c => { c with intxOn := false }) s)
  else s

/-- Bring both INTx lines up to date. -/
def intxAll (s : State) : State := updIntx 1 (updIntx 0 s)

/-! ## Wake events (R31, R109, R110, R407) -/

/-- A wake source is enabled: bits 1 and 7 always are (R406). -/
def wakeEnabled (s : State) (k : Nat) : Bool := k == 1 || k == 7 || s.wh.wakeEn.getLsbD k

/-- A timed change to DORMANT that waits is marked as abandoned. -/
def markArmed (s : State) : State :=
  match s.armedMode with
  | some a => if a.target = Mode.dormant then { s with armedMode := some { a with abandon := true } } else s
  | none => s

/-- A change to DORMANT under way is marked as abandoned. -/
def markTransit (s : State) : State :=
  match s.transit with
  | some x => if x.target = Mode.dormant then { s with transit := some { x with abandon := true } } else s
  | none => s

/-- A wake event of source `k`, in WH_WAKE_EN order. In DORMANT it is latched, and the first enabled one starts the
wake. An enabled one on the way to DORMANT, or while a timed change to it waits, marks the entry as abandoned (R31); `Machine.settle` ends it. -/
def latchWake (k : Nat) (s : State) : State :=
  if s.mode = .dormant then
    let s := { s with wh := { s.wh with latched := s.wh.latched ||| (1#8 <<< k) } }
    if wakeEnabled s k && !s.wh.waking then { s with wh := { s.wh with waking := true, first := k } } else s
  else if wakeEnabled s k then markTransit (markArmed s) else s

/-! ## Event sources -/

/-- An event source is assigned and its unit is present (R6, R439). -/
def evtAssigned (s : State) (src : Nat) : Bool :=
  let port (p : Nat) := decide (p < laneCount s)
  if src < 64 then decide (src ≤ 2)
  else if src < 128 then decide (src ≤ 69)
  else if src < 192 then decide (src ≤ 129)
  else if src < 256 then decide (src < 212)
  else if src < 320 then decide (src = 256)
  else if src < 384 then decide (src ≤ 323)
  else if src < 400 then port (src - 384)
  else if src < 416 then port (src - 400)
  else if src < 448 then false
  else if src < 452 then port (4 * (src - 448))
  else if src < 456 then port (4 * (src - 452))
  else if src < 512 then false
  else if src < 576 then decide (src = 512)
  else if src < 640 then true
  else if src < 704 then decide (src ≤ 641)
  else if src < 768 then true
  else if src < 832 then decide (src = 768)
  else if src < 896 then hasCipher s && decide (src ≤ 833)
  else if src < 960 then decide (src ≤ 901)
  else if src < 1024 then true
  else if src < 1088 then hasCombiner s
  else if src < 1152 then hasStitch s && (decide (src ≤ 1092) || (decide (1104 ≤ src) && decide (src < 1120) && port (src - 1104)))
  else if src < 1216 then decide (src ≤ 1157)
  else if src < 1472 then true
  else decide (src = 1472)

/-- Deliver a source whose status and enable have both become 1 (R442). -/
def deliverEvt (src : Nat) (s : State) : State :=
  let r := evtRoute s src
  let s :=
    if routeVec r then
      if vecBacked s (routePf r) ≤ routeVector r then count (cDev 40) s
      else if intMode s (routePf r) == 2 then s
      else sendMsix (routePf r) (routeVector r) s
    else s
  intxAll s

/-- Raise an event with its detail (R440, R442). A status that is already 1 keeps its detail. -/
def raise (src detail : Nat) (s : State) : State :=
  if !evtAssigned s src then s
  else
    let wake (t : State) : State := if routeWake (evtRoute t src) then latchWake 6 t else t
    if evtStatus s src then wake s
    else
      let s := { s with evt := { s.evt with
        status := Store.set false src true s.evt.status
        detail := Store.set 0 src (BitVec.ofNat 32 detail) s.evt.detail } }
      wake (if evtEnable s src then deliverEvt src s else s)

/-- Clear the status of a source (R441); a message already sent stays sent. -/
def clearEvt (src : Nat) (s : State) : State :=
  intxAll { s with evt := { s.evt with status := Store.set false src false s.evt.status } }

/-- Set or clear the enable of a source: an enable that rises while the status is 1 delivers it (R442). Enables of
reserved sources and of absent units ignore the write (R6, R439). -/
def setEnable (src : Nat) (on : Bool) (s : State) : State :=
  if !evtAssigned s src then s
  else
    let rise := on && !evtEnable s src && evtStatus s src
    let s := { s with evt := { s.evt with enable := Store.set false src on s.evt.enable } }
    if rise then deliverEvt src s else intxAll s

/-- EVT_SUMMARY (R441). -/
def evtSummary (s : State) : Nat :=
  ((List.range 24).filter fun f => s.evt.status.any fun p => p.1 / 64 == f && p.2 && evtEnable s p.1).foldl (fun a f => a + 2 ^ f) 0

/-- How many sources have status 1 (R58). -/
def evtPending (s : State) : Nat := (s.evt.status.filter fun p => p.2).length

/-- A mailbox event for a virtual function's box, on the manager's side: MBOX_PEND and source 194 + p (R443). -/
def raiseVfBox (f : Nat) (s : State) : State :=
  let p := pfOf f
  let i := f - 2 - 512 * p
  let k := 16 * p + i / 32
  let w := Store.get 0 k s.evt.mboxPend
  if w.getLsbD (i % 32) then s
  else raise (194 + p) 0 { s with evt := { s.evt with mboxPend := Store.set 0 k (w ||| (1#32 <<< (i % 32))) s.evt.mboxPend } }

/-! ## Monitors -/

/-- The bin of a sample (R450). -/
def monBin (v : Int) (shift : Nat) : Nat :=
  let u := v / (2 ^ shift : Nat)
  if u ≤ 0 then 0 else min 31 (Nat.log2 u.toNat + 1)

/-- Take a sample into one monitor's record (R450). -/
def monTake (v : Int) (m : Monitor) : Monitor :=
  let k := monBin v m.shift
  { m with
    min := min m.min v
    max := max m.max v
    count := (m.count + 1) % 2 ^ 64
    sum := signed 64 (unsigned 64 (m.sum + v))
    bins := Store.set 0 k (min 0xFFFFFFFF (Store.get 0 k m.bins + 1)) m.bins }

/-- The unit a monitor's source belongs to is present (R6, R450). -/
def monPresent (s : State) (m : Monitor) : Bool :=
  if m.kind = 6 then
    if m.index = 3 then hasCombiner s else if m.index = 4 then hasCipher s else true
  else true

/-- Feed monitor `n` one sample and raise its alarm (R450). -/
def feedMon (n : Nat) (v : Int) (s : State) : State :=
  let m := Store.get {} n s.monitors
  if !monPresent s m then s
  else
    let s := { s with monitors := Store.set {} n (monTake v m) s.monitors }
    if decide (v > m.alarm) && m.alarm != 0 then raise (1216 + n) (min v 0xFFFFFFFF).toNat s else s

/-- Feed every monitor attached to a source (R449). INDEX 0xFFFF takes every channel of KIND 4. -/
def sample (kind index : Nat) (v : Int) (s : State) : State :=
  (s.monitors.filter fun p => p.2.kind == kind && (p.2.index == index || (kind == 4 && p.2.index == 0xFFFF))).foldl
    (fun t p => feedMon p.1 v t) s

/-! ## Poison (R427, R430) -/

/-- Some 64-bit words of a memory's address range are poisoned. -/
def poisonedIn (s : State) (mem lo n : Nat) : Bool :=
  (Store.get [] mem s.fault.poison).any fun w => decide (lo ≤ 8 * w + 7) && decide (8 * w < lo + n)

/-- Whole 64-bit words of a memory's address range are written: their poison clears (R428). -/
def clearPoison (mem lo n : Nat) (s : State) : State :=
  if (Store.get [] mem s.fault.poison).isEmpty then s
  else { s with fault := { s.fault with poison := Store.upd [] mem (List.filter fun w => !(decide (lo ≤ 8 * w) && decide (8 * w + 8 ≤ lo + n))) s.fault.poison } }

/-- A consumer met poison: ECC_UNCORRECTABLE for the word that was read, and POISON_CONSUMED, counted, with the memory ID (R427, R430, R445). -/
def poisonConsumed (mem : Nat) (s : State) : State := raise 323 mem (raise 322 mem (count (cDev 39) s))

/-- A command reads a poisoned table word: its DETAIL (R430). -/
def poisonDetail (mem : Nat) : Nat := Nat.lor 0x100 mem

/-- Mark a word poisoned, or clear the mark. -/
def markPoison (mem word : Nat) (on : Bool) (s : State) : State :=
  let f (l : List Nat) : List Nat := if on then (if l.contains word then l else word :: l) else l.filter (fun x => x != word)
  { s with fault := { s.fault with poison := Store.upd [] mem f s.fault.poison } }

/-! ## Watermarks (R272, R273) -/

/-- Buffer bytes of each pool (R248). -/
def poolSizes : List Nat := [256, 512, 1024, 2048, 4096, 9728, 16384, 65536]

/-- Buffer bytes of pool `i`. -/
def poolSize (i : Nat) : Nat := poolSizes.getD i 0

/-- Buffers of a pool in use. -/
def poolUsed (s : State) (i : Nat) : Nat := (s.cis.bufs.filter fun b => b.pool == i).length

/-- The charge of an owner in bytes (R252). -/
def chargeOf (s : State) (o : Nat) : Nat := (s.cis.bufs.filter fun b => b.owner == o).foldl (fun a b => a + poolSize b.pool) 0

/-- The live level of a watermark source, before saturation (R272, R416). -/
def wmLevel (s : State) (kind idx : Nat) : Nat :=
  if kind = 1 then poolUsed s idx
  else if kind = 2 then chargeOf s idx / 1024
  else if kind = 3 then ((Store.get [] idx s.cis.queues).foldl (fun a p => a + p.bytes.length) 0) / 1024
  else if kind = 4 then ((Store.get {} idx s.rings.qps).frames.map (fun f => f.segs.length)).sum
  else if kind = 5 then
    ((s.cis.bufs.filter fun b => b.ingress == some (idx / 8, idx % 8)).foldl (fun a b => a + poolSize b.pool) 0) / 1024
  else if kind = 6 then sumpUsed s / 1024
  else if kind = 7 then
    (if idx = 0 then s.power.r / 1000000000 else if idx = 1 then s.power.n / 1000000000
     else if idx = 2 then (s.power.r + s.power.n) / 1000000000 else if idx = 3 then s.power.lastUj else 0)
  else 0

/-- KIND of a WM_SRC value. -/
def wmKind (w : Wm) : Nat := w.src.toNat / 2 ^ 28
/-- INDEX of a WM_SRC value. -/
def wmIndex (w : Wm) : Nat := w.src.toNat % 65536
/-- THRESHOLD of a WM_THRESH value. -/
def wmThreshold (w : Wm) : Nat := w.thresh.toNat % 2 ^ 24
/-- HYST_PCT of a WM_THRESH value. -/
def wmHyst (w : Wm) : Nat := w.thresh.toNat / 2 ^ 24

/-- WM_LEVEL of a slot: the live level, saturating. -/
def wmLive (s : State) (w : Wm) : Nat := min 0xFFFFFF (wmLevel s (wmKind w) (wmIndex w))

/-- A crossing of a slot with UPSHIFT, on the depth of a queue that drains to a stitch port, calls for that port's up-step (R176, R272). -/
def wmUpshift (w : Wm) (s : State) : State :=
  match (if w.src.getLsbD 27 && wmKind w == 3 then portOfQueue s.tables.active (wmIndex w) else none) with
  | some p => if (portAt s p).cfg.mode = 2 then updStitch p (fun u => { u with upDue := true }) s else s
  | none => s

/-- One slot of the watermarks looks at its level (R273): it crosses when armed, or re-arms. -/
def wmSlot (n : Nat) (s : State) : State :=
  let w := Store.get {} n s.cis.wms
  if wmKind w = 0 ∨ 7 < wmKind w then s
  else
    let l := wmLive s w
    if !w.above && decide (wmThreshold w ≤ l) then
      raise (704 + n) 0 (wmUpshift w { s with cis := { s.cis with
        wms := Store.set {} n { w with crossed := true, above := true, count := (w.count + 1) % 2 ^ 32 } s.cis.wms } })
    else if w.above && decide (l * 100 < wmThreshold w * (100 - wmHyst w)) then
      { s with cis := { s.cis with wms := Store.set {} n { w with above := false } s.cis.wms } }
    else s

/-- Every watermark slot looks at its level. -/
def wmCheck (s : State) : State := (s.cis.wms.map (·.1)).foldl (fun t n => wmSlot n t) s

end Sys2Proof.Machine
end

