-- ==== Sys2Proof/Machine/Pools.lean ====
section
/-! DEFINITION. Cistern pools, owners and quotas, and shared buffers (R248 to R257, R430). -/

namespace Sys2Proof.Machine

open Sys2Proof

/-! ## Pools and owners -/

/-- Owner of frames a line port receives (R251). -/
def ownPort (p : Nat) : Nat := 1026 + p
/-- Owner of a well. -/
def ownWell (w : Nat) : Nat := 1042 + w
/-- Owner of the Pump register channels. -/
def ownPump : Nat := 1054
/-- Owner of the cipher. -/
def ownCipher : Nat := 1055
/-- Owner of the Combiner. -/
def ownComb : Nat := 1056
/-- Owner of the fronthaul unit. -/
def ownFh : Nat := 1057
/-- Owner of firmware, commands and Pump channel 255. -/
def ownFw : Nat := 1058

/-- Buffers of a pool that are free. -/
def poolFree (s : State) (i : Nat) : Nat := ((s.cis.layout.getD i (0, 0)).1) - poolUsed s i

/-- Reserve of a pool (R249). -/
def poolReserve (s : State) (i : Nat) : Nat := (s.cis.layout.getD i (0, 0)).2

/-- Free buffers of a pool outside its reserve. -/
def poolOutside (s : State) (i : Nat) : Nat := poolFree s i - poolReserve s i

/-- The pool that serves a request (R250): the smallest fitting one with a free buffer outside its reserve; a
recovery requester takes a reserve buffer when there is none. -/
def pickPool (s : State) (size : Nat) (recovery : Bool) : Option Nat :=
  let fit := (List.range 8).filter fun i => decide (size ≤ poolSize i)
  match fit.find? fun i => decide (0 < poolOutside s i) with
  | some i => some i
  | none => if recovery then fit.find? fun i => decide (0 < poolFree s i) else none

/-- The quota of an owner in KiB, 0xFFFF_FFFF for no cap (R252). -/
def quotaOf (s : State) (o : Nat) : Nat :=
  if o < 1026 then (funcOf s o).cisternKib else Store.get 0xFFFFFFFF o s.cis.quotas

/-- The quota admits `n` more bytes (R252). -/
def quotaOk (s : State) (o n : Nat) : Bool :=
  quotaOf s o == 0xFFFFFFFF || decide (chargeOf s o + n ≤ quotaOf s o * 1024)

/-- The generation of an owner (R257). -/
def genOf (s : State) (o : Nat) : Nat := Store.get 0 o s.cis.gens

/-- Increment an owner's generation (R257). -/
def bumpGen (o : Nat) (s : State) : State :=
  { s with cis := { s.cis with gens := Store.upd 0 o (fun g => (g + 1) % 65536) s.cis.gens } }

/-- A buffer is orphaned: its recorded generation is not its owner's current one (R257). -/
def orphaned (s : State) (b : Buf) : Bool := b.gen != genOf s b.owner

/-! ## Allocation and release -/

/-- Take a buffer for a request of `size` bytes by `owner`; `holder` is the packet that is the last owner's claim.
The failure is NO_RESOURCE or QUOTA (R250, R252). -/
def allocBuf (size owner holder : Nat) (recovery : Bool) (s : State) : Except Nat (Nat × State) :=
  if 1058 < owner ∨ 65536 < size then .error stNoResource
  else match pickPool s size (recovery || owner == ownFw) with
    | none => .error stNoResource
    | some i =>
      if !quotaOk s owner (poolSize i) then .error stQuota
      else
        let n := s.cis.nextBuf
        let b : Buf := { num := n, pool := i, owner := owner, gen := genOf s owner, loHolder := some holder, born := s.time.t }
        let s := { s with cis := { s.cis with bufs := s.cis.bufs ++ [b], nextBuf := n + 1 } }
        -- what is written into a fresh buffer replaces whole words, which clears their poison (R428)
        let s := { s with fault := { s.fault with poison := Store.upd [] 1 (List.filter fun w => w / 8192 != n) s.fault.poison } }
        let least := s.cis.least.set i (min (s.cis.least.getD i 0) (poolOutside s i))
        .ok (n, wmCheck { s with cis := { s.cis with least := least } })

/-- A buffer by number. -/
def bufAt (s : State) (n : Nat) : Option Buf := s.cis.bufs.find? fun b => b.num == n

/-- A buffer goes back to its pool when LO_FREED is set and no claim remains (R256). -/
def bufDone (b : Buf) : Bool := b.loFreed && b.holders.isEmpty

/-- Change a buffer, and return it to its pool when it is done. -/
def updBuf (n : Nat) (g : Buf → Buf) (s : State) : State :=
  wmCheck { s with cis := { s.cis with bufs := (mapWhere (fun b => b.num == n) g s.cis.bufs).filter fun b => !(b.num == n && bufDone b) } }

/-- The last owner frees its hold (R256): LO_FREED is set, but an orphaned buffer never frees itself, and waits for FORFEIT or for
reclaim (R257 to R259). -/
def freeLast (s : State) (b : Buf) : Buf := { b with loHolder := none, loFreed := b.loFreed || !orphaned s b }

/-- A packet frees its hold on a buffer (R256): the last owner's release sets LO_FREED, any other releases its claim. -/
def releaseBuf (n pkt : Nat) (s : State) : State :=
  updBuf n (fun b => if b.loHolder = some pkt then freeLast s b else { b with holders := b.holders.erase pkt }) s

/-- Holders of a buffer, the last owner among them. -/
def holderCount (b : Buf) : Nat := b.holders.length + b2n b.loHolder.isSome

/-- A copy joins the holders of a buffer (R255): false, with COPY_LIMIT counted, beyond 64. -/
def claimBuf (n pkt : Nat) (s : State) : Bool × State :=
  match bufAt s n with
  | none => (true, s)
  | some b =>
    if 64 ≤ holderCount b then (false, count (cDev 19) s)
    else (true, updBuf n (fun b => { b with holders := b.holders ++ [pkt] }) s)

/-- Others hold the packet's buffer too (R255). -/
def sharedBuf (s : State) (p : Packet) : Bool :=
  match p.buf.bind (bufAt s) with
  | some b => decide (1 < holderCount b)
  | none => false

/-- Move a buffer's charge to another owner under its quota (R253): false when the quota refuses. The packet becomes
the last owner's claim and the buffer records the owner's generation. -/
def moveCharge (n owner pkt : Nat) (s : State) : Bool × State :=
  match bufAt s n with
  | none => (true, s)
  | some b =>
    if b.owner = owner then (true, s)
    else if !quotaOk s owner (poolSize b.pool) then (false, s)
    else
      (true, updBuf n (fun b =>
        let others := (match b.loHolder with
          | some h => if h = pkt then b.holders else b.holders ++ [h]
          | none => b.holders).erase pkt
        { b with owner := owner, gen := genOf s owner, loHolder := some pkt, holders := others, loFreed := false }) s)

/-- A packet is freed: its hold on its buffer ends. -/
def freePkt (p : Packet) (s : State) : State :=
  match p.buf with
  | some n => releaseBuf n p.num s
  | none => s

/-- A packet number. -/
def newPktNum (s : State) : Nat × State := (s.cis.nextPkt, { s with cis := { s.cis with nextPkt := s.cis.nextPkt + 1 } })

/-- Give a packet a buffer of its own of `size` bytes for `owner`, releasing its hold on the shared one (R255). -/
def ownBuffer (p : Packet) (size owner : Nat) (s : State) : Except Nat (Packet × State) :=
  match allocBuf size owner p.num false s with
  | .error e => .error e
  | .ok (n, s) =>
    let ing := (p.buf.bind (bufAt s)).bind (·.ingress)
    .ok ({ p with buf := some n }, freePkt p (updBuf n (fun b => { b with ingress := ing }) s))

/-- A buffer taken for bytes on their way that no packet holds yet, a transfer's reads or a command's payload: none when no pool or quota gives
one. Before a pool layout is loaded there are no buffers, and nothing is taken (DESIGN CHOICE, unsafe: log 47). -/
def takeHold (size owner : Nat) (recovery : Bool) (s : State) : Option (Option Nat × State) :=
  if s.cis.layout.isEmpty then some (none, s)
  else
    let (k, s) := newPktNum s
    match allocBuf size owner k recovery s with
    | .ok (b, s) => some (some b, s)
    | .error _ => none

/-- Give such a buffer back. -/
def freeHold (b : Option Nat) (s : State) : State :=
  match b with
  | some n => updBuf n (freeLast s) s
  | none => s

/-- Memory words of a buffer, as the model numbers them for the ECC rules (DESIGN CHOICE, unsafe: log 21). -/
def bufAddr (n : Nat) : Nat := n * 65536

/-- Some word of a packet's bytes is poisoned (R427, R430). -/
def pktPoisoned (s : State) (p : Packet) : Bool :=
  match p.buf with
  | some n => poisonedIn s 1 (bufAddr n) p.bytes.length
  | none => false

end Sys2Proof.Machine
end

