-- ==== Sys2Proof/Machine/Reset.lean ====
section
/-! DEFINITION. The resets of R75: what each clears and what survives (R75, R77, R437, R444, R473). -/

namespace Sys2Proof.Machine

open Sys2Proof

/-- FAULT_N is low (R467). -/
def faultLow (s : State) : Bool := s.fault.latched || s.mode == .shutIn

/-- A link after a reset that leaves it trained: its containment record starts anew (R75, R139). -/
def keepLink (x : LinkSt) : LinkSt := { x with frozen := false, cause := 0, count := 0, time := 0, l1sub := 0, lstate := if x.lstate = 2 then 0 else x.lstate }

/-- Configuration space after a reset that keeps it: what ran in the function does not (R75). -/
def keepCfg (c : FnCfg) : FnCfg := { c with flr := false, deferFlr := false, relRefused := false }

/-- The links as a reset that retrains them leaves them (R75, R111). -/
def freshLinks (hostBif : Bool) : Store LinkSt := if hostBif then [(0, { width := 8 }), (1, { width := 8 })] else []

/-- Fused owner slot that is active from this boot on (R106): the highest one burned. -/
def activeSlot (s : State) : Option (BitVec 384) := (s.fuses.ownerKeys.getLast?).map (·.2)

/-- The boot begins (R79, R83, R473): the straps are sampled; BOOT_SRC opens the recovery window at once. The fuses are sensed first, and a
failed check of them holds the device in DRY (R82). -/
def freshBoot (s : State) (source : Nat) (straps : Straps) : BootSt :=
  { lastReset := source, failCode := if s.fuses.intact then 0 else 0x0B, failed := !s.fuses.intact
    stage := if s.fuses.intact && straps.bootSrc then 0xF else 0, done := false, ownerEnrolled := (activeSlot s).isSome,
    activeOwner := activeSlot s, image := none, clayTrained := false, straps := straps, powered := true }

/-- Reset the device (R75, R77): it enters DRY. Fuses and flash survive; the wellhead keeps the time, counting seep ticks from here, unless
power was lost; a device or watchdog reset keeps the links trained, the configuration registers and HOST_BIF. What has gone out of the pins,
the commands that wait and the count of free values are no part of what is reset. -/
def resetDevice (source : Nat) (straps : Straps) (s : State) : State :=
  let warm := source == 2 || source == 3
  let straps := if warm then { straps with hostBif := s.boot.straps.hostBif } else straps
  let now := if s.wh.clocksStopped then s.time.coarse + s.wh.ticks * 2000000000 else s.time.t
  let coarse := if source = 0 then 0 else now
  let t : State :=
    { pending := s.pending
      out := s.out
      fuses := s.fuses
      boot := freshBoot s source straps
      mode := .dry
      wh := { clocksStopped := true, seepInternal := s.wh.seepInternal }
      links := if warm then s.links.map fun (x : Nat × LinkSt) => (x.1, keepLink x.2) else freshLinks straps.hostBif
      fns := if warm then s.fns.map fun (x : Nat × FnCfg) => (x.1, keepCfg x.2) else []
      time := { t := coarse, coarse := coarse }
      power := { sensors := s.power.sensors, rails := s.power.rails }
      cis := { draws := s.cis.draws } }
  -- FAULT_N, the PPS output and the SyncE pins are released (R343, R345, R467)
  let t := s.time.synce.foldl (fun t (x : Nat × SynceSt) => if x.2.low then t else emit (.pinLevel (if x.1 = 0 then .syncE0 else .syncE1) false) t) t
  let t := if s.time.ppsOut then emit (.pinLevel .ppsOut false) t else t
  if faultLow s then emit (.pinLevel .fault true) t else t

end Sys2Proof.Machine
end

