-- ==== Sys2Proof/Machine/Stitch.lean ====
section
/-! DEFINITION. Sending on a stitch link: Unris frames, credits and the retry buffer (R384 to R389, R402). -/

namespace Sys2Proof.Machine

open Sys2Proof

/-- Frame types (R384): 0 NULL, 1 PKT, 2 CMD, 3 RSP, 4 CTRL. -/
def uNull : Nat := 0
def uPkt : Nat := 1
def uCmd : Nat := 2
def uRsp : Nat := 3
def uCtrl : Nat := 4

/-- Credits a frame of `n` payload bytes needs: units of 256 bytes, header and CRC counted (R388). -/
def creditsFor (n : Nat) : Nat := (n + 12 + 255) / 256

/-- The bytes of an Unris frame (R384). -/
def frameBytes (ty seq ack : Nat) (ackValid nak : Bool) (cred0 cred1 : Nat) (payload : Bytes) : Bytes :=
  let h := toLe 2 (ty + 16 * (seq % 4096)) ++ toLe 2 (ack % 4096 + 4096 * b2n ackValid + 8192 * b2n nak) ++
    toLe 2 payload.length ++ toLe 1 cred0 ++ toLe 1 cred1
  let b := h ++ payload
  b ++ toLe 4 (crc32c b)

/-- Put one frame on the wire of a stitch port, with the acknowledgement and the credits it returns (R384, R388). -/
def putFrame (port ty seq : Nat) (payload : Bytes) (nak : Bool) (s : State) : State :=
  let u := stitchAt s port
  let c0 := min 255 u.owe0
  let c1 := min 255 u.owe1
  emit (.stitchFrame port ty seq (frameBytes ty seq (u.rxSeq + 4095) u.rxAny nak c0 c1 payload))
    (updStitch port (fun u => { u with owe0 := u.owe0 - c0, owe1 := u.owe1 - c1 }) s)

/-- The link's retry buffer has room for a frame (R389): 512 KiB, 2,048 frames, and 16 CTRL frames (R388). -/
def retryRoom (u : StitchSt) (ty n : Nat) : Bool :=
  decide (u.retry.length < 2048) &&
  decide ((u.retry.foldl (fun a f => a + f.payload.length + 12) 0) + n + 12 ≤ 524288) &&
  (ty != uCtrl || decide ((u.retry.filter fun f => f.ty == uCtrl).length < 16))

/-- A frame has the credits it needs (R388). -/
def creditOk (u : StitchSt) (ty n : Nat) : Bool :=
  if ty = uPkt ∨ ty = uCmd then decide (creditsFor n ≤ u.cred0)
  else if ty = uRsp then decide (creditsFor n ≤ u.cred1) else true

/-- Send a frame now: it takes the next SEQ, its credits, and a place in the retry buffer. -/
def sendNow (port ty : Nat) (payload : Bytes) (s : State) : State :=
  let u := stitchAt s port
  let n := creditsFor payload.length
  let s := putFrame port ty u.txSeq payload false s
  updStitch port (fun v => { v with
    txSeq := (u.txSeq + 1) % 4096
    retry := v.retry ++ [{ seq := u.txSeq, ty := ty, payload := payload }]
    cred0 := if ty = uPkt ∨ ty = uCmd then v.cred0 - n else v.cred0
    cred1 := if ty = uRsp then v.cred1 - n else v.cred1
    lastTraffic := if ty = uCtrl then v.lastTraffic else s.time.t }) s

/-- Send frames that wait, in order, while credits and room allow (R388). -/
def drainWaiting (port : Nat) : Nat → State → State
  | 0, s => s
  | n + 1, s =>
    let u := stitchAt s port
    match u.waiting with
    | [] => s
    | f :: r =>
      if creditOk u f.ty f.payload.length && retryRoom u f.ty f.payload.length then
        drainWaiting port n (sendNow port f.ty f.payload (updStitch port (fun v => { v with waiting := r }) s))
      else s

/-- Send a frame on a stitch port, or let it wait for credits behind those that wait. A lost link sends nothing
(R401). A resting link is woken first (R402). -/
def sendFrame (port ty : Nat) (payload : Bytes) (s : State) : State :=
  let u := stitchAt s port
  if u.lost then s
  else
    let s := if u.resting then
        emit (.stitchSignal port 0 0) (updStitch port (fun v => { v with resting := false, restPend := false }) s)
      else s
    let u := stitchAt s port
    drainWaiting port (u.waiting.length + 1)
      (updStitch port (fun v => { v with waiting := v.waiting ++ [{ ty := ty, payload := payload }] }) s)

/-- Send a control frame (R390). -/
def sendCtrl (port sub : Nat) (d : Bytes) (s : State) : State := sendFrame port uCtrl (toLe 1 sub ++ d) s

/-- A NULL frame: acknowledgement and credits only, with NAK when asked; it takes no SEQ (R384, R389). -/
def sendNull (port : Nat) (nak : Bool) (s : State) : State := putFrame port uNull (stitchAt s port).txSeq [] nak s

/-- The port is a working stitch port: mode 2, present, not lost. -/
def stitchUp (s : State) (port : Nat) : Bool :=
  let p := portAt s port
  hasStitch s && decide (p.cfg.mode = 2) && p.up && !(stitchAt s port).lost

end Sys2Proof.Machine
end

