-- ==== Sys2Proof/Machine/RingOps.lean ====
section
/-! DEFINITION. Rings as every unit uses them: completion slots and entries, moderation (R306 to R308, R311), and fetching (R302 to R305). -/

namespace Sys2Proof.Machine

open Sys2Proof

/-! ## Channels -/

/-- The number under which a channel's state is kept. -/
def Chan.code : Chan → Nat
  | .admin f => f
  | .mailbox c => 2000 + c
  | .sideband => 8000
  | .link p => 8001 + p
  | .fwd e => 9000 + e

/-- A channel's state. -/
def chanSt (s : State) (ch : Chan) : ChanSt := Store.get {} (Chan.code ch) s.chans

/-- Change a channel's state. -/
def updChan (ch : Chan) (g : ChanSt → ChanSt) (s : State) : State :=
  { s with chans := Store.upd {} (Chan.code ch) g s.chans }

/-! ## Queue pairs and completions -/

/-- A device queue pair. -/
def qpAt (s : State) (n : Nat) : Qp := Store.get {} n s.rings.qps

/-- Change a device queue pair. -/
def updQp (n : Nat) (g : Qp → Qp) (s : State) : State := { s with rings := { s.rings with qps := Store.upd {} n g s.rings.qps } }

/-- The queue pair is created (R331). -/
def qpExists (s : State) (n : Nat) : Bool := (qpAt s n).state != 0

/-- The device queue pair of a function's queue pair (R152). -/
def devQp (s : State) (f q : Nat) : Nat := (funcOf s f).qpBase + q

/-- Entries of the submission ring. -/
def sqSize (q : Qp) : Nat := 2 ^ q.log2Sq
/-- Entries of the completion ring. -/
def cqSize (q : Qp) : Nat := 2 ^ q.log2Cq
/-- Completion slots neither written nor reserved (R308). -/
def cqFree (q : Qp) : Nat := cqSize q - (q.used + q.reserved)

/-- Queue completion statuses (R307). -/
def qOk : Nat := 0
def qAborted : Nat := 1
def qMalformed : Nat := 2
def qDmaFault : Nat := 3
def qPoisoned : Nat := 4
def qSpoof : Nat := 5
def qErrored : Nat := 6
def qDepth : Nat := 7
def qConflict : Nat := 8
def qLate : Nat := 9

/-- What a completion entry says (R306); `ts` is the timestamp with its UNLOCKED flag, when there is one. -/
structure Cqe where
  tag : Nat := 0
  status : Nat := 0
  ndesc : Nat := 1
  pflags : Nat := 0
  cls : Nat := 0
  colour : Nat := 0
  len : Nat := 0
  detail : Nat := 0
  ts : Option (Nat × Bool) := none
  user : Nat := 0
  hash : Nat := 0

/-- The 32 bytes of a completion entry under a phase (R306). -/
def cqeBytes (phase : Bool) (e : Cqe) : Bytes :=
  let flags := match e.ts with
    | some (_, u) => b2n phase + 2 + 4 * b2n u
    | none => b2n phase
  toLe 2 e.tag ++ toLe 1 e.status ++ toLe 1 flags ++ toLe 1 e.ndesc ++ toLe 1 e.pflags ++ toLe 2 (e.cls % 4096 + 4096 * e.colour) ++
    toLe 4 e.len ++ toLe 4 e.detail ++ toLe 8 ((e.ts.map (·.1)).getD 0) ++ toLe 4 e.user ++ toLe 4 e.hash

/-- Send a queue pair's interrupt and disarm it (R311). -/
def fireQp (n : Nat) (s : State) : State :=
  let q := qpAt s n
  let s := updQp n (fun q => { q with arm := false, modAt := none, modCnt := 0 }) s
  if q.vector = 0xFFFF then s else sendMsix q.fn q.vector s

/-- Moderation sends at once (R311). -/
def modNow (q : Qp) : Bool := decide (q.modCount ≤ 1) || q.modUs == 0

/-- Moderation looks at a completion that has just been written (R311). The completion that starts moderation counts
towards MOD_COUNT (DEDUCED, unsafe: log 22). -/
def modTick (n : Nat) (s : State) : State :=
  let q := qpAt s n
  if !q.arm then s
  else
    let c := (if q.modAt.isSome then q.modCnt else 0) + 1
    if modNow q || decide (q.modCount ≤ c) then fireQp n s
    else updQp n (fun q => { q with modAt := some (q.modAt.getD s.time.t), modCnt := c }) s

/-- Write one completion entry in a reserved slot: bytes 4 to 31, then bytes 0 to 3 (R306, R308, R311). -/
def writeCqe (n : Nat) (e : Cqe) (s : State) : State :=
  let q := qpAt s n
  let b := cqeBytes q.cqPhase e
  let a := q.cqAddr + 32 * q.cqIdx
  let s := hostWrite .cqe q.fn a (b.take 4) (hostWrite .cqe q.fn (a + 4) (b.drop 4) s)
  let s := if e.status = qMalformed then count (cFn q.fn 18) s else if e.status = qDmaFault then count (cFn q.fn 19) s else s
  let wrap := decide (cqSize q ≤ q.cqIdx + 1)
  modTick n (updQp n (fun q => { q with
    cqIdx := if wrap then 0 else q.cqIdx + 1
    cqPhase := if wrap then !q.cqPhase else q.cqPhase
    used := q.used + 1
    reserved := q.reserved - 1 }) s)

/-- Reserve a completion slot (R308). -/
def reserveSlot (n : Nat) (s : State) : State := updQp n (fun q => { q with reserved := q.reserved + 1 }) s

/-! ## Fetching (R299, R302 to R305) -/

/-- A queue pair fetches and completes in this mode (R299), its link not frozen (R138); a data pair only while rings are served. -/
def qpRuns (s : State) (q : Qp) : Bool := q.state == 1 && fnUp s q.fn && (q.ty == 2 || serving s)

/-- Bytes of a submission slot. -/
def slotBytes (q : Qp) : Nat := if q.ty = 2 then 64 else 32

/-- Entries up to the oldest outstanding one, which the fetch index may not pass (R305). -/
def fetchCap (q : Qp) : Nat :=
  match q.outst with
  | [] => sqSize q
  | t :: _ => (t.tag + sqSize q - q.fetch) % sqSize q

/-- Entries from the fetch index to a TAIL (R302): a TAIL equal to the fetch index may be a whole data ring, whose entries tell by their PHASE
whether they are the device's. -/
def entriesTo (q : Qp) (tail : Nat) : Nat :=
  let n := (tail + sqSize q - q.fetch) % sqSize q
  if n = 0 ∧ q.ty ≠ 2 then sqSize q else n

/-- Entries that the next fetch reads (R304): those up to TAIL, and of a data ring 32 beyond it, at most 64 at a time. -/
def fetchAsk (q : Qp) : Nat := if q.ty = 2 then q.due else min (fetchCap q) (min (q.due + 32) 64)

/-- Reply write credits of a channel that are not reserved (R36): each command that has been accepted, or read from the ring to be, holds one. -/
def replyCredits (s : State) (ch : Chan) (staged : Nat) : Nat := 16 - ((chanSt s ch).running.length + staged)

/-- A queue pair may start a fetch: entries are due, it runs, it holds a completion slot (R308), the fetch index has not met an outstanding entry
(R305), and an ADMIN ring has a reply credit for what it reads (R36). -/
def mayFetch (s : State) (q : Qp) : Bool :=
  !q.fetching && decide (0 < q.due) && qpRuns s q && decide (0 < cqFree q) && decide (0 < fetchAsk q) &&
  (q.ty != 2 || decide (0 < replyCredits s (.admin q.fn) q.admin.length))

/-- The first entry and the count of each part of a fetch of `k` entries: up to the ring's end, then from its start. -/
def fetchParts (q : Qp) (k : Nat) : List (Nat × Nat) :=
  let k1 := min k (sqSize q - q.fetch)
  if k1 < k then [(q.fetch, k1), (0, k - k1)] else [(q.fetch, k1)]

/-- Read some entries: each descriptor in one aligned 32-byte read (R303), command slots together. -/
def fetchPart (n : Nat) (q : Qp) (s : State) (p : Nat × Nat) : State :=
  if q.ty = 2 then hostRead q.fn (.fetch n) (q.sqAddr + 64 * p.1) (64 * p.2) s
  else (List.range p.2).foldl (fun t i => readRequest q.fn (.fetch n) (q.sqAddr + 32 * (p.1 + i)) 32 (32 * i) t) s

/-- Start the fetch that is due, if the queue pair may (R304). A ring that lies in a peer range is never read (R143). -/
def kickQp (n : Nat) (s : State) : State :=
  let q := qpAt s n
  let k := fetchAsk q
  if !mayFetch s q || (fetchParts q k).any (fun p => inPeerRange s q.fn (q.sqAddr + slotBytes q * p.1) (slotBytes q * p.2)) then s
  else (fetchParts q k).foldl (fetchPart n q) (updQp n (fun q => { q with fetching := true, asked := k, latched := false }) s)

/-- A fetch is over: a doorbell that came meanwhile makes the ring be read afresh, and what is due goes on (R304). -/
def endFetch (n : Nat) (s : State) : State :=
  kickQp n (updQp n (fun q => { q with fetching := false, asked := 0, latched := false, due := if q.latched then entriesTo q q.tail else q.due }) s)

/-! ## Completions of frames and commands -/

/-- Complete a transmit frame that is still outstanding (R309, R314), which may let the fetch go on (R305). A timestamp is reported when TS_REQ asked for it. -/
def completeTx (t : TxTag) (status detail : Nat) (ts : Option (Nat × Bool)) (s : State) : State :=
  let q := qpAt s t.qp
  if q.outst.any (fun x => x.tag == t.tag) then
    kickQp t.qp (writeCqe t.qp { tag := t.tag, status := status, ndesc := t.ndesc, len := t.len, detail := detail,
                                 ts := if t.tsReq then ts else none, user := t.user }
      (updQp t.qp (fun q => { q with outst := q.outst.filter fun x => x.tag != t.tag }) s))
  else s

/-- The admin queue pair of a function: its function-local queue pair 0 (R297, R312). -/
def adminQp (s : State) (f : Nat) : Nat := devQp s f 0

/-- A command that an admin ring has read, by its SEQ. -/
def stagedCmd (q : Qp) (seq : Word) : Option AdminCmd := q.admin.find? fun a => decide (fld a.bytes 4 4 = seq.toNat)

/-- Command slots a command occupies (R41, R313). -/
def cmdSlots (hdr : Bytes) : Nat := if bit (fld hdr 2 2) 0 then 1 + (fld hdr 24 4 + 63) / 64 else 1

/-- Write the ring completion of a command that its ring has read: at acceptance or at refusal (R40, R313). -/
def ringDone (f : Nat) (seq : Word) (status detail : Nat) (s : State) : State :=
  let n := adminQp s f
  match stagedCmd (qpAt s n) seq with
  | none => s
  | some a =>
    let s := updQp n (fun q => { q with admin := q.admin.filter fun x => x.tag != a.tag }) s
    writeCqe n { tag := a.tag, status := status, ndesc := cmdSlots a.bytes, detail := detail, user := seq.toNat } s

/-- Admin rings are read on as far as reply credits are free (R36): a command that has been answered or refused has given its credit back. -/
def readOn (s : State) : State := s.rings.qps.foldl (fun t x => if x.2.ty = 2 then kickQp x.1 t else t) s

end Sys2Proof.Machine
end

