-- ==== Sys2Proof/Machine/Operands.lean ====
section
/-! DEFINITION. The operand form every opcode row shares: a command packet on a channel. Header and CRC (R38 to
R41), the order of the checks (R45), the sequence window (R46), privilege (R35, R70, R161), unit paths and
forwarding (R15, R52 to R55), the start order (R37), and the reply record (R42, R43). -/

namespace Sys2Proof.Machine

open Sys2Proof

/-! ## Answers -/

/-- An answer OK with its two results. -/
def ok (r0 r1 : Nat) : Answer := { status := stOk, r0 := r0, r1 := r1 }

/-- An answer OK that writes bytes at OUT_ADDR. -/
def okOut (r0 r1 addr : Nat) (out : Bytes) : Answer := { status := stOk, r0 := r0, r1 := r1, out := out, outAddr := addr }

/-- A refusal with its DETAIL. -/
def err (status detail : Nat) : Answer := { status := status, detail := detail }

/-! ## Channels -/

/-- The channel number of a histogram monitor of KIND 4 (R449): channel table entries only. -/
def Chan.mon : Chan → Nat
  | .mailbox c => c
  | _ => 0x10000

/-- A channel table entry. -/
def chanEntry (s : State) (c : Nat) : ChanEntry := Store.get {} c s.chanTab

/-- A mailbox block. -/
def boxAt (s : State) (b : Nat) : Mbox := Store.get {} b s.boxes

/-- Change a mailbox block. -/
def updBox (b : Nat) (g : Mbox → Mbox) (s : State) : State := { s with boxes := Store.upd {} b g s.boxes }

/-- The box a channel's notices ring: block `c` of an open channel, else the entry's BOX (R457). -/
def boxOfChan (s : State) (c : Nat) : Nat := if c < 4 then c else (chanEntry s c).box

/-- The function behind a master identity (R69), none for a master that is no PCIe requester. -/
def fnOfMaster (m : Word) : Option Nat := if m.toNat / 2 ^ 28 = 0 then some (fnOfRid (m.toNat % 131072)) else none

/-- The channel that the outermost FORWARD of an inner command came by (R56); `fuel` bounds the nesting. -/
def rootChan (s : State) : Nat → Chan → Chan
  | fuel + 1, .fwd e =>
    match s.fwd.find? fun x => x.num == e with
    | some x => rootChan s fuel x.origin.chan
    | none => .fwd e
  | _, ch => ch

/-- A host read of PF0 cannot be made for a command of the sideband transport (R435). -/
def sidebandCut (s : State) (ch : Chan) : Bool :=
  rootChan s 70 ch == .sideband && (frozen s 0 || !(linkAt s (linkOf s 0)).up || !(cfgOf s 0).bme)

/-- What a command's reads of host memory return: a read that cannot be made completes with a DMA fault (R435). -/
def hostData (s : State) (c : Cmd) (img : HostData) : HostData :=
  if sidebandCut s c.chan then { img with badAt := some 0 } else img

/-- The function whose requester ID writes a channel's replies. -/
def chanFn (s : State) (ch : Chan) : Option Nat :=
  match rootChan s 70 ch with
  | .admin f => some f
  | .mailbox c => if c < 4 then fnOfMaster (boxAt s c).ringer else fnOfMaster (chanEntry s c).masterA
  | _ => none

/-- The channel carries the manager's privilege (R35, R69, R435); an inner command has that of the channel its FORWARD came by. A forwarding
link lies between admitted devices, and the unit that read the command from its channel has checked it (DEDUCED, unsafe: log 19). -/
def hasPriv (s : State) (ch : Chan) : Bool :=
  match rootChan s 70 ch with
  | .admin f => !isVf f
  | .mailbox c => if c < 4 then false else (chanEntry s c).priv
  | .sideband => true
  | .link _ => true
  | .fwd _ => false

/-- The device reads the channel (R19, R61, R69, R136, R138, R435): a mailbox only while a KIND 1 notice is pending in the box of an open channel
or of a channel table entry in use. -/
def readable (s : State) : Chan → Bool
  | .admin f => decide (f < 1026) && live s f && canIssue s f
  | .mailbox c =>
    let b := boxAt s (boxOfChan s c)
    modeTalks s && (decide (c < 4) || (chanEntry s c).valid) && b.status.getLsbD 0 && decide (b.kind = 1) &&
      (match chanFn s (.mailbox c) with
       | some f => !frozen s f
       | none => true)
  | .sideband => s.mode == .priming || s.mode == .proving || s.mode == .flowing || s.mode == .shutIn
  | .link p => modeTalks s && stitchUp s p
  | .fwd e => s.fwd.any fun x => x.num == e

/-! ## Headers -/

/-- Header bytes 0 to 59 of a command as they came, reserved fields among them (R13, R38). -/
def headerBytes (op : Nat) (c : Cmd) : Bytes :=
  toLe 2 op ++ toLe 2 (b2n c.inl + 2 * b2n c.idem + 4 * b2n c.fence + 8 * c.rsvFlags.toNat) ++ toLe 4 c.seq.toNat ++
  ((List.range 7).map fun i => toLe 2 (c.hops.getD i 0)).flatten ++ toLe 1 c.pathLen ++ toLe 1 c.rsvByte.toNat ++
  toLe 4 c.payloadLen ++ toLe 4 c.timeoutUs.toNat ++ toLe 8 c.payloadAddr.toNat ++ toLe 8 c.respAddr.toNat ++ toLe 12 c.rsvTail.toNat

/-- The CRC a command must carry (R39). -/
def cmdCrc (op : Nat) (c : Cmd) : Nat := crc32c (headerBytes op c ++ c.payload.take c.payloadLen)

/-- The command's check passes (R39, R40): the payload was read whole and good. -/
def cmdGood (op : Nat) (c : Cmd) : Bool :=
  !c.bad && decide (c.payload.length = c.payloadLen) && decide (cmdCrc op c = c.crc.toNat)

/-- A command packet read from its bytes: header, then payload (R38). -/
def parseCmd (ch : Chan) (b : Bytes) : Nat × Cmd :=
  let n := fld b 24 4
  (fld b 0 2,
   { chan := ch, inl := bit (fld b 2 2) 0, idem := bit (fld b 2 2) 1, fence := bit (fld b 2 2) 2,
     seq := BitVec.ofNat 32 (fld b 4 4), hops := (List.range 7).map fun i => fld b (8 + 2 * i) 2, pathLen := fld b 22 1,
     payloadLen := n, timeoutUs := BitVec.ofNat 32 (fld b 28 4), payloadAddr := BitVec.ofNat 64 (fld b 32 8),
     respAddr := BitVec.ofNat 64 (fld b 40 8), crc := BitVec.ofNat 32 (fld b 60 4), payload := slice b 64 n,
     rsvFlags := BitVec.ofNat 13 (fld b 2 2 / 8), rsvByte := BitVec.ofNat 8 (fld b 23 1), rsvTail := BitVec.ofNat 96 (fld b 48 12) })

/-! ## What an opcode asks of its channel -/

/-- What the shared checks need to know of an opcode: its code, the payload lengths it allows, its modes, whether it
needs PRIV (DENIED 3), whether a virtual function's ring may carry it (R161), the CAP_UNITS bit of its class, whether
the validation gate holds it off (R102), where its payload names OUT_ADDR (R387), whether it
allows no path (R57), and whether it is an opcode at all. -/
structure OpInfo where
  code : Nat
  len : Cmd → Bool := fun c => c.payloadLen == 0
  modes : List Mode := [.priming, .proving, .flowing]
  priv : Bool := false
  vf : Bool := false
  cap : Option Nat := none
  gated : Bool := false
  outOff : Option Nat := none
  noPath : Bool := false
  known : Bool := true
  /-- DETAIL of STATE in a mode that does not permit the operation. -/
  modeDetail : Cmd → Nat := fun _ => 0

/-- The class byte of an opcode. -/
def opClass (op : Nat) : Nat := op / 256

/-- Payload of exactly `n` bytes. -/
def lenIs (n : Nat) (c : Cmd) : Bool := c.payloadLen == n

/-- Payload between two lengths. -/
def lenIn (lo hi : Nat) (c : Cmd) : Bool := decide (lo ≤ c.payloadLen) && decide (c.payloadLen ≤ hi)

/-- Modes of most operations. -/
def modesRun : List Mode := [.priming, .proving, .flowing]
/-- Modes of operations that only read. -/
def modesRead : List Mode := [.priming, .proving, .flowing, .shutIn]

/-- The operations an open channel may carry (R70). -/
def openOps : List Nat := [0x0101, 0x0102, 0x0103, 0x0107, 0x0108]

/-! ## Unit paths (R15, R52, R53) -/

/-- A unit of the hierarchy that this device can name. -/
inductive Target where
  | device
  | well (w : Nat)
  | engine (e : Nat)
  /-- An aquifer this device is the gateway of: level 0 is the one it is a member of. -/
  | aquifer (level : Nat)
  /-- Another member, keyed as AqSt.members is, with the hops still to consume. -/
  | member (m : Nat) (rest : List Nat)
  | badPath
  | noUnit
  deriving DecidableEq, Repr

/-- The number under which a target's counts are kept. -/
def unitCode : Target → Nat
  | .device => 0
  | .well w => 1 + w
  | .engine e => 100 + e
  | .aquifer l => 300 + l
  | .member m _ => 400 + m
  | .badPath => 0
  | .noUnit => 0

/-- The unit of a number: the unit that issues an inner command (R56). -/
def unitOf (n : Nat) : Target :=
  if n = 0 then .device else if n < 100 then .well (n - 1) else if n < 300 then .engine (n - 100) else .aquifer (n - 300)

/-- The target is an aquifer. -/
def Target.isAquifer : Target → Bool
  | .aquifer _ => true
  | _ => false

/-- Level of an aquifer addressed. -/
def Target.level : Target → Nat
  | .aquifer l => l
  | _ => 0

/-- What a device knows of the aquifer at a level (R393): none above the highest. -/
def levelAt (s : State) : Nat → Option Upper
  | 0 => s.aq.group.map fun g => { group := g, index := s.aq.index, gateway := s.aq.gateway, stratum := s.aq.stratum }
  | l + 1 => s.aq.uppers[l]?

/-- Keys under which AqSt.members lists this device and the aquifers it belongs to. -/
def ownKeys (s : State) : List Nat :=
  (List.range (s.aq.uppers.length + 1)).filterMap fun l => (levelAt s l).map fun u => 64 * l + u.index

/-- The unit above a device or an aquifer (R52, R53): the aquifer at a level when this device is its gateway, else the way to the gateway. -/
def parentAt (s : State) (l : Nat) (rest : List Nat) : Target :=
  match levelAt s l with
  | none => .badPath
  | some u => if u.gateway = u.index then .aquifer l else .member (64 * l + u.gateway) rest

/-- Follow one hop element (R52). -/
def hopFrom (s : State) (t : Target) (hop : Nat) (rest : List Nat) : Target :=
  match t with
  | .device =>
    if hop = 0xFFFE then .device
    else if hop = 0xFFFF then parentAt s 0 rest
    else if hop ≤ 11 then (if hop < wellCount s then .well hop else .noUnit)
    else .badPath
  | .well w =>
    if hop = 0xFFFE then .well w
    else if hop = 0xFFFF then .device
    else if hop ≤ 7 then .engine (8 * w + hop)
    else .badPath
  | .engine e =>
    if hop = 0xFFFE then .engine e else if hop = 0xFFFF then .well (e / 8) else .badPath
  | .aquifer l =>
    if hop = 0xFFFE then .aquifer l
    else if hop = 0xFFFF then parentAt s (l + 1) rest
    else if 63 < hop then .badPath
    else if (ownKeys s).contains (64 * l + hop) then (if l = 0 then .device else .aquifer (l - 1))
    else if (Store.get ({} : Member) (64 * l + hop) s.aq.members).route.isSome then .member (64 * l + hop) rest
    else .badPath
  | t => t

/-- Follow a path from where the command is read (R53). -/
def walkPath (s : State) : Target → List Nat → Target
  | t, [] => t
  | t, h :: r =>
    match hopFrom s t h r with
    | .member m rest => .member m rest
    | .badPath => .badPath
    | .noUnit => .noUnit
    | t' => walkPath s t' r

/-- The aquifer that a command from a stitch port addresses (R53): the one below an aquifer whose gateway lies that way, the one whose
member lies that way, else the lowest. -/
def linkLevel (s : State) (p : Nat) : Nat :=
  let via (k : Nat) : Bool := (Store.get ({} : Member) k s.aq.members).route == some p
  let ls := (List.range (s.aq.uppers.length + 1)).filter fun l => decide (1 ≤ l)
  match ls.find? (fun l => (levelAt s l).any fun u => u.gateway != u.index && via (64 * l + u.gateway)) with
  | some l => l - 1
  | none => (ls.find? fun l => s.aq.members.any fun (x : Nat × Member) => x.1 / 64 == l && via x.1).getD 0

/-- Times a path makes the command move on to another unit of this device or to an aquifer above it (R53): a hop to the unit itself moves nothing. -/
def pathMoves (s : State) : Target → List Nat → Nat
  | _, [] => 0
  | t, h :: r =>
    match hopFrom s t h r with
    | .member _ _ => 0
    | .badPath => 0
    | .noUnit => 0
    | t' => (if h = 0xFFFE then 0 else 1) + pathMoves s t' r

/-- A command that arrives on the forwarding link of a gateway addresses the aquifer; any other reaches the device that reads it (R53). -/
def startUnit (s : State) : Chan → Target
  | .link p =>
    let l := linkLevel s p
    match levelAt s l with
    | some u => if u.gateway = u.index then .aquifer l else .device
    | none => .device
  | .fwd e =>
    -- an inner command starts at the unit that its FORWARD named
    match s.fwd.find? fun x => x.num == e with
    | some x => unitOf x.member
    | none => .device
  | _ => .device

/-- The unit a command names (R52): PATH_LEN above 7 is a bad path, hops beyond PATH_LEN are ignored. -/
def targetOf (s : State) (c : Cmd) : Target :=
  if 7 < c.pathLen then .badPath else walkPath s (startUnit s c.chan) (c.hops.take c.pathLen)

/-- Forwarding units inside this device that a command passes (R54). -/
def movesOf (s : State) (c : Cmd) : Nat :=
  if 7 < c.pathLen then 0 else pathMoves s (startUnit s c.chan) (c.hops.take c.pathLen)

/-- A forwarded command's time-out: what remains, in ns, less 1.2 us, in whole us (R55). -/
def forwardTimeout (ns : Nat) : Nat := (ns - 1200) / 1000

/-- The time-out that remains after some forwarding units, in ns, none when it falls below 1 us at one of them (R55). -/
def timeLeft : Nat → Nat → Option Nat
  | 0, ns => some ns
  | k + 1, ns => if ns < 2200 then none else timeLeft k (1000 * forwardTimeout ns)

/-- A command's time-out in us: 0 stands for 100,000 (R38). -/
def timeoutOf (c : Cmd) : Nat := if c.timeoutUs = 0 then 100000 else c.timeoutUs.toNat

/-- The time-out a running command has left, in ns (R49, R55): it runs from acceptance, and for an inner command from its FORWARD's entry. -/
def remainingNs (s : State) (r : CmdRef) : Nat :=
  match r.chan with
  | .fwd e => match s.fwd.find? fun x => x.num == e with
    | some x => x.remainUs * 1000 - (s.time.t - x.since) / 65536
    | none => 0
  | ch => match (chanSt s ch).running.find? fun q => decide (q.ref.seq = r.seq) with
    | some q => q.timeoutUs * 1000 - (s.time.t - q.since) / 65536
    | none => 0

/-! ## Replies -/

/-- The 32-byte reply record (R42). -/
def replyBytes (s : State) (r : CmdRef) (a : Answer) : Bytes :=
  toLe 4 r.seq.toNat ++ toLe 1 a.status ++ toLe 1 (1 + 2 * b2n r.remote) ++ toLe 2 r.op ++ toLe 4 a.detail ++
  toLe 4 (nowNs s) ++ toLe 8 a.r0 ++ toLe 8 a.r1

/-- Send a reply to where its command came from: output bytes first, then record bytes 8 to 31, then bytes 0 to 7
(R43, R387, R435). -/
def deliverReply (r : CmdRef) (a : Answer) (s : State) : State :=
  let rec_ := replyBytes s r a
  let host (f : Nat) (t : State) : State :=
    let t := hostWriteP .reply (fun _ _ => false) f a.outAddr a.out t
    hostWrite .reply f r.resp.toNat (rec_.take 8) (hostWrite .reply f (r.resp.toNat + 8) (rec_.drop 8) t)
  match r.chan with
  | .admin f => host f s
  | .mailbox c =>
    match chanFn s (.mailbox c) with
    | some f => host f s
    | none => s
  | .sideband => emit (.sideband (rec_ ++ a.out.take 4096)) s
  | .link p => sendFrame p uRsp (rec_ ++ a.out.take 4096) s
  | .fwd _ => s

/-- Keep a reply in the cache, for the 64 values of SEQ up to H (R46). -/
def cacheReply (ch : Chan) (seq : Word) (a : Answer) (s : State) : State :=
  updChan ch (fun st => { st with
    cache := ((seq, a) :: st.cache.filter (fun q => !(decide (q.1 = seq)))).filter fun q =>
      decide ((st.last.getD seq - q.1).toNat < 64) }) s

/-- Count an answer other than OK or DUPLICATE against its unit (R58), and an INTERNAL as an event (R44). -/
def countAnswer (unit status : Nat) (s : State) : State :=
  let s := if status = stOk ∨ status = stDuplicate then s
    else { s with cmdFailed := Store.upd 0 unit (· + 1) s.cmdFailed }
  if status = stInternal then raise 256 0 s else s

/-- Answer a command of a channel: its reply is written, cached, counted and timed, and its reply credit is free again (R36, R42, R46, R58, R449). -/
def replyHere (r : CmdRef) (a : Answer) (s : State) : State :=
  let st := chanSt s r.chan
  let since := ((st.running.find? fun q => decide (q.ref.seq = r.seq)).map (·.since)).getD s.time.t
  let s := updChan r.chan (fun st => { st with running := st.running.filter (fun q => !(decide (q.ref.seq = r.seq))) }) s
  let s := cacheReply r.chan r.seq a s
  let s := countAnswer r.unit a.status s
  let s := sample 4 (Chan.mon r.chan) ((s.time.t - since) / 65536 : Nat) s
  deliverReply r a s

/-- Answer a command that was accepted. The answer of an inner command is that of its FORWARD, with REMOTE set (R56), unless the FORWARD has
timed out (R51); `fuel` bounds the nesting. -/
def replyN : Nat → CmdRef → Answer → State → State
  | 0, _, _, s => s
  | fuel + 1, r, a, s =>
    match r.chan with
    | .fwd e =>
      match s.fwd.find? fun x => x.num == e with
      | none => s
      | some x =>
        let s := countAnswer r.unit a.status { s with fwd := s.fwd.filter fun y => y.num != e }
        if x.timedOut then
          match chanFn s x.origin.chan with
          | some f => count (cFn f 9) s
          | none => s
        else replyN fuel { x.origin with remote := true } a s
    | _ => replyHere r a s

/-- Answer a command that was accepted. -/
def reply (r : CmdRef) (a : Answer) (s : State) : State := replyN 70 r a s

/-- A command is still waited for: recorded as running on its channel, or its forwarding entry stands (R50, R56). -/
def isRunning (r : CmdRef) (s : State) : Bool :=
  match r.chan with
  | .fwd e => s.fwd.any fun x => x.num == e
  | ch => (chanSt s ch).running.any fun q => decide (q.ref.seq = r.seq)

/-- Answer a command that is still recorded as running; one whose time-out was recorded first stays answered (R49,
R50). -/
def replyIfRunning (r : CmdRef) (a : Answer) (s : State) : State := if isRunning r s then reply r a s else s

/-- Record how far a running command has come (R49): from its start on its packet is held no longer. -/
def markStage (r : CmdRef) (stage : Nat) (s : State) : State :=
  match r.chan with
  | .fwd e => { s with fwd := mapWhere (fun x => x.num == e) (fun x => { x with stage := stage }) s.fwd }
  | _ => updChan r.chan (fun st => { st with running := mapWhere (fun q => decide (q.ref.seq = r.seq)) (fun q => { q with stage := stage, held := none }) st.running }) s

/-! ## Mailbox notices that carry commands (R40, R67) -/

/-- Acknowledge a notice: PENDING clears, ACKED sets, MBOX_ACK takes the SEQ and the return code (R66, R67). -/
def ackBox (b rc : Nat) (s : State) : State :=
  updBox b (fun m => { m with
    ack := BitVec.ofNat 32 (m.notice.toNat / 65536 * 65536 + rc % 65536)
    status := (m.status &&& ~~~1#32) ||| 2#32
    kind := 0 }) s

/-- The sender of a box (R456): none for any master. -/
def boxSender (b : Nat) : Option Nat :=
  if b < 4 then none
  else if b < 2056 then
    let f := (b - 4) / 2
    if b % 2 = 0 then some f else (if isVf f then some (pfOf f) else none)
  else none

/-- Raise the mailbox event of a function that holds a box end (R65, R66, R439, R443). A virtual function's event is
its MSI-X entry 0; a physical function's is source 192 or 193. -/
def raiseFnBox (f : Nat) (s : State) : State := if isVf f then sendMsix f 0 s else raise (192 + f) 0 s

/-- Acknowledge the notice that brought a command (R67) and raise its sender's event. -/
def ackNotice (ch : Chan) (rc : Nat) (s : State) : State :=
  match ch with
  | .mailbox c =>
    let b := boxOfChan s c
    let ringer := (boxAt s b).ringer
    let s := ackBox b rc s
    match fnOfMaster ringer with
    | some f => raiseFnBox f s
    | none => s
  | _ => s

/-! ## Forwarding (R53 to R55, R387) -/

/-- A free forwarding entry number. -/
def freeFwd (s : State) : Option Nat := (List.range 256).find? fun i => !(s.fwd.any fun x => x.num == i && !x.timedOut)

/-- The stitch port towards a member. -/
def routeTo (s : State) (m : Nat) : Option Nat := (Store.get ({} : Member) m s.aq.members).route

/-- The bytes of a command as it crosses a stitch link: INLINE, its remaining hops, a new SEQ, time-out and CRC; the device writes 0 to the
reserved fields (R13). -/
def crossing (op : Nat) (c : Cmd) (rest : List Nat) (seq : Word) (timeoutUs : Nat) : Bytes :=
  let c := { c with rsvFlags := 0, rsvByte := 0, rsvTail := 0 }
  let c' : Cmd := { c with inl := true, hops := rest, pathLen := rest.length, seq := seq, timeoutUs := BitVec.ofNat 32 timeoutUs }
  headerBytes op c' ++ toLe 4 (cmdCrc op c') ++ c.payload.take c.payloadLen

/-- The SEQ of the next command that leaves by a stitch port (R54): each takes a new one. -/
def nextFwdSeq (s : State) (p : Nat) : Word := Store.get 0 p s.aq.fwdSeqs

/-- A command has left by a stitch port under its SEQ. -/
def bumpFwdSeq (p : Nat) (s : State) : State := { s with aq := { s.aq with fwdSeqs := Store.upd 0 p (· + 1) s.aq.fwdSeqs } }

/-- Make a forwarding entry; one whose tag is TIMED_OUT gives its place up (R50, R54). -/
def putFwd (e : FwdEntry) (s : State) : State := { s with fwd := s.fwd.filter (fun x => x.num != e.num) ++ [e] }

/-- Carry a command on towards another member: a forwarding entry and a CMD frame, or the answer of R54, R55 and
R387 when there is none to be had. -/
def carry (op : OpInfo) (c : Cmd) (r : CmdRef) (m : Nat) (rest : List Nat) (s : State) : State × Option Answer :=
  let ns := (timeLeft (movesOf s c) (remainingNs s r)).getD 0
  if 4096 < c.payloadLen then (s, some (err stBadLength 0))
  else match routeTo s m with
    | none => (s, some (err stBadPath 0))
    | some p =>
      if ns < 2200 then (s, some (err stTimeout 0))
      else match freeFwd s with
        | none => (s, some (err stBusy 0))
        | some n =>
          let seq := nextFwdSeq s p
          let body := crossing op.code c rest seq (forwardTimeout ns)
          let e : FwdEntry := { num := n, origin := r, outAddr := (op.outOff.map fun o => fld c.payload o 8).getD 0, port := some p,
                                outSeq := seq, idem := c.idem, body := body, member := m, since := s.time.t,
                                remainUs := forwardTimeout ns }
          (sendFrame p uCmd body (putFwd e (bumpFwdSeq p s)), none)

/-! ## The shared checks and the run of a command -/

/-- The sequence window's verdict on a SEQ (R46): none when it is new, else the DUPLICATE answer. -/
def window (st : ChanSt) (seq : Word) : Option Answer :=
  match st.last with
  | none => none
  | some h =>
    let d := (h - seq).toNat
    if 0x80000000 ≤ d then none
    else if d < 64 then
      match st.cache.find? (fun q => decide (q.1 = seq)) with
      | some (_, a) => some { status := stDuplicate, detail := a.status, r0 := a.r0, r1 := a.r1 }
      | none =>
        if st.running.any (fun q => decide (q.ref.seq = seq)) then some { status := stDuplicate, detail := 0xFF }
        else some { status := stDuplicate, detail := 0xFE }
    else some { status := stDuplicate, detail := 0xFE }

/-- An earlier command of the channel holds this one off (R37): one that has not started, since commands start in acceptance order; one of
the same class and target unit; or any under FENCE. -/
def heldOff (st : ChanSt) (cls unit : Nat) (fence : Bool) (seq : Word) : Bool :=
  (st.running.takeWhile fun q => !(decide (q.ref.seq = seq))).any fun q => q.stage == 0 || fence || (opClass q.ref.op == cls && q.ref.unit == unit)

/-- The command's payload can be staged (R44, R254): a Cistern buffer of owner 1,058 takes it, the reserve included (R166, R250). Before a pool
layout is loaded there are no buffers and a payload needs none, and it is given back when the command has been read (DESIGN CHOICE, unsafe: log 47). -/
def staged (c : Cmd) (s : State) : Bool :=
  c.payloadLen == 0 || decide (65536 < c.payloadLen) || (takeHold c.payloadLen ownFw true s).isSome

/-- What an executing unit is given: where its reply goes and which unit it is. -/
abbrev Body := CmdRef → Target → Cmd → State → State × Option Answer

/-- Reading of a VF ring (R161): the opcode is one it may carry and the path is empty. -/
def vfAllowed (op : OpInfo) (c : Cmd) : Bool := op.vf && decide (c.pathLen = 0)

/-- The channel is a virtual function's admin ring. -/
def onVfRing : Chan → Bool
  | .admin f => isVf f
  | _ => false

/-- An open channel that does not carry the opcode (R70). -/
def openRefused (op : OpInfo) : Chan → Bool
  | .mailbox n => decide (n < 4) && !openOps.contains op.code
  | _ => false

/-- The units of the opcode's class are absent (R4). -/
def classAbsent (op : OpInfo) (s : State) : Bool :=
  match op.cap with
  | some b => !bit (capUnits s) b
  | none => false

/-- Checks 4 to 8 of R45, in their order; none when all pass. -/
def checks (op : OpInfo) (t : Target) (c : Cmd) (s : State) : Option Answer :=
  let core := opClass op.code == 1
  if t = .noUnit then some (err stNoUnit 0)
  else if classAbsent op s then some (err stNoUnit 0)
  else if t.isAquifer && !(core || opClass op.code == 7 || opClass op.code == 8 || opClass op.code == 9 || opClass op.code == 0xF)
    then some (err stBadPath 9)
  else if !core && t != .device && !t.isAquifer then some (err stBadOpcode 0)
  else if !op.known then some (err stBadOpcode 0)
  else if (c.inl && decide (4096 < c.payloadLen)) || decide (65536 < c.payloadLen) || !op.len c then some (err stBadLength 0)
  else if onVfRing c.chan && !vfAllowed op c then some (err stDenied 4)
  else if op.noPath && c.pathLen != 0 then some (err stBadPath 0)
  else if op.priv && !hasPriv s c.chan then some (err stDenied 3)
  else if openRefused op c.chan then some (err stDenied 0)
  else if !op.modes.contains s.mode then some (err stState (op.modeDetail c))
  else if op.gated && s.transit.any (·.gate) then some (err stBusy 0)
  else none

/-- Commands a gateway carries to every member (R395): classes 0x07, 0x08 and 0x09. -/
def groupClass (op : Nat) : Bool := opClass op == 7 || opClass op == 8 || opClass op == 9

/-- The members that a command addressed to the aquifer at a level is carried to: every one but this device, at that level and below. -/
def otherMembers (s : State) (l : Nat) : List Nat :=
  (s.aq.members.map (·.1)).filter fun k => decide (k / 64 ≤ l) && !(ownKeys s).contains k

/-- The index at a level of the member this device belongs to. -/
def ownBit (s : State) (l : Nat) : Nat := ((levelAt s l).map (·.index)).getD 0

/-- The bit and index under which a member counts at the addressed level: one of a lower level counts as the member it belongs to. -/
def memberBit (g : GroupOp) (k : Nat) : Nat := if k / 64 = g.level then k % 64 else g.ownBit

/-- The mask of some members. -/
def memberMask (g : GroupOp) (l : List Nat) : Nat := ((l.map (memberBit g)).eraseDups.map fun b => 2 ^ b).sum

/-- The reply of a group entry when every member has answered (R245, R395, R399): OK, or the lowest-indexed failure with the mask of
those that failed; a COMMIT that ran carries the highest RESULT1. -/
def groupAnswer (g : GroupOp) : Answer :=
  match (g.failed.map fun x => memberBit g x.1).min? with
  | none => { status := stOk, r0 := g.r0, r1 := g.best, out := g.out, outAddr := g.outAddr }
  | some m =>
    let a := ((g.failed.find? fun x => memberBit g x.1 == m).map (·.2)).getD {}
    if g.ref.op = 0x0803 ∧ a.status ≠ stLinkLost then { a with r1 := g.best } else { a with r1 := memberMask g (g.failed.map (·.1)) }

/-- A member's record. -/
def memberAt (s : State) (k : Nat) : Member := Store.get {} k s.aq.members

/-- Operations of the gateway that report the mode of the aquifer (R17, R57, R58): it asks every other member by a MODE_GET of its own and keeps
what each last answered (DESIGN CHOICE, unsafe: log 20). -/
def asksModes (op : Nat) : Bool := op == 0x0101 || op == 0x0103

/-- Mode of the aquifer at a level and those below it: NOT_UNIFORM when its members differ (R17). -/
def aquiferMode (s : State) (l : Nat) : Nat :=
  let others := (otherMembers s l).map fun k => (memberAt s k).mode
  if others.all (fun m => m == s.mode.code) then s.mode.code else 7

/-- The answer of MODE_GET or IDENTIFY at an aquifer once its members have said their modes: the own answer with the aquifer's mode in it. -/
def modesAnswer (s : State) (g : GroupOp) : Answer :=
  let m := aquiferMode s g.level
  if g.ref.op = 0x0103 then ok (m * 17) 0
  else
    let b := g.out.take 1 ++ toLe 1 m ++ (g.out.drop 2).take 58
    { status := stOk, r0 := g.r0, r1 := g.best % 2 ^ 24 + 2 ^ 24 * m, out := b ++ toLe 4 (crc32c b), outAddr := g.outAddr }

/-- The reply of a group entry. -/
def groupReply (s : State) (g : GroupOp) : Answer := if asksModes g.ref.op then modesAnswer s g else groupAnswer g

/-- Carry a command to every other member, under one group entry; `own` is this device's own answer (R395). -/
def carryAll (op : OpInfo) (c : Cmd) (r : CmdRef) (l : Nat) (own : Answer) (s : State) : State × Option Answer :=
  let (s, waiting, failed) := (otherMembers s l).foldl (fun (t : State × List Nat × List (Nat × Answer)) m =>
    match carry op c r m [] t.1 with
    | (u, none) => (u, t.2.1 ++ [m], t.2.2)
    | (u, some a) => (u, t.2.1, t.2.2 ++ [(m, a)])) (s, [], if own.status = stOk then [] else [(s.aq.index, own)])
  let g : GroupOp := { num := s.aq.nextNum, ref := r, waiting := waiting, failed := failed, best := own.r1, r0 := own.r0, level := l, ownBit := ownBit s l,
                          out := own.out, outAddr := own.outAddr }
  if waiting.isEmpty then (s, some (groupReply s g))
  else ({ s with aq := { s.aq with nextNum := s.aq.nextNum + 1, ops := s.aq.ops ++ [g] } }, none)

/-- An answer's output is more than a stitch link takes back (R387): 4,096 bytes. -/
def tooMuchBack (ch : Chan) (a : Answer) : Bool :=
  match ch with
  | .link _ => decide (4096 < a.out.length)
  | _ => false

/-- What a command that came over a stitch link may do (R387): an output of more than 4,096 bytes answers BAD_LENGTH, and nothing is executed. -/
def crossesBack (ch : Chan) (s : State) (o : State × Option Answer) : State × Option Answer :=
  if o.2.any (tooMuchBack ch) then (s, some (err stBadLength 0)) else o

/-- Execute a command whose checks have passed, at the unit it names. -/
def execute (op : OpInfo) (body : Body) (r : CmdRef) (t : Target) (c : Cmd) (s : State) : State :=
  let k := movesOf s c
  let (s, a) :=
    -- every forwarding unit on the way takes its share of the time-out and needs an entry
    if (timeLeft k (remainingNs s r)).isNone then (s, some (err stTimeout 0))
    else if 0 < k ∧ 256 < (s.fwd.filter fun x => !x.timedOut).length + k then (s, some (err stBusy 0))
    else match t with
    | .badPath => (s, some (err stBadPath 0))
    | .member m rest =>
      -- the unit that reads the command answers for its own channel's privilege before it carries it on
      if onVfRing c.chan then (s, some (err stDenied 4))
      else if op.noPath then (s, some (err stBadPath 0))
      else if op.priv && !hasPriv s c.chan then (s, some (err stDenied 3))
      else if openRefused op c.chan then (s, some (err stDenied 0))
      else carry op c r m rest s
    | t =>
      match checks op t c s with
      | some a => (s, some a)
      | none =>
        if t.isAquifer && groupClass op.code && op.code != 0x0803 then
          let (s, a) := body r .device c s
          carryAll op c r t.level (a.getD (ok 0 0)) s
        else if t.isAquifer && asksModes op.code then
          let (s, a) := body r t c s
          let own := a.getD (ok 0 0)
          if own.status ≠ stOk then (s, a) else carryAll { code := 0x0103 } { c with payload := [], payloadLen := 0 } r t.level own s
        else crossesBack c.chan s (body r t c s)
  match a with
  | some a => reply r a s
  | none => markStage r 1 s

/-- Record a command as accepted: H moves to its SEQ, it runs, its packet is kept until it starts, and its unit counts it (R36, R37, R46, R58). -/
def accept (r : CmdRef) (c : Cmd) (s : State) : State :=
  let s := updChan r.chan (fun st => { st with
    last := some r.seq
    running := st.running.filter (fun q => !(decide (q.ref.seq = r.seq))) ++
      [{ ref := r, stage := 0, since := s.time.t, timeoutUs := timeoutOf c, held := some c }] }) s
  { s with accepted := Store.upd 0 r.unit (· + 1) s.accepted }

/-- Report to the channel that its command was accepted: the ring's completion, or the notice's acknowledgement
(R67, R313). -/
def reportAccepted (ch : Chan) (seq : Word) (s : State) : State :=
  match ch with
  | .admin f => ringDone f seq qOk 0 s
  | ch => ackNotice ch 0 s

/-- A command whose CRC failed (R40): no reply, no SEQ, CMD_BAD_CHECK, and the channel's error path: the ring's
completion MALFORMED with detail 0x12, or return code 0x0012. On the sideband transport and on a stitch link, for which R40 names no error path,
it is counted and nothing is reported (DESIGN CHOICE, unsafe: log 20). -/
def badCheck (ch : Chan) (seq : Word) (s : State) : State :=
  let s := count (cDev 0) s
  match ch with
  | .admin f => ringDone f seq qMalformed 0x12 s
  | ch => ackNotice ch 0x12 s

/-- The reference under which a command runs and is answered: its channel, its SEQ, and the unit it names (R36, R42, R54). -/
def refAt (op : OpInfo) (c : Cmd) (s : State) : CmdRef :=
  { chan := c.chan, seq := c.seq, op := op.code, resp := c.respAddr, unit := unitCode (targetOf s c), remote := decide (0 < movesOf s c) }

/-- The command is accepted, not started, and held off no longer (R37). -/
def startsNow (op : OpInfo) (c : Cmd) (s : State) : Bool :=
  let st := chanSt s c.chan
  (st.running.any fun q => decide (q.ref.seq = c.seq) && q.stage == 0 && q.ref.op == op.code && decide (q.held = some c)) &&
    !heldOff st (opClass op.code) (unitCode (targetOf s c)) c.fence c.seq

/-- A command packet arrives on a channel of its own (R36, R39, R40, R46): without a reply credit it is left where it is; a bad one is reported;
a new one is accepted, and starts unless an earlier one holds it off; any other is a duplicate. A duplicate's reply is formed anew with the REMOTE
bit of the packet that is answered (DESIGN CHOICE, unsafe: log 20). -/
def takeCommand (op : OpInfo) (body : Body) (c : Cmd) (s : State) : State :=
  let st := chanSt s c.chan
  let r := refAt op c s
  let t := targetOf s c
  if replyCredits s c.chan 0 = 0 then s
  else if !cmdGood op.code c then badCheck c.chan c.seq s
  else match window st c.seq with
    | none =>
      let s := reportAccepted c.chan c.seq (accept r c s)
      if heldOff (chanSt s c.chan) (opClass op.code) r.unit c.fence c.seq then s
      else if !staged c s then reply r (err stRetry 0) s
      else execute op body r t c s
    | some dup => deliverReply r dup (reportAccepted c.chan c.seq s)

/-- Run one command packet (R35 to R55): the meaning every opcode row shares. An accepted command whose start was held off starts when its packet
is presented again, whether or not its channel shows it still (DESIGN CHOICE, unsafe: log 20); a channel the device does not read leaves any
other command where it is. An inner command is the one its FORWARD carried: its CRC was checked there, and it has no SEQ of its own (R56). -/
def runCommand (op : OpInfo) (body : Body) (c : Cmd) (s : State) : State :=
  match c.chan with
  | .fwd e =>
    if s.fwd.any fun x => x.num == e && x.inner && decide (parseCmd c.chan x.body = (op.code, c)) then
      execute op body (refAt op c s) (targetOf s c) c { s with accepted := Store.upd 0 (unitCode (targetOf s c)) (· + 1) s.accepted }
    else s
  | _ =>
    if startsNow op c s then execute op body (refAt op c s) (targetOf s c) c s
    else if !readable s c.chan then s
    else takeCommand op body c s

/-- A payload field of `n` bytes at offset `o`. -/
def arg (c : Cmd) (o n : Nat) : Nat := fld c.payload o n

/-- A body that answers at once. -/
def answer (f : Target → Cmd → State → State × Answer) : Body := fun _ t c s =>
  let (s, a) := f t c s
  (s, some a)

/-- A body that only reads the state. -/
def readBody (f : Target → Cmd → State → Answer) : Body := fun _ t c s => (s, some (f t c s))

/-! ## The end of every command -/

/-- End a DORMANT entry that a wake event has overtaken: the device stays in its mode and the MODE_SET answers
ABORTED with DETAIL 2 (R31). -/
def abandonEntry (s : State) : State :=
  match s.transit with
  | some x =>
    if x.abandon then
      let s := { s with transit := none }
      match x.ref with
      | some r => replyIfRunning r (err stAborted 2) s
      | none => s
    else s
  | none => s

/-- The same for a change to DORMANT that waits for its AT_TIME. One of a group ends at the group's instant. -/
def abandonArmed (s : State) : State :=
  match s.armedMode with
  | some a =>
    if a.abandon && a.cause != 5 then
      let s := { s with armedMode := none }
      match a.ref with
      | some r => replyIfRunning r (err stAborted 2) s
      | none => s
    else s
  | none => s

/-- The reset that a reply announced (R59, R400), or the end of an overtaken DORMANT entry (R31): of the one under way, of the one that waits, and
of one under way that the second answer's own events overtake. -/
def endDue (s : State) : State :=
  match s.boot.resetDue with
  | some st => resetDevice 2 st s
  | none => abandonEntry (abandonArmed (abandonEntry s))

/-- What follows every command: admin rings are read on (R36), the watermarks look at their levels (R273), what is due ends, and the INTx lines
follow their conditions (R127). -/
def settle (s : State) : State := intxAll (endDue (wmCheck (readOn s)))

/-- The outcome of a command that leaves the device in a state: every command does. -/
def done (s : State) : Host.Outcome State Fault Refusal := .next (settle s)

/-- A posted write from a host function to a register with a row of its own: ignored in DRY (R460), discarded and counted
on a frozen link (R138) and in DORMANT (R142), and ignored from a function that is not live (R148). -/
def onHostWrite (fn : Nat) (k : State → State) (s : State) : State :=
  if s.mode = .dry then s
  else if frozen s fn then count (cDev 6) s
  else if s.mode = .dormant then count (cDev 8) s
  else if !live s fn then s
  else k s

end Sys2Proof.Machine
end

