-- ==== Sys2Proof/Machine/Cistern.lean ====
section
/-! DEFINITION. The Cistern: FORFEIT, the silt audit and pool layouts (R249, R257 to R259), and the opcodes of class 0x0A (R272, R275). -/

namespace Sys2Proof.Machine

open Sys2Proof

/-! ## FORFEIT and the silt audit (R257 to R259) -/

/-- Take one buffer for another owner: charge and generation move, LO_FREED is set (R258). -/
def takeBuf (n owner : Nat) (s : State) : State :=
  updBuf n (fun b => { b with owner := owner, gen := genOf s owner, loHolder := none, loFreed := true }) s

/-- FORFEIT of an owner to another (R258): how many buffers were taken, and the state. -/
def forfeit (owner dest : Nat) (takeAll : Bool) (s : State) : Nat × State :=
  let l := s.cis.bufs.filter fun b => b.owner == owner && (takeAll || orphaned s b)
  (l.length, l.foldl (fun t b => takeBuf b.num dest t) s)

/-- Age bin of a buffer (R259). -/
def ageBin (s : State) (b : Buf) : Nat :=
  let ns := (s.time.t - b.born) / 65536
  if ns < 1000000 then 0 else if ns < 10000000 then 1 else if ns < 100000000 then 2 else 3

/-- The audit's record of an owner (R259). -/
def siltOf (s : State) (o : Nat) : SiltRec :=
  let l := s.cis.bufs.filter fun b => b.owner == o
  { outstanding := l.length, bins := if l.isEmpty then [] else (List.range 4).map fun k => (l.filter fun b => ageBin s b == k).length }

/-- The audit refreshes every owner's record, and reclaims old orphans when enabled (R259). -/
def siltRefresh (s : State) : State :=
  let s :=
    if s.cis.reclaim then
      (s.cis.bufs.filter fun b => orphaned s b && decide (s.cis.reclaimMs * 1000000 < (s.time.t - b.born) / 65536)).foldl
        (fun t b => count (cDev 43) (raise 768 0 (takeBuf b.num ownFw t))) s
    else s
  let owners := (s.cis.bufs.map (·.owner)).eraseDups
  { s with cis := { s.cis with silt := owners.foldl (fun st o => Store.set {} o (siltOf s o) st) [] } }

/-! ## Pool layout (R249) -/

/-- Read a 128-byte pool layout record (R249): 0xFFFF_FFFF selects a reserve of one buffer in a hundred, rounded up. -/
def readLayout (b : Bytes) : List (Nat × Nat) :=
  (List.range 8).map fun i =>
    let c := fld b (16 * i) 4
    let r := fld b (16 * i + 4) 4
    (c, if r = 0xFFFFFFFF then (c + 99) / 100 else r)

/-- Bytes a layout lays out. -/
def layoutBytes (l : List (Nat × Nat)) : Nat := ((List.range 8).map fun i => (l.getD i (0, 0)).1 * poolSize i).sum

/-- The first pool that breaks a rule of R249, walking from pool 0 with a running total. -/
def layoutBad (l : List (Nat × Nat)) : Option Nat :=
  (List.range 8).find? fun i =>
    decide ((l.getD i (0, 0)).1 < (l.getD i (0, 0)).2) ||
    decide (100663296 < ((List.range (i + 1)).map fun j => (l.getD j (0, 0)).1 * poolSize j).sum)

/-- Load a layout: every buffer is freed and every charge ends (R249). The least free counts go on from what they were (R275); while there was no
layout there was no pool to count in (DESIGN CHOICE, unsafe: log 6). -/
def loadLayout (l : List (Nat × Nat)) (s : State) : State :=
  let old := s.cis.layout
  let s := { s with cis := { s.cis with layout := l, bufs := [] } }
  let least (i : Nat) : Nat := if old.isEmpty then poolOutside s i else min (s.cis.least.getD i 0) (poolOutside s i)
  wmCheck { s with cis := { s.cis with least := (List.range 8).map least } }

/-! ## Class 0x0A (R275) -/

/-- What the shared checks need to know of POOL_LAYOUT, opcode 0x0A01. -/
def infoPoolLayout : OpInfo := { code := 0x0A01, len := lenIs 128, modes := [.priming], priv := true, gated := true }

/-- POOL_LAYOUT (R249, R275). -/
def execPoolLayout (c : Cmd) (s : State) : Host.Outcome State Fault Refusal :=
  done (runCommand infoPoolLayout
    (answer fun _ c s => let l := readLayout c.payload; (loadLayout l s, ok (layoutBytes l) 0)) c s)

/-- Set a quota; false for an owner outside 1,026 to 1,058 (R275). -/
def setQuota (owner kib : Nat) (s : State) : State :=
  wmCheck { s with cis := { s.cis with quotas := Store.set 0xFFFFFFFF owner kib s.cis.quotas } }

/-- What the shared checks need to know of QUOTA_SET, opcode 0x0A02. -/
def infoQuotaSet : OpInfo := { code := 0x0A02, len := lenIs 8, modes := [.priming], priv := true, gated := true }

/-- QUOTA_SET (R252, R275). -/
def execQuotaSet (c : Cmd) (s : State) : Host.Outcome State Fault Refusal :=
  done (runCommand infoQuotaSet
    (answer fun _ c s =>
      let o := arg c 0 4
      if o < 1026 ∨ 1058 < o then (s, err stBadLength 0) else (setQuota o (arg c 4 4) s, ok 0 0)) c s)

/-- What the shared checks need to know of OWNER_QUERY, opcode 0x0A03. -/
def infoOwnerQuery : OpInfo := { code := 0x0A03, len := lenIs 8, modes := modesRead }

/-- OWNER_QUERY (R275). -/
def execOwnerQuery (c : Cmd) (s : State) : Host.Outcome State Fault Refusal :=
  done (runCommand infoOwnerQuery
    (readBody fun _ c s =>
      let o := arg c 0 8
      if 1058 < o then err stBadLength 0
      else ok (chargeOf s o % 2 ^ 48 + 2 ^ 48 * genOf s o)
        (quotaOf s o + 2 ^ 32 * (s.cis.bufs.filter fun b => b.owner == o && orphaned s b).length)) c s)

/-- The owner that FORFEIT moves buffers to: the issuing manager's physical function, or firmware for the sideband
transport, which belongs to none (R258). -/
def forfeitTo (s : State) (ch : Chan) : Nat :=
  match ch with
  | .admin f => pfOf f
  | ch => match chanFn s ch with
    | some f => pfOf f
    | none => ownFw

/-- What the shared checks need to know of FORFEIT, opcode 0x0A04. -/
def infoForfeit : OpInfo := { code := 0x0A04, len := lenIs 8, modes := modesRead, priv := true, gated := true }

/-- FORFEIT (R258, R275). -/
def execForfeit (c : Cmd) (s : State) : Host.Outcome State Fault Refusal :=
  done (runCommand infoForfeit
    (answer fun _ c s =>
      let o := arg c 0 8
      if 1058 < o then (s, err stBadLength 0)
      else
        let (n, s) := forfeit o (forfeitTo s c.chan) (decide (o < 1026) && !(funcOf s o).created) s
        (s, ok n 0)) c s)

/-- The 32-byte SILT_READ record of an owner (R275). -/
def siltBytes (s : State) (o : Nat) : Bytes :=
  let r := Store.get {} o s.cis.silt
  toLe 2 o ++ toLe 2 (genOf s o) ++ toLe 4 r.outstanding ++
    ((List.range 4).map fun k => toLe 4 (r.bins.getD k 0)).flatten ++ zeros 8

/-- What the shared checks need to know of SILT_READ, opcode 0x0A05. -/
def infoSiltRead : OpInfo := { code := 0x0A05, len := lenIs 16, modes := modesRead, outOff := some 8 }

/-- SILT_READ (R259, R275). -/
def execSiltRead (c : Cmd) (s : State) : Host.Outcome State Fault Refusal :=
  done (runCommand infoSiltRead
    (readBody fun _ c s =>
      let f := arg c 0 2
      let n := arg c 2 2
      if n = 0 ∨ 256 < n ∨ 4096 < f + n then err stBadLength 0
      else okOut n 0 (arg c 8 8) ((List.range n).map fun i => siltBytes s (f + i)).flatten) c s)

/-- What the shared checks need to know of SILT_RECLAIM, opcode 0x0A06. -/
def infoSiltReclaim : OpInfo := { code := 0x0A06, len := lenIs 8, priv := true, gated := true }

/-- SILT_RECLAIM (R259, R275). -/
def execSiltReclaim (c : Cmd) (s : State) : Host.Outcome State Fault Refusal :=
  done (runCommand infoSiltReclaim
    (answer fun _ c s =>
      let ms := arg c 4 4
      if ms = 0 ∨ 3600000 < ms then (s, err stBadLength 0)
      else ({ s with cis := { s.cis with reclaim := bit (arg c 0 1) 0, reclaimMs := ms } }, ok 0 0)) c s)

/-- SILT_AUDIT_REFRESH (R259). In DRY nothing is audited. -/
def execSiltAuditRefresh (s : State) : Host.Outcome State Fault Refusal :=
  done (if s.mode = .dry ∨ s.mode = .dormant then s else siltRefresh s)

/-- What the shared checks need to know of POOL_STATUS, opcode 0x0A07. -/
def infoPoolStatus : OpInfo := { code := 0x0A07, len := lenIs 8, modes := modesRead, outOff := some 0 }

/-- POOL_STATUS (R275). -/
def execPoolStatus (c : Cmd) (s : State) : Host.Outcome State Fault Refusal :=
  done (runCommand infoPoolStatus
    (answer fun _ c s =>
      let out := ((List.range 8).map fun i => toLe 4 (poolOutside s i) ++ toLe 4 (min (poolFree s i) (poolReserve s i)) ++
        toLe 4 (s.cis.least.getD i 0) ++ zeros 4).flatten
      ({ s with cis := { s.cis with least := if s.cis.layout.isEmpty then [] else (List.range 8).map (poolOutside s) } },
        okOut 0 0 (arg c 0 8) out)) c s)

/-- A write to WM_SRC or WM_THRESH re-arms the slot and clears CROSS_COUNT (R272). Reserved bits are dropped. -/
def wmWrite (n : Nat) (src thresh : Option Word) (s : State) : State :=
  let g (w : Wm) : Wm := { w with
    src := match src with
      | some v => v &&& 0xF800FFFF#32
      | none => w.src
    thresh := match thresh with
      | some v => v
      | none => w.thresh
    above := false, count := 0 }
  wmSlot n { s with cis := { s.cis with wms := Store.upd {} n g s.cis.wms } }

/-- What the shared checks need to know of WM_SET, opcode 0x0A08. -/
def infoWmSet : OpInfo := { code := 0x0A08, len := lenIs 16, priv := true, gated := true }

/-- WM_SET (R272, R275): HYST_PCT is 0 to 100 and KIND 0 to 7. -/
def execWmSet (c : Cmd) (s : State) : Host.Outcome State Fault Refusal :=
  done (runCommand infoWmSet
    (answer fun _ c s =>
      let n := arg c 0 4
      if 63 < n ∨ 7 < arg c 4 4 / 2 ^ 28 ∨ 100 < arg c 8 4 / 2 ^ 24 then (s, err stBadLength 0)
      else (wmWrite n (some (BitVec.ofNat 32 (arg c 4 4))) (some (BitVec.ofNat 32 (arg c 8 4))) s, ok 0 0)) c s)

/-- What the shared checks need to know of WM_READ, opcode 0x0A09. -/
def infoWmRead : OpInfo := { code := 0x0A09, len := lenIs 8, modes := modesRead }

/-- WM_READ (R275). -/
def execWmRead (c : Cmd) (s : State) : Host.Outcome State Fault Refusal :=
  done (runCommand infoWmRead
    (answer fun _ c s =>
      let n := arg c 0 4
      if 63 < n then (s, err stBadLength 0)
      else
        let w := Store.get {} n s.cis.wms
        let a := ok (wmLive s w + 2 ^ 32 * b2n w.crossed + 2 ^ 33 * b2n w.above) w.count
        let s := if bit (arg c 4 4) 0 then { s with cis := { s.cis with wms := Store.set {} n { w with crossed := false, count := 0 } s.cis.wms } } else s
        (s, a)) c s)

/-- WM_STATUS of a slot (R272). -/
def wmStatus (w : Wm) : Nat := min 0xFFFF w.count * 65536 + 2 * b2n w.above + b2n w.crossed

end Sys2Proof.Machine
end

