-- ==== Sys2Proof/Machine/Pause.lean ====
section
/-! DEFINITION. Frames on a line port's wire, and pause: received pause and PFC frames, the pause watchdog (R173, R174),
and the pause the device sends as ingress occupancy crosses its marks (R271). -/

namespace Sys2Proof.Machine

open Sys2Proof

/-- Mb/s of a lane's signalling rate code (R168, R186). -/
def laneMbps (r : Nat) : Nat := [25000, 50000, 100000, 200000].getD r 0

/-- The rate of a port in Mb/s: its lanes in use times their rate (R168). -/
def portMbps (p : PortSt) : Nat := (if p.cfg.mode = 2 ∧ p.width ≠ 0 then p.width else p.cfg.lanes) * laneMbps p.cfg.rate

/-- `b` bits at `mbps`, in 2^-16 ns. -/
def bitTime (b mbps : Nat) : Nat := if mbps = 0 then 0 else b * 65536 * 1000 / mbps

/-- A port that runs Ethernet and may send: link up, in service (R19, R107). -/
def lineUp (s : State) (port : Nat) : Bool :=
  let p := portAt s port
  decide (p.cfg.mode = 1) && p.up && inService s

/-- MAC padding to 60 bytes (R170). -/
def padFrame (b : Bytes) : Bytes := b ++ zeros (60 - b.length)

/-- Count a frame on transmit: TX_FRAMES and TX_BYTES, the FCS included (R171, R445). -/
def countTx (port len : Nat) (s : State) : State := countBy (cPort port 3) (len + 4) (count (cPort port 2) s)

/-- Count a frame on receive. -/
def countRx (port len : Nat) (s : State) : State := countBy (cPort port 1) (len + 4) (count (cPort port 0) s)

/-- The state of one priority of a port. -/
def heldAt (s : State) (port prio : Nat) : Held := Store.get {} prio (portAt s port).held

/-- Change the state of one priority of a port. -/
def updHeld (port prio : Nat) (g : Held → Held) (s : State) : State :=
  updPort port (fun p => { p with held := Store.upd {} prio g p.held }) s

/-- A priority of a port is held by pause (R173, R174). -/
def prioHeld (s : State) (port prio : Nat) : Bool :=
  let h := heldAt s port prio
  h.on && !h.tripped && decide (s.time.t < h.upTo)

/-! ## Received pause (R173, R174) -/

/-- One quanta value for one priority: a non-zero one holds it, zero releases it and ends a watchdog trip. While the
watchdog has tripped, a non-zero one is only remembered. -/
def pauseOne (port prio quanta : Nat) (s : State) : State :=
  let dt := bitTime (quanta * 512) (portMbps (portAt s port))
  updHeld port prio (fun h =>
    if quanta = 0 then { h with on := false, tripped := false, upTo := 0 }
    else if h.tripped then { h with lastPause := s.time.t }
    else
      let still := h.on && decide (s.time.t < h.upTo)
      { h with on := true, upTo := s.time.t + dt, lastPause := s.time.t, since := if still then h.since else s.time.t }) s

/-- A MAC control frame the device takes as pause or PFC, by its Ethernet type and opcode. -/
def isPauseFrame (b : Bytes) : Bool :=
  fldBe b 12 2 == 0x8808 && (fldBe b 14 2 == 0x0001 || fldBe b 14 2 == 0x0101)

/-- Honour a pause or PFC frame (R173): only the kind the port runs, and only with FC_RX. -/
def pauseHonour (port : Nat) (b : Bytes) (s : State) : State :=
  let c := (portAt s port).cfg
  let s := count (cPort port 24) s
  if !c.fcRx then s
  else if fldBe b 14 2 = 0x0001 ∧ !c.pfc then (List.range 8).foldl (fun t k => pauseOne port k (fldBe b 16 2) t) s
  else if fldBe b 14 2 = 0x0101 ∧ c.pfc then
    (List.range 8).foldl (fun t k =>
      if bit (fldBe b 16 2) k && c.pfcEnable.getLsbD k then pauseOne port k (fldBe b (18 + 2 * k) 2) t else t) s
  else s

/-! ## Sending -/

/-- Put a frame on a port's wire, as the port's loopback mode has it (R180): not sent in mode 1. -/
def wireOut (port : Nat) (b : Bytes) (badFcs : Bool) (s : State) : State :=
  let s := countTx port (padFrame b).length s
  if (portAt s port).lb = 1 then s else emit (.lineFrame port (padFrame b) badFcs) s

/-- Send one pause frame for a priority with a quanta value (R173, R271): the transmitter is no longer idle (R175). Looped back, it reaches the port's own
receiver, which consumes it. -/
def sendPause (port prio quanta : Nat) (s : State) : State :=
  let c := (portAt s port).cfg
  let hdr := toBe 6 0x0180C2000001 ++ toBe 6 (Config.portMac port).toNat ++ toBe 2 0x8808
  let b := if c.pfc then
      hdr ++ toBe 2 0x0101 ++ toBe 2 (2 ^ prio) ++ ((List.range 8).map fun k => toBe 2 (if k = prio then quanta else 0)).flatten
    else hdr ++ toBe 2 0x0001 ++ toBe 2 quanta
  let s := wireOut port b false (count (cPort port 25) s)
  let s := updPort port (fun p => { p with lpiOn := false, idleSince := s.time.t }) s
  if (portAt s port).lb = 1 ∨ (portAt s port).lb = 2 then pauseHonour port (padFrame b) (countRx port (padFrame b).length s) else s

/-- Ingress occupancy of a port and priority in bytes (R271). -/
def ingressBytes (s : State) (port prio : Nat) : Nat :=
  (s.cis.bufs.filter fun b => b.ingress == some (port, prio)).foldl (fun a b => a + poolSize b.pool) 0

/-- Pause may be generated for a priority: FC_TX, and under PFC the priority enabled. -/
def pauseGen (s : State) (port prio : Nat) : Bool :=
  let c := (portAt s port).cfg
  lineUp s port && c.fcTx && (!c.pfc || c.pfcEnable.getLsbD prio)

/-- Compare the occupancy of a port and priority with its marks: XOFF at XOFF_KIB, XON below XON_KIB (R271). -/
def pauseCheckOne (port prio : Nat) (s : State) : State :=
  if !pauseGen s port prio then s
  else
    let h := heldAt s port prio
    let o := ingressBytes s port prio
    if !h.xoff && decide (h.xoffKib * 1024 ≤ o) then
      sendPause port prio 0xFFFF (updHeld port prio (fun h => { h with xoff := true }) s)
    else if h.xoff && decide (o < h.xonKib * 1024) then
      sendPause port prio 0 (updHeld port prio (fun h => { h with xoff := false }) s)
    else s

/-- Compare every port that generates pause. -/
def pauseCheck (s : State) : State :=
  (s.ports.filter fun p => p.2.cfg.fcTx).foldl (fun t p => (List.range 8).foldl (fun u k => pauseCheckOne p.1 k u) t) s

/-! ## The rows -/

/-- PAUSE_EXPIRY: the pause time of a priority runs out (R174). -/
def execPauseExpiry (port prio : Nat) (s : State) : Host.Outcome State Fault Refusal :=
  done (let h := heldAt s port prio
    if !h.on then s else updHeld port prio (fun h => { h with on := false }) (advanceTo h.upTo s))

/-- PAUSE_WATCHDOG: a hold of PAUSE_WD trips the watchdog; a tripped one that has seen no pause frame for PAUSE_WD
honours pause again (R174). -/
def execPauseWatchdog (port prio : Nat) (s : State) : Host.Outcome State Fault Refusal :=
  done (
    let h := heldAt s port prio
    let wd := (portAt s port).cfg.pauseWd * 1000000 * 65536
    if h.tripped then updHeld port prio (fun h => { h with tripped := false, on := false }) (advanceTo (h.lastPause + wd) s)
    else if h.on && decide (h.since + wd ≤ h.upTo) then
      let s := advanceTo (h.since + wd) s
      raise (400 + port) 0 (count (cPort port 11) (updHeld port prio (fun h => { h with tripped := true, on := false }) s))
    else s)

/-- PAUSE_XOFF_REPEAT: half the pause time has passed with the occupancy at or above XON_KIB (R271). -/
def execPauseXoffRepeat (port prio : Nat) (s : State) : Host.Outcome State Fault Refusal :=
  done (
    let h := heldAt s port prio
    if h.xoff && pauseGen s port prio then
      if h.xonKib * 1024 ≤ ingressBytes s port prio then sendPause port prio 0xFFFF s else pauseCheckOne port prio s
    else s)

/-- What the shared checks need to know of PORT_BUF_SET, opcode 0x0905. -/
def infoPortBufSet : OpInfo := { code := 0x0905, len := lenIs 8, priv := true, gated := true }

/-- PORT_BUF_SET (R271, R276): marks take effect at once. -/
def execPortBufSet (c : Cmd) (s : State) : Host.Outcome State Fault Refusal :=
  done (runCommand infoPortBufSet
    (answer fun _ c s =>
      let p := arg c 0 1
      let k := arg c 1 1
      if 15 < p ∨ 7 < k ∨ arg c 2 2 ≤ arg c 4 4 then (s, err stBadLength 0)
      else if laneCount s ≤ p then (s, err stNoUnit 0)
      else (pauseCheckOne p k (updHeld p k (fun h => { h with xoffKib := arg c 2 2, xonKib := arg c 4 4 }) s), ok 0 0)) c s)

end Sys2Proof.Machine
end

