-- ==== Sys2Proof/Machine/RingPlace.lean ====
section
/-! DEFINITION. Packets that end: freed, completed or placed in a host receive queue pair (R241, R253, R261, R298,
R309, R310), and the stop of a queue pair (R314 to R316). -/

namespace Sys2Proof.Machine

open Sys2Proof

/-- The TAGs of a queue pair's frames that are on a line port's wire. -/
def wireTags (s : State) (n : Nat) : List Nat :=
  s.ports.filterMap fun p => p.2.onWire.bind fun k => k.tx.bind fun t => if t.qp = n then some t.tag else none

/-- Remove a queue pair. -/
def removeQp (n : Nat) (s : State) : State := { s with rings := { s.rings with qps := Store.set {} n {} s.rings.qps } }

/-- Complete in TAG order, oldest first, what a stopping queue pair still holds, as far as the first frame that is on a wire (R315): a frame that
has left its wire during the stop as it ended, any other ABORTED. The number completed ABORTED. -/
def abortOutst (n : Nat) : Nat → Nat × State → Nat × State
  | 0, r => r
  | fuel + 1, (k, s) =>
    match (qpAt s n).outst with
    | [] => (k, s)
    | x :: _ =>
      match (qpAt s n).ended.find? fun e => e.1 == x.tag with
      | some (_, st, d, ts) =>
        abortOutst n fuel (k, completeTx x st d ts (updQp n (fun q => { q with ended := q.ended.filter fun e => e.1 != x.tag }) s))
      | none =>
        if (wireTags s n).contains x.tag then (k, s)
        else abortOutst n fuel (k + 1, completeTx x qAborted 0 none s)

/-- A stop that waits for a frame on a wire goes on; with nothing outstanding left the queue pair is stopped, or gone,
and the command answers (R315, R331). -/
def stopStep (n : Nat) (s : State) : State :=
  let q := qpAt s n
  if q.state ≠ 3 then s
  else
    let (k, s) := abortOutst n q.outst.length (q.stopCnt, s)
    if (qpAt s n).outst.isEmpty then
      let s := if q.stopGone then removeQp n s else updQp n (fun q => { q with state := 2, stopBy := none, stopCnt := 0 }) s
      match q.stopBy with
      | some r => replyIfRunning r (ok k 0) s
      | none => s
    else updQp n (fun q => { q with stopCnt := k }) s

/-- A host-sent frame ends (R309): it completes, but while its queue pair stops its completion waits for its TAG's turn (R315). -/
def finishTx (t : TxTag) (status detail : Nat) (ts : Option (Nat × Bool)) (s : State) : State :=
  if (qpAt s t.qp).state = 3 then
    stopStep t.qp (updQp t.qp (fun q => { q with ended := q.ended ++ [(t.tag, status, detail, if t.tsReq then ts else none)] }) s)
  else completeTx t status detail ts s

/-- A packet ends: its hold on its buffer ends, a host-sent frame completes with a status (R309), a stop that waited for it
goes on (R315), and the port's occupancy is looked at again (R271). -/
def endPkt (p : Packet) (status detail : Nat) (ts : Option (Nat × Bool)) (s : State) : State :=
  let s := freePkt p s
  let s := match p.tx with
    | some t => finishTx t status detail ts s
    | none => s
  pauseCheck s

/-- A packet is freed; a host-sent one completes OK unless its chapter gives a status (R307, R309). -/
def dropPkt (p : Packet) (s : State) : State := endPkt p qOk 0 none s

/-- A packet leaves its epoch for a unit that keeps its buffer (R241, R364): a host-sent one completes OK (R309), and it no
longer counts in its port's occupancy (R271). -/
def leaveEpoch (p : Packet) (s : State) : Packet × State :=
  let s := match p.buf with
    | some n => updBuf n (fun b => { b with ingress := none }) s
    | none => s
  let s := match p.tx with
    | some t => finishTx t qOk 0 none s
    | none => s
  ({ p with live := false, tx := none }, pauseCheck s)

/-- The errored flags of a packet: bits 3 to 0 of the MAC flags (R171). -/
def erroredPkt (p : Packet) : Bool := p.macErr % 16 != 0

/-- Receive buffers that a packet of `n` bytes takes, in ring order: none while too few are owned, and the count
17 when it would need more than 16 (R310). -/
def rxTake : Nat → Nat → List RxBuf → Option Nat
  | 0, _, _ => some 17
  | fuel + 1, n, bufs =>
    match bufs with
    | [] => none
    | b :: r => if n ≤ b.len then some (17 - (fuel + 1)) else rxTake fuel (n - b.len) r

/-- Write a packet's bytes into its receive buffers, those from byte `at_` first; poisoned ones go out with EP set (R430). -/
def rxWrite (f : Nat) (p : Packet) : List RxBuf → Nat → State → State
  | [], _, s => s
  | b :: r, at_, s =>
    let d := (p.bytes.drop at_).take b.len
    let bad (o n : Nat) : Bool := match p.buf with
      | some k => poisonedIn s 1 (bufAddr k + at_ + o) n
      | none => false
    rxWrite f p r (at_ + b.len) (if d.isEmpty then s else hostWriteP .rx bad f b.addr d s)

/-- The completion status and detail of a received packet (R198, R430). -/
def rxStatus (poisoned : Bool) (p : Packet) : Nat × Nat :=
  if poisoned then (qPoisoned, 0)
  else if erroredPkt p then (qErrored, p.macErr)
  else if bit p.pflags 1 then (qConflict, 0)
  else if bit p.pflags 0 then (qDepth, 0)
  else (qOk, 0)

/-- Place a packet in the first `k` receive buffers: payload, then the completion in the first buffer's slot; the
other slots are released (R308, R309). -/
def rxPlace (n k : Nat) (p : Packet) (s : State) : State :=
  let q := qpAt s n
  let taken := q.rxBufs.take k
  let bad := pktPoisoned s p
  let s := rxWrite q.fn p taken 0 s
  let s := if bad then poisonConsumed 1 (count (cDev 10) s) else s
  let first := taken.headD {}
  let (st, det) := rxStatus bad p
  let s := updQp n (fun q => { q with
    rxBufs := q.rxBufs.drop k
    outst := q.outst.filter fun o => !(taken.any fun b => b.tag == o.tag)
    reserved := q.reserved - (k - 1) }) s
  let ts := if p.port.isSome || p.stamped then some (p.ts / 65536, p.tsUnlocked) else none
  let s := writeCqe n { tag := first.tag, status := st, ndesc := k, pflags := p.pflags, cls := p.cls, colour := p.colour,
                        len := p.bytes.length, detail := det, ts := ts, user := first.user, hash := p.hash } s
  let s := countBy (cFn q.fn 1) p.bytes.length (count (cFn q.fn 0) s)
  let s := if p.port.isSome then sample 3 n (((s.time.t : Int) - p.ts) / 65536) s else s
  kickQp n (dropPkt p s)

/-- Place the waiting packets of a receive queue pair while owned buffers suffice (R261, R299, R310). -/
def rxDrain (n : Nat) : Nat → State → State
  | 0, s => s
  | fuel + 1, s =>
    let q := qpAt s n
    match q.rxWait with
    | [] => s
    | p :: r =>
      if !inService s || q.state != 1 || (cfgOf s q.fn).flr then s
      else match rxTake 16 p.bytes.length q.rxBufs with
        | none => s
        | some k =>
          let s := updQp n (fun q => { q with rxWait := r }) s
          if 16 < k then rxDrain n fuel (dropPkt p (count (cFn q.fn 12) s))
          else rxDrain n fuel (rxPlace n k p s)

/-- A packet reaches a host receive queue pair at the end of its actions (R133, R138, R172, R204, R253, R261, R298). -/
def rxDeliver (p : Packet) (n : Nat) (s : State) : State :=
  let q := qpAt s n
  if q.state = 0 ∨ q.ty ≠ 1 ∨ !live s q.fn then dropPkt p (count (cDev 21) s)
  else if frozen s q.fn then dropPkt p (count (cDev 7) s)
  else if q.state ≠ 1 ∨ (cfgOf s q.fn).flr then dropPkt p (count (cFn q.fn 13) s)
  else if erroredPkt p && !q.keepErr then dropPkt p s
  else if 64 ≤ q.rxWait.length then dropPkt p (count (cFn q.fn 11) s)
  else
    let (ok, s) := match p.buf with
      | some b => moveCharge b q.fn p.num s
      | none => (true, s)
    if !ok then dropPkt p (count (cFn q.fn 10) s)
    else rxDrain n 65 (updQp n (fun q => { q with rxWait := q.rxWait ++ [p] }) s)

/-! ## Contexts that wait to be freed (R288) -/

/-- A deleted context's keys, derived state and bitmap are zeroed and its function's count gets it back. -/
def ctxErase (k : CtxRec) : CtxRec := { k with key := [], key2 := [], bitmap := 0, deleting := none, doneAfter := 0 }

/-- A context whose CTX_DELETE waits is freed once no unit holds a message of it, and the command answers (R288). -/
def ctxFree (n : Nat) (s : State) : State :=
  let k := Store.get ({} : CtxRec) n s.cipher.ctxs
  match k.deleting with
  | none => s
  | some r =>
    if s.cipher.msgs.any fun m => m.ctx == n then s
    else
      let s := { s with cipher := { s.cipher with ctxs := Store.set {} n (ctxErase k) s.cipher.ctxs } }
      replyIfRunning r (ok k.doneAfter 0) s

/-- Free every context that can be freed now. -/
def ctxFreeAll (s : State) : State :=
  ((s.cipher.ctxs.filter fun x => x.2.deleting.isSome).map (·.1)).foldl (fun t n => ctxFree n t) s

/-! ## Packets wherever they are -/

/-- Packets that the device holds anywhere but on a wire and that `mine` picks leave it: the packets, and the state
without them. Their buffers stay to be released. -/
def purge (mine : Packet → Bool) (s : State) : List Packet × State :=
  let inQ := (s.cis.queues.map fun x => x.2.filter mine).flatten
  let inRx := (s.rings.qps.map fun x => x.2.rxWait.filter mine).flatten
  let inC := s.cipher.msgs.filter (fun m => mine m.pkt) |>.map (·.pkt)
  let gone := inQ ++ inRx ++ inC ++ s.cis.engine.filter mine ++ s.cis.learning.filter mine ++ s.cis.heldJobs.filter mine
  let cis := { s.cis with
    queues := s.cis.queues.foldl (fun st x => Store.upd [] x.1 (List.filter fun p => !mine p) st) s.cis.queues
    engine := s.cis.engine.filter fun p => !mine p
    progs := s.cis.progs.filter fun x => !(s.cis.engine.any fun p => p.num == x.1 && mine p)
    learning := s.cis.learning.filter fun p => !mine p
    heldJobs := s.cis.heldJobs.filter fun p => !mine p }
  let qps := s.rings.qps.map fun x => (x.1, { x.2 with rxWait := x.2.rxWait.filter fun p => !mine p })
  (gone, restNodes (ctxFreeAll { s with cis := cis, rings := { s.rings with qps := qps },
                                        cipher := { s.cipher with msgs := s.cipher.msgs.filter fun m => !mine m.pkt } }))

/-- Every packet the device holds (R241). -/
def allPackets (s : State) : List Packet :=
  (purge (fun _ => true) s).1 ++ s.ports.filterMap fun p => p.2.onWire

/-- Host-sent frames of a queue pair that the device holds anywhere but on a wire leave it (R315): the state without
them, their buffers released, nothing completed. Copies made from them are no part of this. -/
def purgeTx (n : Nat) (s : State) : State :=
  let (gone, s) := purge (fun p => match p.tx with
    | some t => t.qp == n
    | none => false) s
  gone.foldl (fun t p => freePkt p t) s

/-- Fetched frames and buffers of a queue pair leave it, with the Cistern buffers they hold. -/
def dropFetched (n : Nat) (s : State) : State :=
  let q := qpAt s n
  let s := q.frames.foldl (fun t f => match f.buf with
    | some b => updBuf b (freeLast t) t
    | none => t) s
  let s := q.rxWait.foldl (fun t p => dropPkt p (count (cFn q.fn 13) t)) s
  restNodes <| updQp n (fun q => { q with
    frames := [], rxBufs := [], rxWait := [], asm := [], asmFirst := none, fetching := false, asked := 0
    due := if q.latched then entriesTo q q.tail else q.due
    latched := false }) s

/-- What every stop does first (R315): fetching ends, waiting packets and frames that are on no wire are freed. -/
def stopFetch (n : Nat) (s : State) : State := dropFetched n (purgeTx n (endQpReads n s))

/-- Stop a queue pair that has no frame on a wire (R315): every outstanding descriptor completes in TAG order from the oldest. The number
completed ABORTED. One that keeps its state for the next entry to service keeps what is due of its ring too (R299). -/
def stopQp (n : Nat) (keep : Bool) (s : State) : Nat × State :=
  let s := updQp n (fun q => { q with state := 3 }) s
  let (k, s) := abortOutst n (qpAt s n).outst.length (0, stopFetch n s)
  (k, pauseCheck (updQp n (fun q => { q with state := if keep then 1 else 2, due := if keep then q.due else 0 }) s))

/-- QUEUE_STOP and QUEUE_DESTROY of a running data queue pair (R315, R331): the stop lasts until the frames on a wire have
completed. -/
def beginStop (n : Nat) (r : CmdRef) (gone : Bool) (s : State) : State :=
  let s := stopFetch n (updQp n (fun q => { q with state := 3 }) s)
  pauseCheck (stopStep n (updQp n (fun q => { q with state := 3, due := 0, stopBy := some r, stopGone := gone, stopCnt := 0, ended := [] }) s))

/-- Halt a queue pair with no completion written (R133): outstanding descriptors are gone, packets are freed. -/
def haltQp (n : Nat) (s : State) : State :=
  let s := updQp n (fun q => { q with outst := [], reserved := 0, admin := [], ended := [] }) (stopFetch n s)
  let s := stopStep n s
  pauseCheck (updQp n (fun q => { q with state := if q.state = 0 then 0 else 2, due := 0, arm := false, modAt := none, modCnt := 0 }) s)

/-- Accepted commands of a channel that have no reply yet get a reply with this status (R316). -/
def abortChan (ch : Chan) (status : Nat) (s : State) : State :=
  (chanSt s ch).running.foldl (fun t r => reply r.ref (err status 0) t) s

/-- Stop an admin queue pair (R316): commands its ring has read and not accepted complete ABORTED, accepted ones are
answered ABORTED, then R315 follows. The one completion of an accepted command was written OK at its acceptance (R313), so R316's ABORTED
completion is that of a command read and not yet accepted (DEDUCED, unsafe: log 43). -/
def stopAdmin (f n : Nat) (s : State) : Nat × State :=
  let q := qpAt s n
  let s := updQp n (fun q => { q with state := 3 }) s
  let s := q.admin.foldl (fun t a =>
    writeCqe n { tag := a.tag, status := qAborted, ndesc := cmdSlots a.bytes, user := fld a.bytes 4 4 } t) s
  let s := updQp n (fun q => { q with admin := [] }) s
  let s := abortChan (.admin f) stAborted s
  let (k, s) := stopQp n false s
  (k + q.admin.length, s)

end Sys2Proof.Machine
end

