-- ==== Sys2Proof/Machine/Rings.lean ====
section
/-! DEFINITION. Submission and completion rings (R297 to R316): doorbells, fetching, descriptors, moderation, admin
rings, and the opcodes of class 0x04 (R330, R331). -/

namespace Sys2Proof.Machine

open Sys2Proof

/-! ## The fetch index -/

/-- Use `k` entries: the fetch index moves on, the phase inverts at the wrap (R303), and as many fewer are due. -/
def fetchStep (k : Nat) (q : Qp) : Qp :=
  let i := q.fetch + k
  let q := { q with due := q.due - k }
  if sqSize q ≤ i then { q with fetch := i - sqSize q, fetchPhase := !q.fetchPhase } else { q with fetch := i }

/-! ## Descriptors (R300, R301) -/

/-- The detail with which a receive descriptor is malformed, none when it is good. -/
def rxDescBad (kind len addr : Nat) : Option Nat :=
  if kind ≠ 2 then some 1 else if len < 256 then some 2 else if addr % 64 ≠ 0 then some 3 else none

/-- The detail with which a transmit descriptor is malformed: `i` is its place in the frame. -/
def txDescBad (s : State) (f i kind len addr : Nat) (eop : Bool) : Option Nat :=
  if kind ≠ 1 then some 1
  else if len = 0 ∨ 9724 < len then some 2
  else if !eop ∧ 16 ≤ i then some 4
  else if inPeerRange s f addr len then some 0x40 else none

/-- Complete the frame or entry that began at TAG `tag`. -/
def descDone (n tag status detail ndesc user : Nat) (s : State) : State :=
  writeCqe n { tag := tag, status := status, ndesc := ndesc, detail := detail, user := user }
    (updQp n (fun q => { q with outst := q.outst.filter fun t => t.tag != tag }) s)

/-- Bytes of the longest frame whose data a Cistern buffer can hold (R253). -/
def maxFrameBytes : Nat := 65536

/-- Use one transmit descriptor of a frame (R300): a segment, the frame's end, or the fault that ends the frame. A frame that no buffer could
hold exceeds every MAX_FRAME, and completes so with its last descriptor (R170, R301; DESIGN CHOICE, unsafe: log 38). -/
def useTxDesc (n tag : Nat) (b : Bytes) (s : State) : State :=
  let q := qpAt s n
  let kind := fld b 10 1
  let fl := fld b 11 1
  let eop := bit fl 0
  let first := q.asmFirst.getD
    { tx := { qp := n, tag := tag, user := fld b 12 4, tsReq := bit fl 2 }, timed := bit fl 1, launch := fld b 16 8 }
  let i := q.asm.length + 1
  let segs := q.asm ++ [(fld b 0 8, fld b 8 2)]
  let tx := { first.tx with ndesc := i, len := (segs.map (·.2)).sum }
  match txDescBad s q.fn i kind (fld b 8 2) (fld b 0 8) eop with
  | some d => descDone n first.tx.tag qMalformed d i first.tx.user (updQp n (fun q => { q with asm := [], asmFirst := none }) s)
  | none =>
    let out := mapWhere (fun t => t.tag == tx.tag) (fun _ => tx) q.outst
    if eop ∧ maxFrameBytes < tx.len then
      descDone n tx.tag qMalformed 0x50 i tx.user (updQp n (fun q => { q with asm := [], asmFirst := none }) s)
    else if eop then updQp n (fun q => { q with asm := [], asmFirst := none, outst := out, frames := q.frames ++ [{ first with tx := tx, segs := segs }] }) s
    else updQp n (fun q => { q with asm := segs, asmFirst := some first, outst := out }) s

/-- Use one device-owned descriptor at the fetch index. -/
def useDesc (n : Nat) (b : Bytes) (s : State) : State :=
  let q := qpAt s n
  let tag := q.fetch
  let fresh := q.asm.isEmpty
  let user := fld b 12 4
  let s := updQp n (fun q => fetchStep 1 q) s
  let s := if fresh then updQp n (fun q => { q with outst := q.outst ++ [{ qp := n, tag := tag, user := user, ndesc := 1 }] }) (reserveSlot n s) else s
  if fresh ∧ fld b 10 1 = 0 then descDone n tag qOk 0 1 user s
  else if q.ty = 1 then
    match rxDescBad (fld b 10 1) (fld b 8 2) (fld b 0 8) with
    | some d => descDone n tag qMalformed d 1 user s
    | none => rxDrain n 65 (updQp n (fun q => { q with rxBufs := q.rxBufs ++ [{ tag := tag, addr := fld b 0 8, len := fld b 8 2, user := user }] }) s)
  else useTxDesc n tag b s

/-- Use fetched descriptors in order (R303, R304): up to the first that is not device-owned, which only the next doorbell makes the device read
again; or as long as a slot is free and the oldest outstanding entry is not reached, and those up to TAIL stay due. What remains is
discarded. -/
def useDescs (n : Nat) : List Bytes → State → State
  | [], s => s
  | b :: r, s =>
    let q := qpAt s n
    if bit (fld b 31 1) 0 != q.fetchPhase then updQp n (fun q => { q with due := 0 }) s
    else if (q.asm.isEmpty ∧ cqFree q = 0) ∨ fetchCap q = 0 then s
    else useDescs n r (useDesc n b s)

/-! ## Admin rings (R313) -/

/-- Opcodes of each class, in class order from 0x01 (the opcode tables of every chapter). -/
def classSizes : List Nat := [10, 7, 4, 5, 4, 7, 11, 10, 6, 9, 5, 6, 4, 5, 5, 6, 4]

/-- The opcode exists. -/
def opKnown (op : Nat) : Bool :=
  decide (1 ≤ op / 256) && decide (1 ≤ op % 256) && decide (op % 256 ≤ classSizes.getD (op / 256 - 1) 0)

/-- The CAP_UNITS bit of an opcode's class (R4). -/
def classCap (op : Nat) : Option Nat :=
  if op / 256 = 0x0B then some 1 else if op / 256 = 0x0E then some 0 else if op / 256 = 0x0F then some 2 else none

/-- Run a command whose opcode does not exist: BAD_OPCODE after the checks that come before it (R45). -/
def runUnknown (f : Nat) (b : Bytes) (s : State) : State :=
  let (op, c) := parseCmd (.admin f) b
  runCommand { code := op, len := fun _ => true, vf := true, known := false, cap := classCap op }
    (readBody fun _ _ _ => err stBadOpcode 0) c s

/-- Read the commands of an admin ring's slots, in order (R313), while a completion slot (R308) and a reply credit (R36) are free; the others stay
unread. One whose slots exceed the ring completes MALFORMED 0x13; one whose slots pass what was read waits for a later TAIL; the others are held
until they are accepted, and one with an opcode that does not exist is answered at once. -/
def useCmds (n : Nat) : Nat → Bytes → State → State
  | 0, _, s => s
  | fuel + 1, b, s =>
    let q := qpAt s n
    if b.length < 64 then s
    else if cqFree q = 0 ∨ replyCredits s (.admin q.fn) q.admin.length = 0 then s
    else
      let k := cmdSlots b
      let tag := q.fetch
      if sqSize q < k then
        let s := updQp n (fun q => fetchStep 1 q) (reserveSlot n (count (cDev 0) s))
        useCmds n fuel (b.drop 64)
          (writeCqe n { tag := tag, status := qMalformed, ndesc := 1, detail := 0x13, user := fld b 4 4 } s)
      else if b.length < 64 * k then updQp n (fun q => { q with due := 0 }) s
      else
        let s := updQp n (fun q => fetchStep k { q with admin := q.admin ++ [{ tag := tag, bytes := b.take (64 * k) }] }) (reserveSlot n s)
        let s := if opKnown (fld b 0 2) then s else runUnknown q.fn (b.take (64 * k)) s
        useCmds n fuel (b.drop (64 * k)) s

/-! ## Rows -/

/-- The function's queue pair is one that a doorbell reaches (R121, R148, R297). -/
def doorbellOk (s : State) (fn q : Nat) : Bool :=
  live s fn && decide (q < (funcOf s fn).qpCount) && qpExists s (devQp s fn q)

/-- A submission doorbell takes effect (R302, R304): the entries up to TAIL are due; while a fetch is under way they are due when it ends. -/
def ringTail (n : Nat) (v : Word) (s : State) : State :=
  let t := v.toNat % 65536
  if sqSize (qpAt s n) ≤ t then count (cDev 4) s
  else kickQp n (updQp n (fun q => { q with tail := t, due := entriesTo q t, latched := q.fetching }) s)

/-- A completion doorbell takes effect (R308, R311): HEAD releases entries; a HEAD equal to the write index of a full
ring releases all; one that would release an unwritten entry is ignored, and CQ_BAD_HEAD counts. ARM stands either way. -/
def ringHead (n : Nat) (v : Word) (s : State) : State :=
  let q := qpAt s n
  let h := v.toNat % 65536
  let d := (h + cqSize q - q.head) % cqSize q
  let d := if d = 0 ∧ q.used = cqSize q then cqSize q else d
  let s := if cqSize q ≤ h ∨ q.used < d then count (cDev 12) s
    else updQp n (fun q => { q with head := h, used := q.used - d }) s
  let s :=
    if v.getLsbD 16 then
      let q := qpAt s n
      let s := updQp n (fun q => { q with arm := true }) s
      if 0 < q.used ∧ q.modAt.isNone then
        (if modNow q then fireQp n s else updQp n (fun q => { q with modAt := some s.time.t, modCnt := 0 }) s)
      else s
    else s
  kickQp n s

/-- A doorbell write reaches its queue pair: stray ones count DB_STRAY (R121, R148). -/
def doorbell (fn q : Nat) (k : Nat → State → State) (s : State) : State :=
  if s.mode = .dry then s
  else if frozen s fn then count (cDev 6) s
  else if !doorbellOk s fn q then count (cDev 4) s
  else k (devQp s fn q) s

/-- SUBMISSION_DOORBELL (R302, R304). In DORMANT it is latched, and one of an admin ring is a wake event (R61, R142);
so it is on the way to DORMANT (R31). -/
def execSubmissionDoorbell (fn q : Nat) (value : Word) (s : State) : Host.Outcome State Fault Refusal :=
  done (doorbell fn q (fun n s =>
    let s := if (qpAt s n).ty = 2 then latchWake 0 s else s
    if s.mode = .dormant then updQp n (fun q => { q with latchTail := some value }) s else ringTail n value s) s)

/-- COMPLETION_DOORBELL (R308). In DORMANT it is latched (R142). -/
def execCompletionDoorbell (fn q : Nat) (value : Word) (s : State) : Host.Outcome State Fault Refusal :=
  done (doorbell fn q (fun n s =>
    if s.mode = .dormant then updQp n (fun q => { q with latchHead := some value }) s else ringHead n value s) s)

/-- ARM: a completion doorbell with its ARM bit set (R308, R311). -/
def execArm (fn q : Nat) (value : Word) (s : State) : Host.Outcome State Fault Refusal :=
  done (doorbell fn q (fun n s =>
    let v := value ||| 0x10000#32
    if s.mode = .dormant then updQp n (fun q => { q with latchHead := some v }) s else ringHead n v s) s)

/-- Doorbells latched in DORMANT take effect after WAKE_DONE (R142). -/
def unlatchDoorbells (s : State) : State :=
  s.rings.qps.foldl (fun t x =>
    let q := qpAt t x.1
    let t := updQp x.1 (fun q => { q with latchTail := none, latchHead := none }) t
    let t := match q.latchHead with
      | some v => ringHead x.1 v t
      | none => t
    match q.latchTail with
    | some v => ringTail x.1 v t
    | none => t) s

/-- Requests held while a function's Bus Master Enable was 0 go out, oldest first (R136). -/
def releaseHeld (s : State) : State :=
  let ready (x : Nat × WKind × Out) : Bool := canIssue s x.1
  (s.heldOut.reverse.filter ready).foldl (fun t x => issue x.2.1 x.2.2 t) { s with heldOut := s.heldOut.filter fun x => !ready x }

/-- Held requests go out, waiting reads with them, and queue pairs with a fetch due start it: on entry to service, and when requests may go out again (R299, R136). -/
def resumeRings (s : State) : State :=
  let s := serveReads (releaseHeld s)
  s.rings.qps.foldl (fun t x => rxDrain x.1 65 (kickQp x.1 t)) s

/-- DESCRIPTOR_FETCH_COMPLETE (R304, R313): the bytes of the entries read from the fetch index. A failed read discards
what was read, and only the next doorbell makes the device read it again. -/
def execDescriptorFetchComplete (qp : Nat) (data : Bytes) (bad : Bool) (s : State) : Host.Outcome State Fault Refusal :=
  done (
    let q := qpAt s qp
    if !q.fetching then s
    else
      let s := finishReads (.fetch qp) s
      endFetch qp (
        if !qpRuns s q then s
        else if bad then updQp qp (fun q => { q with due := 0 }) s
        else if q.ty = 2 then useCmds qp (sqSize q) (data.take (64 * q.asked)) s
        else useDescs qp ((records 32 (data.length / 32) data).take q.asked) s))

/-- MODERATION_TIMEOUT (R311): MOD_US has passed since moderation started. -/
def execModerationTimeout (qp : Nat) (s : State) : Host.Outcome State Fault Refusal :=
  done (
    let q := qpAt s qp
    match q.modAt with
    | some t => if q.arm then fireQp qp (advanceTo (t + q.modUs * 1000 * 65536) s) else s
    | none => s)

/-! ## Admin rings of the physical functions (R312) -/

/-- The admin registers of a physical function. -/
def admAt (s : State) (pf : Nat) : AdmRegs := Store.get {} pf s.rings.adm

/-- Change the admin registers of a physical function. -/
def updAdm (pf : Nat) (g : AdmRegs → AdmRegs) (s : State) : State :=
  { s with rings := { s.rings with adm := Store.upd {} pf g s.rings.adm } }

/-- LOG2_SQ of an ADM_CTRL value. -/
def admLog2Sq (v : Word) : Nat := bits v.toNat 8 5
/-- LOG2_CQ of an ADM_CTRL value. -/
def admLog2Cq (v : Word) : Nat := bits v.toNat 16 5
/-- VECTOR of an ADM_CTRL value. -/
def admVector (v : Word) : Nat := bits v.toNat 21 11

/-- Write ADM_CTRL: the writable fields as the value gives them, size fields kept while ENABLE is 1; READY and CFG_ERR as given. -/
def admWrite (pf : Nat) (v : Word) (ready cfgErr : Bool) (s : State) : State :=
  updAdm pf (fun r => { r with
    ctrl := (if r.ctrl.getLsbD 0 then (v &&& 0xFFE00001#32) ||| (r.ctrl &&& 0x001F1F00#32) else v &&& 0xFFFF1F01#32) |||
      BitVec.ofNat 32 (2 * b2n ready + 4 * b2n cfgErr) }) s

/-- The fields of an enable are in range (R312). -/
def admOk (v : Word) : Bool :=
  decide (4 ≤ admLog2Sq v) && decide (admLog2Sq v ≤ 12) && decide (admLog2Sq v ≤ admLog2Cq v) && decide (4 ≤ admLog2Cq v) &&
  decide (admLog2Cq v ≤ 16)

/-- ENABLE of ADM_CTRL goes 0 to 1: the fields are checked, and READY or CFG_ERR is set. -/
def admEnable (pf : Nat) (value : Word) (s : State) : State :=
  if !admOk value then admWrite pf value false true s
  else
    let r := admAt s pf
    let q : Qp := { fn := pf, idx := 0, ty := 2, log2Sq := admLog2Sq value, log2Cq := admLog2Cq value, sqAddr := r.sq.toNat,
                    cqAddr := r.cq.toNat, vector := admVector value, state := 1 }
    let s := admWrite pf value true false s
    { s with rings := { s.rings with qps := Store.set {} (adminQp s pf) q s.rings.qps } }

/-- ENABLE of ADM_CTRL goes 1 to 0: the admin queue pair stops, and READY clears. CFG_ERR keeps telling of the last enable. -/
def admDisable (pf : Nat) (value : Word) (s : State) : State :=
  let n := adminQp s pf
  let s := if (qpAt s n).state = 1 then (stopAdmin pf n s).2 else s
  admWrite pf value false ((admAt s pf).ctrl.getLsbD 2) (removeQp n s)

/-- A write of ADM_CTRL. VECTOR is writable at any time, and a running admin queue pair takes it. -/
def writeAdmCtrl (pf : Nat) (value : Word) (s : State) : State :=
  let r := (admAt s pf).ctrl
  if !r.getLsbD 0 && value.getLsbD 0 then admEnable pf value s
  else if r.getLsbD 0 && !value.getLsbD 0 then admDisable pf value s
  else
    let s := admWrite pf value (r.getLsbD 1) (r.getLsbD 2) s
    if r.getLsbD 1 then updQp (adminQp s pf) (fun q => { q with vector := admVector value }) s else s

/-- ADMIN_ENABLE (R312): ENABLE goes 0 to 1. -/
def execAdminEnable (pf : Nat) (value : Word) (s : State) : Host.Outcome State Fault Refusal :=
  done (onHostWrite pf (fun s =>
    if isVf pf then badAccess s else if (admAt s pf).ctrl.getLsbD 0 || !value.getLsbD 0 then s else admEnable pf value s) s)

/-- ADMIN_DISABLE (R312, R316): ENABLE goes 1 to 0. -/
def execAdminDisable (pf : Nat) (value : Word) (s : State) : Host.Outcome State Fault Refusal :=
  done (onHostWrite pf (fun s =>
    if isVf pf then badAccess s else if !(admAt s pf).ctrl.getLsbD 0 || value.getLsbD 0 then s else admDisable pf value s) s)

/-! ## Transmit reads (R264, R254, R318) -/

/-- Read the data of a transmit frame once a Cistern buffer is held for it; without one the frame waits (R254). -/
def startTxRead (n : Nat) (s : State) : State :=
  let q := qpAt s n
  match q.frames.findIdx? (fun f => !f.reading) with
  | none => s
  | some i =>
    let f := q.frames.getD i {}
    let (k, s) := newPktNum s
    match allocBuf f.tx.len q.fn k false s with
    | .error _ => updQp n (fun q => { q with frames := q.frames.set i { f with waits := true } }) s
    | .ok (b, s) =>
      let s := updQp n (fun q => { q with frames := q.frames.set i { f with waits := false, reading := true, buf := some b } }) s
      f.segs.foldl (fun t g => hostRead q.fn (.txData n f.tx.tag) g.1 g.2 t) s

/-- TX_READ_RETRY (R254): a buffer of that pool or owner has been freed, and the waiting descriptor is read. -/
def execTxReadRetry (qp : Nat) (s : State) : Host.Outcome State Fault Refusal :=
  done (
    let q := qpAt s qp
    if qpRuns s q && q.ty == 0 && q.frames.any (fun f => f.waits && !f.reading) then startTxRead qp s else s)

/-- A frame being read leaves its queue pair, nothing more of it wanted (R319): the frame and the state without it. -/
def takeRead (n frame : Nat) (s : State) : Option (TxFrame × State) :=
  match (qpAt s n).frames.findIdx? (fun f => f.reading && f.tx.tag == frame) with
  | none => none
  | some i =>
    let f := (qpAt s n).frames.getD i {}
    some (f, endReads (.txData n f.tx.tag) (updQp n (fun q => { q with frames := q.frames.eraseIdx i }) s))

/-- The data read of a frame has failed: it completes, and nothing of it is sent (R301, R319). -/
def failTxRead (n frame status detail : Nat) (s : State) : State :=
  match takeRead n frame s with
  | none => s
  | some (f, s) =>
    let s := match f.buf with
      | some b => updBuf b (freeLast s) s
      | none => s
    completeTx f.tx status detail none s

/-! ## Class 0x04 (R330, R331) -/

/-- The function a QUEUE command names: a virtual function's own, by whichever of its channels it commands; else FUNC when the manager serves it. -/
def queueFn (s : State) (c : Cmd) : Except Answer Nat :=
  let f := arg c 0 2
  match chanFn s c.chan with
  | some g =>
    if isVf g then .ok g
    else if 1025 < f then .error (err stBadLength 0)
    else if pfOf f = pfOf g then .ok f
    else .error (err stDenied 5)
  | none => if 1025 < f then .error (err stBadLength 0) else .ok f

/-- The device queue pair a QUEUE command names, below its function's QP_COUNT. -/
def queueOf (s : State) (c : Cmd) : Except Answer (Nat × Nat) := do
  let f ← queueFn s c
  if (funcOf s f).qpCount ≤ arg c 2 2 then .error (err stBadLength 0) else .ok (f, devQp s f (arg c 2 2))

/-- The command names the ring it came by (R316). -/
def ownRing (s : State) (c : Cmd) (n : Nat) : Bool :=
  match c.chan with
  | .admin f => adminQp s f == n
  | _ => false

/-- Fields of a QUEUE_CREATE payload are out of range (R297, R330). -/
def queueBad (s : State) (f : Nat) (c : Cmd) : Bool :=
  let ty := arg c 4 1
  let ls := arg c 6 1
  let lc := arg c 7 1
  decide (2 < ty) || (ty == 2 && arg c 2 2 != 0) || decide (ls < 4) || decide ((if ty = 2 then 12 else 16) < ls) ||
  decide (lc < ls) || decide (16 < lc) || arg c 8 8 % 4096 != 0 || arg c 16 8 % 4096 != 0 ||
  (arg c 24 2 != 0xFFFF && decide ((funcOf s f).vecCount ≤ arg c 24 2)) || decide (1023 < arg c 26 2) || decide (4096 < arg c 28 2)

/-- What the shared checks need to know of QUEUE_CREATE, opcode 0x0401. -/
def infoQueueCreate : OpInfo := { code := 0x0401, len := lenIs 64, vf := true }

/-- QUEUE_CREATE (R330, R331). DEDUCED (log 43): a physical function's queue pair 0 answers 4 whether or not it exists, safe. -/
def execQueueCreate (c : Cmd) (s : State) : Host.Outcome State Fault Refusal :=
  done (runCommand infoQueueCreate
    (answer fun _ c s =>
      match queueOf s c with
      | .error a => (s, a)
      | .ok (f, n) =>
        if queueBad s f c then (s, err stBadLength 0)
        else if !isVf f ∧ arg c 2 2 = 0 then (s, err stState 4)
        else if qpExists s n then (s, err stState 2)
        else
          let q : Qp := { fn := f, idx := arg c 2 2, ty := arg c 4 1, keepErr := bit (arg c 5 1) 0, log2Sq := arg c 6 1,
                          log2Cq := arg c 7 1, sqAddr := arg c 8 8, cqAddr := arg c 16 8, vector := arg c 24 2,
                          modUs := arg c 26 2, modCount := arg c 28 2, state := 1 }
          ({ s with rings := { s.rings with qps := Store.set {} n q s.rings.qps } }, ok n 0)) c s)

/-- READY of a physical function's ADM_CTRL tells whether its admin queue pair runs (R312). -/
def admReady (f n : Nat) (ready : Bool) (s : State) : State :=
  if isVf f ∨ n ≠ adminQp s f then s
  else updAdm f (fun r => { r with ctrl := (r.ctrl &&& ~~~2#32) ||| BitVec.ofNat 32 (2 * b2n ready) }) s

/-- QUEUE_STOP and QUEUE_DESTROY share their stop (R315, R316, R331): RESULT0 counts the descriptors completed ABORTED. -/
def stopBody (gone : Bool) : Body := fun r _ c s =>
  match queueOf s c with
  | .error a => (s, some a)
  | .ok (f, n) =>
    let q := qpAt s n
    if q.state = 0 then (s, some (err stState 1))
    else if q.state = 3 then (s, some (err stBusy 0))
    else if ownRing s c n then (s, some (err stDenied 6))
    else if q.state = 1 ∧ q.ty ≠ 2 then (beginStop n r gone s, none)
    else
      let (k, s) := if q.state = 2 then (0, s) else stopAdmin f n s
      (admReady f n false (if gone then removeQp n s else s), some (ok k 0))

/-- What the shared checks need to know of QUEUE_STOP, opcode 0x0402. -/
def infoQueueStop : OpInfo := { code := 0x0402, len := lenIs 8, vf := true }

/-- QUEUE_STOP (R315, R331). -/
def execQueueStop (c : Cmd) (s : State) : Host.Outcome State Fault Refusal :=
  done (runCommand infoQueueStop (stopBody false) c s)

/-- What the shared checks need to know of QUEUE_DESTROY, opcode 0x0404. -/
def infoQueueDestroy : OpInfo := { code := 0x0404, len := lenIs 8, vf := true }

/-- QUEUE_DESTROY (R315, R331). -/
def execQueueDestroy (c : Cmd) (s : State) : Host.Outcome State Fault Refusal :=
  done (runCommand infoQueueDestroy (stopBody true) c s)

/-- Restart a queue pair: index 0 and phase 1 on both rings (R303, R331). -/
def restartQp (q : Qp) : Qp :=
  { q with state := 1, fetch := 0, fetchPhase := true, tail := 0, fetching := false, latched := false, cqIdx := 0, cqPhase := true,
           due := 0, asked := 0, ended := [], head := 0, used := 0, reserved := 0, asm := [], asmFirst := none, frames := [], rxBufs := [], rxWait := [], outst := [],
           admin := [], arm := false, modAt := none, modCnt := 0 }

/-- What the shared checks need to know of QUEUE_START, opcode 0x0403. -/
def infoQueueStart : OpInfo := { code := 0x0403, len := lenIs 8, vf := true }

/-- QUEUE_START (R331): a stopped queue pair starts again at index 0 and phase 1. -/
def execQueueStart (c : Cmd) (s : State) : Host.Outcome State Fault Refusal :=
  done (runCommand infoQueueStart
    (answer fun _ c s =>
      match queueOf s c with
      | .error a => (s, a)
      | .ok (f, n) =>
        if (qpAt s n).state = 0 then (s, err stState 1)
        else if (qpAt s n).state = 3 then (s, err stBusy 0)
        else if (qpAt s n).state = 1 then (s, err stState 0)
        else (admReady f n true (updQp n restartQp s), ok 0 0)) c s)

/-- The 32-byte QUEUE_QUERY record (R331). -/
def queueRecord (q : Qp) : Bytes :=
  if q.state = 0 then zeros 32
  else
    toLe 1 q.ty ++ toLe 1 (if q.state = 2 then 2 else 1) ++ toLe 2 q.fetch ++ toLe 2 q.tail ++ toLe 2 q.cqIdx ++ toLe 2 q.head ++
    toLe 1 (b2n q.fetchPhase) ++ toLe 1 (b2n q.cqPhase) ++ toLe 4 (q.outst.length + q.admin.length) ++ zeros 16

/-- What the shared checks need to know of QUEUE_QUERY, opcode 0x0405. -/
def infoQueueQuery : OpInfo := { code := 0x0405, len := lenIs 16, modes := modesRead, vf := true, outOff := some 8 }

/-- QUEUE_QUERY (R331). -/
def execQueueQuery (c : Cmd) (s : State) : Host.Outcome State Fault Refusal :=
  done (runCommand infoQueueQuery
    (readBody fun _ c s =>
      match queueOf s c with
      | .error a => a
      | .ok (_, n) => okOut 0 0 (arg c 8 8) (queueRecord (qpAt s n))) c s)

end Sys2Proof.Machine
end

