-- ==== Sys2Proof/Machine/Pumps.lean ====
section
/-! DEFINITION. The Pumps' register channels, completion queues, reshuffle and recovery channel (R317 to R329), and the
opcodes of class 0x05 (R332). -/

namespace Sys2Proof.Machine

open Sys2Proof

/-! ## Clay through the peer window (R144, R322, R428) -/

/-- PEER_WIN of a physical function. -/
def peerWin (s : State) (pf : Nat) : BitVec 64 := (Store.get {} pf s.peers).win

/-- CLAY_OFFSET of a physical function. -/
def clayOffset (s : State) (pf : Nat) : Nat := (peerWin s pf).toNat / 2 ^ 24 * 2 ^ 24

/-- A byte of a write of `n` bytes at `a` lies in a 64-bit word that the write covers only in part. -/
def partWord (a n i : Nat) : Bool :=
  let w := (a + i) / 8 * 8
  decide (w < a) || decide (a + n < w + 8)

/-- Write bytes into Clay: a word written whole loses its poison; a poisoned word written in part keeps it and is not
changed (R428). -/
def clayWrite (a : Nat) (d : Bytes) (s : State) : State :=
  let bad (i : Nat) : Bool := partWord a d.length i && poisonedIn s 9 ((a + i) / 8 * 8) 8
  let clay := (d.zipIdx).foldl (fun st x => if bad x.2 then st else Store.set 0 (a + x.2) x.1 st) s.clay
  let whole (w : Nat) : Bool := decide (a ≤ 8 * w) && decide (8 * w + 8 ≤ a + d.length)
  { s with clay := clay, fault := { s.fault with poison := Store.upd [] 9 (List.filter fun w => !whole w) s.fault.poison } }

/-! ## Channels -/

/-- A register channel. -/
def pumpAt (s : State) (n : Nat) : PumpCh := Store.get {} n s.rings.chans

/-- Change a register channel. -/
def updPump (n : Nat) (g : PumpCh → PumpCh) (s : State) : State :=
  { s with rings := { s.rings with chans := Store.upd {} n g s.rings.chans } }

/-- The physical function a channel is assigned to (R320). -/
def pumpPf (n : Nat) (c : PumpCh) : Nat := c.pf.getD (if n < 128 then 0 else 1)

/-- A Pump completion queue. -/
def pcqAt (s : State) (m : Nat) : Pcq := Store.get {} m s.rings.pcqs

/-- Change a Pump completion queue. -/
def updPcq (m : Nat) (g : Pcq → Pcq) (s : State) : State :=
  { s with rings := { s.rings with pcqs := Store.upd {} m g s.rings.pcqs } }

/-- Fields of CH_CTRL and CH_SHAPE (R320). -/
def chPcq (c : PumpCh) : Nat := bits c.ctrl.toNat 8 5
/-- CH_CTRL.USER. -/
def chUser (c : PumpCh) : Nat := bits c.ctrl.toNat 16 16
/-- CH_CTRL.SRC_SPACE. -/
def chSrcSpace (c : PumpCh) : Nat := bits c.ctrl.toNat 2 2
/-- CH_CTRL.DST_SPACE. -/
def chDstSpace (c : PumpCh) : Nat := bits c.ctrl.toNat 4 2
/-- CH_SHAPE.MODE. -/
def chMode (c : PumpCh) : Nat := bits c.shape.toNat 0 2
/-- CH_SHAPE.ESIZE. -/
def chEsize (c : PumpCh) : Nat := bits c.shape.toNat 2 2
/-- CH_SHAPE.RUN. -/
def chRun (c : PumpCh) : Nat := bits c.shape.toNat 14 12
/-- K. -/
def chK (c : PumpCh) : Nat := bits c.shape.toNat 4 10 + 1
/-- CELL in bytes (R327). -/
def chCell (c : PumpCh) : Nat := chRun c * 2 ^ (chEsize c + 1)

/-- A range lies in the physical function's Clay window (R322). -/
def clayRange (s : State) (pf a n : Nat) : Bool :=
  decide (clayOffset s pf ≤ a) && decide (a + n ≤ clayOffset s pf + 2 ^ 24)

/-- The parameter fault of a transfer, none when it is good (R321). -/
def chBad (s : State) (pf : Nat) (c : PumpCh) : Option Nat :=
  let n := c.count.toNat
  if chMode c = 3 ∨ chEsize c = 3 ∨ (chMode c ≠ 0 ∧ chRun c = 0) ∨ 512 < chK c then some 0x10
  else if n = 0 ∨ (chMode c ≠ 0 ∧ (n % (chK c * chCell c) ≠ 0 ∨ 4194304 < n)) then some 0x11
  else if 1 < chSrcSpace c ∨ 1 < chDstSpace c ∨ (chSrcSpace c = 1 ∧ !clayRange s pf c.src.toNat n) ∨
      (chDstSpace c = 1 ∧ !clayRange s pf c.dst.toNat n) then some 0x13
  else if chSrcSpace c = chDstSpace c ∧ c.src.toNat < c.dst.toNat + n ∧ c.dst.toNat < c.src.toNat + n then some 0x14
  else if chSrcSpace c = 0 ∧ inPeerRange s pf c.src.toNat n then some 0x40
  else none

/-- Move the cells of a reshuffle (R327): MODE 1 puts source cell i x N + j at j x K + i, MODE 2 the reverse. -/
def reshuffle (mode k cell : Nat) (d : Bytes) : Bytes :=
  if mode = 0 ∨ k * cell = 0 then d
  else
    let n := d.length / (k * cell)
    ((List.range (k * n)).map fun m =>
      slice d ((if mode = 1 then m % k * n + m / k else m % n * k + m / n) * cell) cell).flatten

/-! ## Completion queues (R325, R326) -/

/-- Records of a completion queue. -/
def pcqSize (p : Pcq) : Nat := 2 ^ p.log2

/-- A slot of the queue is neither written nor reserved. -/
def pcqFree (p : Pcq) : Bool := decide (p.unread.length + p.reserved < pcqSize p)

/-- The queue is configured for a physical function. -/
def pcqFor (p : Pcq) (pf : Nat) : Bool := decide (4 ≤ p.log2) && p.pf == pf

/-- The bytes of a Pump record (R326). -/
def pumpRecord (s : State) (user ch : Nat) (phase : Bool) (status detail bytes : Nat) : Bytes :=
  toLe 2 user ++ toLe 1 ch ++ toLe 1 (b2n phase) ++ toLe 1 status ++ zeros 3 ++ toLe 4 detail ++ toLe 4 bytes ++
  toLe 8 (nowNs s) ++ zeros 8

/-- Write a channel's record in its reserved slot, bytes 4 to 31 first (R306, R326); a record with NOTIFY and the queue
armed sends the queue's message. -/
def writeRecord (n status detail bytes : Nat) (s : State) : State :=
  let c := pumpAt s n
  let m := chPcq c
  let p := pcqAt s m
  let r := pumpRecord s (chUser c) n p.phase status detail bytes
  let a := p.addr + 32 * p.widx
  let s := hostWrite .record p.pf a (r.take 4) (hostWrite .record p.pf (a + 4) (r.drop 4) s)
  let wrap := decide (pcqSize p ≤ p.widx + 1)
  let notify := c.ctrl.getLsbD 13
  let s := updPcq m (fun p => { p with
    widx := if wrap then 0 else p.widx + 1
    phase := if wrap then !p.phase else p.phase
    unread := p.unread ++ [notify]
    reserved := p.reserved - 1
    arm := p.arm && !notify }) s
  if p.arm && notify && p.vector != 0xFFFF then sendMsix p.pf p.vector s else s

/-- Sump bytes a transfer holds (R318). -/
def sumpNeed (c : PumpCh) : Nat := if chMode c = 0 then min c.count.toNat 262144 else c.count.toNat

/-- A channel is idle again: its reads are over for it, and its sump space and its Cistern buffer are given back. -/
def idlePump (n : Nat) (s : State) : State :=
  let c := pumpAt s n
  let s := freeHold c.buf (endReads (.pump n) s)
  let s := updPump n (fun c => { c with state := 0, sump := 0, done := 0, early := [], buf := none, bad := false, ctrl := c.ctrl &&& ~~~3#32 }) s
  wmCheck (serveReads { s with rings := { s.rings with sump := s.rings.sump - c.sump } })

/-- End a channel's transfer: its record, its sump space back, STATE 0 (R320, R323). -/
def endPump (n status detail bytes : Nat) (s : State) : State :=
  idlePump n (updPump n (fun c => { c with lastStatus := status, runs := (c.runs + 1) % 65536 }) (writeRecord n status detail bytes s))

/-- The largest read of a transfer, which the Cistern buffer that takes its reads in turn holds (R274, R318; DESIGN CHOICE, unsafe: log 47). -/
def pumpChunk (s : State) (pf : Nat) (c : PumpCh) : Nat := min c.count.toNat (cfgOf s pf).mrrs

/-- Issue the reads of a transfer from its `from_` byte, as far as its sump space goes. -/
def pumpReads (n pf : Nat) (c : PumpCh) (from_ room : Nat) (s : State) : State :=
  hostReadAt pf (.pump n) (c.src.toNat + from_) (min room (c.count.toNat - from_)) from_ s

/-- A queued channel whose slot is reserved takes its sump space, and of owner 1,054 the Cistern buffer that takes what it reads of the host
(R251, R274), and begins reading; or it waits for them (R318, R321). -/
def pumpBegin (n : Nat) (s : State) : State :=
  let c := pumpAt s n
  let need := sumpNeed c
  let host := chSrcSpace c == 0
  let wait := updPump n (fun c => { c with state := 4 }) s
  if sumpShared < sumpUsed s + need then wait
  else match (if host then takeHold (pumpChunk s (pumpPf n c) c) ownPump false s else some (none, s)) with
    | none => wait
    | some (b, s) =>
      let s := updPump n (fun c => { c with state := 2, sump := need, done := 0, early := [], buf := b }) s
      let s := wmCheck { s with rings := { s.rings with sump := s.rings.sump + need } }
      if host then pumpReads n (pumpPf n c) c 0 need s else s

/-- CHANNEL_START (R321): a queued channel reserves its PCQ slot, checks its parameters and begins; one that waits for
sump space tries again. -/
def execChannelStart (ch : Nat) (s : State) : Host.Outcome State Fault Refusal :=
  done (
    let c := pumpAt s ch
    if !inService s then s
    else if c.state = 4 then pumpBegin ch s
    else if c.state ≠ 1 ∨ !pcqFree (pcqAt s (chPcq c)) then s
    else
      let s := updPcq (chPcq c) (fun p => { p with reserved := p.reserved + 1 }) s
      if c.ctrl.getLsbD 1 then endPump ch qAborted 0 0 s
      else match chBad s (pumpPf ch c) c with
        | some d => endPump ch qMalformed d 0 s
        | none => pumpBegin ch s)

/-- A register of a channel answers only the physical function it is assigned to (R320, R455). -/
def pumpOwner (s : State) (fn ch : Nat) : Bool := decide (ch < 255) && decide (fn < 2) && pumpPf ch (pumpAt s ch) == fn

/-- Take the writable fields of CH_CTRL. -/
def pumpCtrl (v : Word) (c : PumpCh) : PumpCh := { c with ctrl := v &&& 0xFFFF3F3C#32 }

/-- A write of CH_CTRL with GO set (R320, R321). -/
def pumpGo (ch : Nat) (value : Word) (s : State) : State :=
  if (pumpAt s ch).state ≠ 0 then count (cDev 13) s
  else
    let s := updPump ch (pumpCtrl value) s
    if !inService s then count (cDev 14) s
    else
      let c := pumpAt s ch
      if !pcqFor (pcqAt s (chPcq c)) (pumpPf ch c) then
        count (cDev 15) (updPump ch (fun c => { c with lastStatus := qMalformed }) s)
      else updPump ch (fun c => { c with state := 1, ctrl := c.ctrl ||| 1#32, done := 0 }) s

/-- Stop one channel with ABORTED (R324, R329); a queued one without a free record slot leaves no record, and one whose last write is posted
ends OK. -/
def abortPump (ch : Nat) (s : State) : State :=
  let c := pumpAt s ch
  if c.state = 0 then s
  else if c.state = 1 then
    (if pcqFree (pcqAt s (chPcq c)) then endPump ch qAborted 0 0 (updPcq (chPcq c) (fun p => { p with reserved := p.reserved + 1 }) s)
     else updPump ch (fun c => { c with state := 0, lastStatus := qAborted, ctrl := c.ctrl &&& ~~~3#32 }) s)
  else if c.state = 3 ∧ c.done = c.count.toNat then endPump ch (if c.bad then qPoisoned else qOk) 0 c.done s
  else endPump ch qAborted 0 (if chMode c = 0 then c.done else 0) s

/-- ABORT is written (R324): a queued channel with no free record slot stays queued with ABORT set and ends at its start. -/
def pumpAbort (ch : Nat) (s : State) : State :=
  let c := pumpAt s ch
  if c.state = 0 then s
  else if c.state = 1 ∧ !pcqFree (pcqAt s (chPcq c)) then updPump ch (fun c => { c with ctrl := c.ctrl ||| 2#32 }) s
  else abortPump ch s

/-- A write of CH_CTRL (R320, R321, R324): GO, or the writable fields while STATE is 0; then ABORT. A channel that the same write starts and
aborts is queued and ends at once (DESIGN CHOICE, unsafe: log 38). -/
def writeChCtrl (ch : Nat) (v : Word) (s : State) : State :=
  let s := if v.getLsbD 0 then pumpGo ch v s else if (pumpAt s ch).state = 0 then updPump ch (pumpCtrl v) s else s
  if v.getLsbD 1 then pumpAbort ch s else s

/-- GO (R320, R321): a write of CH_CTRL with GO set. -/
def execGo (fn ch : Nat) (value : Word) (s : State) : Host.Outcome State Fault Refusal :=
  done (onHostWrite fn (fun s => if !pumpOwner s fn ch then badAccess s else writeChCtrl ch (value ||| 1#32) s) s)

/-- CHANNEL_ABORT (R324): a write of CH_CTRL with ABORT set. -/
def execChannelAbort (fn ch : Nat) (value : Word) (s : State) : Host.Outcome State Fault Refusal :=
  done (onHostWrite fn (fun s => if !pumpOwner s fn ch then badAccess s else writeChCtrl ch (value ||| 2#32) s) s)

/-- Write `d` to the destination of channel `n`'s transfer from its byte `from_`; bytes that `bad` picks by place in `d` are poisoned (R430). -/
def pumpWriteP (bad : Nat → Nat → Bool) (n pf : Nat) (c : PumpCh) (from_ : Nat) (d : Bytes) (s : State) : State :=
  let a := c.dst.toNat + from_
  if chDstSpace c = 1 then
    ((List.range (d.length / 8 + 2)).filter fun k => bad (8 * k - a % 8) (if k = 0 then 8 - a % 8 else 8)).foldl
      (fun t k => markPoison 9 (a / 8 + k) true t) (clayWrite a d s)
  else hostWriteP (.dest n) bad pf a d s

/-- Write good bytes to a transfer's destination. -/
def pumpWrite (n pf : Nat) (c : PumpCh) (from_ : Nat) (d : Bytes) (s : State) : State := pumpWriteP (fun _ _ => false) n pf c from_ d s

/-- The source bytes of a transfer: Clay's own, else what the host reads returned. -/
def pumpSource (s : State) (c : PumpCh) (data : Bytes) : Bytes :=
  if chSrcSpace c = 1 then readBytes s.clay c.src.toNat c.count.toNat else data.take c.count.toNat

/-- A word of the transfer's Clay source is poisoned (R430). -/
def pumpPoisoned (s : State) (c : PumpCh) : Bool := chSrcSpace c == 1 && poisonedIn s 9 c.src.toNat c.count.toNat

/-! ## Channel 255 (R328, R332) -/

/-- Replace the transfer at the front of channel 255's line. -/
def updRecover (c : PumpCh) (s : State) : State :=
  match s.rings.recover with
  | [] => s
  | r :: rest => { s with rings := { s.rings with recover := { r with ch := c } :: rest } }

/-- Destination bytes that a transfer's record or reply reports when it ends early (R323). -/
def doneBytes (c : PumpCh) : Nat := if chMode c = 0 then c.done else 0

/-- Start the transfer at the front of channel 255's line, with a Cistern buffer of owner 1,058, the reserve included (R166, R250, R328); a
transfer for which there is none answers RETRY (DESIGN CHOICE, unsafe: log 47), and the next is tried. -/
def recoverStartN : Nat → State → State
  | 0, s => s
  | fuel + 1, s =>
    match s.rings.recover with
    | [] => s
    | r :: rest =>
      if chSrcSpace r.ch ≠ 0 then updRecover { r.ch with state := 2 } s
      else match takeHold (pumpChunk s r.pf r.ch) ownFw true s with
        | some (b, s) => pumpReads 255 r.pf r.ch 0 65536 (updRecover { r.ch with state := 2, buf := b } s)
        | none => recoverStartN fuel (replyIfRunning r.ref (err stRetry 0) { s with rings := { s.rings with recover := rest } })

/-- Start the transfer at the front of channel 255's line. -/
def recoverStart (s : State) : State := recoverStartN s.rings.recover.length s

/-- Transfers of channel 255 that `mine` picks leave its line; when the running one does, its reads and its buffer are given back and the next
one starts. -/
def recoverDrop (mine : Recover → Bool) (s : State) : State :=
  let first := s.rings.recover.head?.any mine
  let buf := if first then s.rings.recover.head?.bind (·.ch.buf) else none
  let s := { s with rings := { s.rings with recover := s.rings.recover.filter fun r => !mine r } }
  if first then recoverStart (freeHold buf (endReads (.pump 255) s)) else s

/-- End the transfer at the front of channel 255's line: its reply, then the next one starts. -/
def recoverEnd (status detail bytes : Nat) (s : State) : State :=
  match s.rings.recover with
  | [] => s
  | r :: _ => recoverDrop (fun x => decide (x = r)) (replyIfRunning r.ref (ok bytes (status + 2 ^ 32 * detail)) s)

/-- Every transfer of channel 255 completes ABORTED (R329). -/
def abortRecover (s : State) : State :=
  let l := s.rings.recover
  l.foldl (fun t r => replyIfRunning r.ref (ok (doneBytes r.ch) qAborted) t) (recoverDrop (fun _ => true) s)

/-- Every running or queued channel completes ABORTED, channel 255 among them (R329). -/
def abortPumps (s : State) : State :=
  abortRecover ((s.rings.chans.filter fun x => x.2.state != 0).foldl (fun t x => abortPump x.1 t) s)

/-- A Pump transfer ends for a failed read (R301, R323): what was written of a copy stands. -/
def failPump (n status detail : Nat) (s : State) : State :=
  if n = 255 then
    match s.rings.recover with
    | [] => s
    | r :: _ => recoverEnd status detail (doneBytes r.ch) s
  else
    let c := pumpAt s n
    if c.state = 0 ∨ c.state = 1 then s else endPump n status detail (doneBytes c) s

/-- The last writes of a transfer are posted, whose source bytes are all there (R323): the completion status, and the state after them. Where the
source is poisoned, so are the bytes that are written from it (R430). -/
def pumpFinish (n pf : Nat) (c : PumpCh) (src : Bytes) (s : State) : Nat × State :=
  let out := reshuffle (chMode c) (chK c) (chCell c) src
  if pumpPoisoned s c then
    -- where the poisoned source bytes go, in destination order
    let mask := reshuffle (chMode c) (chK c) (chCell c) ((List.range src.length).map fun i => if poisonedIn s 9 (c.src.toNat + i) 1 then 1 else 0)
    let bad (o n : Nat) : Bool := (slice mask (c.done + o) n).any (· != 0)
    (qPoisoned, poisonConsumed 9 (count (cDev 10) (pumpWriteP bad n pf c c.done (out.drop c.done) s)))
  else (qOk, pumpWrite n pf c c.done (out.drop c.done) s)

/-- Every byte of a transfer's source is there, or written already. -/
def pumpWhole (c : PumpCh) (src : Bytes) : Bool := decide (c.count.toNat ≤ src.length) || decide (c.done = c.count.toNat)

/-- Writes of a transfer wait, for a translation or for Bus Master Enable (R130, R136): they are not posted yet. -/
def destHeld (s : State) (n : Nat) : Bool :=
  (s.atsReqs.any fun r => r.holds.any fun x => x.1 == .dest n) || s.heldOut.any fun x => x.2.1 == .dest n

/-- Post what is left of a transfer, then give it the record `set` and, once no write of it waits, let `fin` complete it with its status
(R323). -/
def pumpClose (n pf : Nat) (c : PumpCh) (src : Bytes) (set : PumpCh → State → State) (fin : Nat → State → State) (s : State) : State :=
  let (st, s) := if c.done = c.count.toNat then (if c.bad then qPoisoned else qOk, s) else pumpFinish n pf c src s
  let s := set { c with state := 3, done := c.count.toNat, early := [], bad := decide (st = qPoisoned) } s
  if destHeld s n then s else fin st s

/-- PUMP_TRANSFER_COMPLETE (R323): the last write of a transfer is posted, then its record, or channel 255's reply. While a write of it waits
it is not complete (R136). -/
def execPumpTransferComplete (ch : Nat) (data : Bytes) (s : State) : Host.Outcome State Fault Refusal :=
  done (
    if ch = 255 then
      match s.rings.recover with
      | [] => s
      | r :: _ =>
        let src := pumpSource s r.ch data
        if pumpWhole r.ch src then
          pumpClose 255 r.pf r.ch src updRecover (fun st s => recoverEnd st 0 r.ch.count.toNat s) s
        else s
    else
      let c := pumpAt s ch
      let src := pumpSource s c data
      if (c.state = 2 ∨ c.state = 3) ∧ pumpWhole c src = true then
        pumpClose ch (pumpPf ch c) c src (fun c s => updPump ch (fun _ => c) s) (fun st s => endPump ch st 0 c.count.toNat s) s
      else s)

/-- Bytes of a transfer's source that have been read: those written, and those in the sump. -/
def pumpGot (c : PumpCh) : Nat := c.done + (c.early.map (·.2.length)).sum

/-- Write what has arrived of a copy in ascending order as far as it joins on; what lies beyond a gap stays in the sump (R323). -/
def pumpFlush (n pf : Nat) : Nat → PumpCh → State → PumpCh × State
  | 0, c, s => (c, s)
  | fuel + 1, c, s =>
    match c.early.find? fun e => e.1 == c.done with
    | none => (c, s)
    | some e =>
      pumpFlush n pf fuel { c with done := c.done + e.2.length, early := c.early.filter fun x => x.1 != e.1 } (pumpWrite n pf c c.done e.2 s)

/-- The bytes of a reshuffle's source, in order, from what lies in the sump. -/
def pumpGather (c : PumpCh) : Bytes :=
  (c.early.foldl (fun out e => out.take e.1 ++ e.2 ++ out.drop (e.1 + e.2.length)) (zeros c.count.toNat)).take c.count.toNat

/-- Data of a transfer arrives (R323). A copy's is written in order as it arrives; a reshuffle's once all of it is in the sump. STATE is 3 when
the last write is posted. When the reads that were issued are done, the next go out, as far as the transfer's sump space goes (R318, R328). -/
def pumpTake (n pf room : Nat) (c : PumpCh) (off : Nat) (d : Bytes) (set : PumpCh → State → State) (s : State) : State :=
  let c := { c with early := c.early ++ [(off, d)] }
  if chMode c ≠ 0 ∧ pumpGot c = c.count.toNat then
    let s := pumpWrite n pf c 0 (reshuffle (chMode c) (chK c) (chCell c) (pumpGather c)) s
    set { c with state := 3, done := c.count.toNat, early := [] } s
  else
    let (c, s) := if chMode c = 0 then pumpFlush n pf c.early.length c s else (c, s)
    let s := set { c with state := if c.done = c.count.toNat then 3 else 2 } s
    let busy := (s.rings.tags.any fun x => decide (x.use = .pump n)) || s.rings.readQ.any fun x => decide (x.use = .pump n)
    if pumpGot c < c.count.toNat ∧ !busy then pumpReads n pf c (pumpGot c) room s else s

/-- Data of a channel's read has arrived. `t` is the tag's record before this data. -/
def pumpData (n : Nat) (t : ReadTag) (d : Bytes) (s : State) : State :=
  if n = 255 then
    match s.rings.recover with
    | [] => s
    | r :: _ => pumpTake 255 r.pf 65536 r.ch t.off d updRecover s
  else
    let c := pumpAt s n
    if c.state = 2 ∨ c.state = 3 then pumpTake n (pumpPf n c) c.sump c t.off d (fun c s => updPump n (fun _ => c) s) s else s

/-- PCQ_HEAD (R325): returns record slots, and may arm the queue's interrupt. -/
def execPcqHead (fn m : Nat) (value : Word) (s : State) : Host.Outcome State Fault Refusal :=
  done (onHostWrite fn (fun s =>
    let p := pcqAt s m
    if !pcqFor p fn then badAccess s
    else
      let h := value.toNat % 65536
      let d := (h + pcqSize p - p.head) % pcqSize p
      let d := if d = 0 ∧ p.unread.length = pcqSize p then pcqSize p else d
      let s := if pcqSize p ≤ h ∨ p.unread.length < d then count (cDev 12) s
        else updPcq m (fun p => { p with head := h, unread := p.unread.drop d }) s
      if value.getLsbD 16 then
        if (pcqAt s m).unread.any id then
          let s := updPcq m (fun p => { p with arm := false }) s
          if p.vector = 0xFFFF then s else sendMsix p.pf p.vector s
        else updPcq m (fun p => { p with arm := true }) s
      else s) s)

/-! ## Class 0x05 (R332) -/

/-- What the shared checks need to know of PUMP_ASSIGN, opcode 0x0501. -/
def infoPumpAssign : OpInfo := { code := 0x0501, len := lenIs 8, priv := true }

/-- PUMP_ASSIGN (R332). -/
def execPumpAssign (c : Cmd) (s : State) : Host.Outcome State Fault Refusal :=
  done (runCommand infoPumpAssign
    (answer fun _ c s =>
      let n := arg c 0 2
      if n = 255 then (s, err stDenied 7)
      else if 254 < n ∨ 1 < arg c 2 2 then (s, err stBadLength 0)
      else if (pumpAt s n).state ≠ 0 then (s, err stBusy 0)
      else (updPump n (fun x => { x with pf := if arg c 2 2 = (if n < 128 then 0 else 1) then none else some (arg c 2 2) }) s, ok 0 0)) c s)

/-- What the shared checks need to know of PCQ_SET, opcode 0x0502. -/
def infoPcqSet : OpInfo := { code := 0x0502, len := lenIs 24, priv := true }

/-- PCQ_SET (R325, R332): the queue starts again with head 0 and phase 1. -/
def execPcqSet (c : Cmd) (s : State) : Host.Outcome State Fault Refusal :=
  done (runCommand infoPcqSet
    (answer fun _ c s =>
      let m := arg c 0 1
      let l := arg c 2 2
      let v := arg c 4 2
      if 31 < m ∨ 1 < arg c 1 1 ∨ l < 4 ∨ 16 < l ∨ (v ≠ 0xFFFF ∧ 2047 < v) ∨ arg c 8 8 % 4096 ≠ 0 then (s, err stBadLength 0)
      else if s.rings.chans.any fun x => x.2.state != 0 && chPcq x.2 == m then (s, err stBusy 0)
      else (updPcq m (fun _ => { pf := arg c 1 1, log2 := l, vector := v, addr := arg c 8 8 }) s, ok 0 0)) c s)

/-- The physical function whose requester ID a command's own host accesses use (R328, R435). -/
def pfOfChan (s : State) (ch : Chan) : Nat :=
  match chanFn s ch with
  | some f => pfOf f
  | none => 0

/-- What the shared checks need to know of PUMP_RECOVER, opcode 0x0503. -/
def infoPumpRecover : OpInfo := { code := 0x0503, len := lenIs 32, modes := [.proving, .flowing], priv := true }

/-- PUMP_RECOVER (R328, R332): RESULT1 carries the outcome of the transfer. -/
def execPumpRecover (c : Cmd) (s : State) : Host.Outcome State Fault Refusal :=
  done (runCommand infoPumpRecover
    (fun r _ c s =>
      let pf := pfOfChan s c.chan
      let ch : PumpCh := { src := BitVec.ofNat 64 (arg c 0 8), dst := BitVec.ofNat 64 (arg c 8 8), count := BitVec.ofNat 32 (arg c 16 4),
                           shape := BitVec.ofNat 32 (arg c 20 4), ctrl := BitVec.ofNat 32 (4 * (arg c 24 1 % 16)) }
      match chBad s pf ch with
      | some d => (s, some (ok 0 (qMalformed + 2 ^ 32 * d)))
      | none =>
        if sidebandCut s c.chan && (chSrcSpace ch == 0 || chDstSpace ch == 0) then (s, some (ok 0 (qDmaFault + 2 ^ 32 * 3)))
        else
          let first := s.rings.recover.isEmpty
          let s := { s with rings := { s.rings with recover := s.rings.recover ++ [{ ref := r, pf := pf, ch := ch }] } }
          (if first then recoverStart s else s, none)) c s)

/-- What the shared checks need to know of PUMP_STATUS, opcode 0x0504. -/
def infoPumpStatus : OpInfo := { code := 0x0504, len := lenIs 8, modes := modesRead, priv := true, outOff := some 0 }

/-- STATE of channel 255, as PUMP_STATUS tells it: its running transfer's. -/
def recoverState (s : State) : Nat :=
  match s.rings.recover with
  | [] => 0
  | r :: _ => r.ch.state

/-- PUMP_STATUS (R332). -/
def execPumpStatus (c : Cmd) (s : State) : Host.Outcome State Fault Refusal :=
  done (runCommand infoPumpStatus
    (readBody fun _ c s =>
      let st (n : Nat) : Nat := if n = 255 then recoverState s else (pumpAt s n).state
      okOut (sumpUsed s) 0 (arg c 0 8) ((List.range 256).map fun n => BitVec.ofNat 8 (st n))) c s)

end Sys2Proof.Machine
end

