-- ==== Sys2Proof/Machine/Traffic.lean ====
section
/-! DEFINITION. Traffic management: policing (R262, R263), queue admission and curves (R260), shapers and deficit round
robin (R264 to R268), and the timed band's launch instants (R269, R270). -/

namespace Sys2Proof.Machine

open Sys2Proof

/-! ## Policing (R262) -/

/-- Bucket units are 10^-6 bits: a rate of 1 kb/s adds one each nanosecond. -/
def bitUnits (bytes : Nat) : Nat := bytes * 8000000

/-- A policer's buckets now: filled up to its burst sizes. A packet of the old epoch that reads a smaller burst size takes nothing from what the
new record has filled (R263). -/
def polNow (s : State) (n : Nat) (r : Policer) : PolState :=
  match Store.get none n s.cis.pol with
  | none => { tc := bitUnits r.cbs, tp := bitUnits r.pbs, last := nowNs s }
  | some p =>
    let dt := nowNs s - p.last
    { tc := max p.tc (min (bitUnits r.cbs) (p.tc + r.cir * dt)), tp := max p.tp (min (bitUnits r.pbs) (p.tp + r.pir * dt)), last := nowNs s }

/-- The two-rate three-colour meter's colour and buckets (R262). -/
def meter (aware : Bool) (colour b : Nat) (p : PolState) : Nat × PolState :=
  if (aware && colour == 2) || decide (p.tp < b) then (2, p)
  else if (aware && colour == 1) || decide (p.tc < b) then (1, { p with tp := p.tp - b })
  else (0, { p with tp := p.tp - b, tc := p.tc - b })

/-- Run a POLICE word on a packet: its new colour, none when it is dropped red in FLOWING (R25, R262). -/
def police (n : Nat) (p : Packet) (s : State) : Option Nat × State :=
  let r := Store.get {} n (bankFor s p.epoch).policers
  let (c, st) := meter (!p.serviceMode && r.aware) p.colour (bitUnits (p.bytes.length + 4)) (polNow s n r)
  let cnt := Store.upd (0, 0, 0) n (fun x =>
    if c = 0 then (x.1 + 1, x.2.1, x.2.2) else if c = 1 then (x.1, x.2.1 + 1, x.2.2) else (x.1, x.2.1, x.2.2 + 1)) s.cis.polCnt
  let s := { s with cis := { s.cis with pol := Store.set none n (some st) s.cis.pol, polCnt := cnt } }
  if p.serviceMode ∧ c = 2 then (none, count (cDev 29) s) else (some c, s)

/-! ## Queue admission (R260) -/

/-- Bytes queued in a network egress queue. -/
def queueDepth (s : State) (q : Nat) : Nat := (Store.get [] q s.cis.queues).foldl (fun a p => a + p.bytes.length) 0

/-- Change a network egress queue's packets. -/
def updQueue (q : Nat) (g : List Packet → List Packet) (s : State) : State :=
  { s with cis := { s.cis with queues := Store.upd [] q g s.cis.queues } }

/-- A curve admits a packet at a depth in KiB; between its marks a draw decides (R260). -/
def curveAdmits (r : Curve) (d : Nat) (s : State) : Bool × State :=
  if d < r.minKib then (true, s)
  else if r.maxKib ≤ d then (false, s)
  else
    let (x, s) := drawDrop s
    (!decide (x * (r.maxKib - r.minKib) < r.pmax * (d - r.minKib)), s)

/-- The drop counters of a queue, by colour (R276). -/
def countQueueDrop (q colour : Nat) (s : State) : State :=
  { s with cis := { s.cis with netQs := Store.upd {} q (fun n =>
      if colour = 0 then { n with dropG := n.dropG + 1 } else if colour = 1 then { n with dropY := n.dropY + 1 } else { n with dropR := n.dropR + 1 }) s.cis.netQs } }

/-- A packet refused by a queue is freed and counted under its colour (R260). -/
def queueDrop (q : Nat) (p : Packet) (s : State) : State := dropPkt p (countQueueDrop q p.colour (count (cDev (30 + p.colour)) s))

/-- Launch instants more than 1 s ahead are not held (R270). -/
def farNs : Nat := 1000000000

/-- A packet joins a network egress queue, or is freed (R172, R260, R269, R270), by the records of its own epoch (R241). -/
def enqueueNet (q : Nat) (p : Packet) (s : State) : State :=
  let b := bankFor s p.epoch
  let r := netRec b q
  if erroredPkt p then dropPkt p s
  else match portOfQueue b q with
    | none => queueDrop q p s
    | some port =>
      let d := queueDepth s q
      if r.limitKib * 1024 < d + p.bytes.length then queueDrop q p s
      else
        let c := if p.colour = 0 then r.curveG else if p.colour = 1 then r.curveY else r.curveR
        let (ok, s) := if c = 0xFF then (true, s) else curveAdmits (Store.get {} c b.curves) (d / 1024) s
        if !ok then queueDrop q p s
        else if r.timed then
          let t := p.launch.getD (nowNs s)
          if nowNs s + farNs < t then
            endPkt p qMalformed 0x60 none (count (cPort port 23) s)
          else wmCheck (updQueue q (· ++ [{ p with launch := some t, joined := s.time.t }]) s)
        else wmCheck (updQueue q (· ++ [{ p with joined := s.time.t }]) s)

/-- Packets of a network egress queue are discarded: QUEUE_FLUSH counts each, host-sent ones complete ABORTED (R26, R188). -/
def flushQueue (q : Nat) (s : State) : State :=
  let l := Store.get [] q s.cis.queues
  let s := restNodes (updQueue q (fun _ => []) s)
  wmCheck (l.foldl (fun t p => endPkt p qAborted 0 none (count (cDev 44) t)) s)

/-- Discard every queued packet. -/
def flushAll (s : State) : State := (s.cis.queues.map (·.1)).foldl (fun t q => flushQueue q t) s

/-- Discard the packets queued to one port. -/
def flushPort (port : Nat) (s : State) : State :=
  (s.cis.queues.map (·.1)).foldl (fun t q => if portOfQueue t.tables.active q = some port then flushQueue q t else t) s

/-! ## Shapers (R268) -/

/-- A node's buckets filled up to now. -/
def fillNode (ns : Nat) (r : SchedNode) (n : NodeState) : NodeState :=
  if n.full then { n with tc := bitUnits r.cbs, tp := bitUnits r.pbs, last := ns }
  else
    let dt : Int := (ns - n.last : Nat)
    { n with tc := min (bitUnits r.cbs : Int) (n.tc + r.cir * dt), tp := min (bitUnits r.pbs : Int) (n.tp + r.pir * dt), last := ns }

/-- Both buckets are debited by a packet sent; they may go below 0. -/
def debit (ns size : Nat) (r : SchedNode) (n : NodeState) : NodeState :=
  let n := fillNode ns r n
  { n with full := false, tc := n.tc - bitUnits size, tp := n.tp - bitUnits size }

/-- The peak bucket lets the node send. -/
def shaperOk (ns : Nat) (r : SchedNode) (n : NodeState) : Bool := r.pir == 0 || decide (0 < (fillNode ns r n).tp)

/-- The node is in the committed band. -/
def committed (ns : Nat) (r : SchedNode) (n : NodeState) : Bool := r.cir != 0 && decide (0 < (fillNode ns r n).tc)

/-! ## Deficit round robin (R267) -/

/-- A child of a scheduler parent as one dequeue sees it: its head's size when the head is eligible. -/
structure Kid where
  idx : Nat
  node : SchedNode
  st : NodeState
  band : Bool
  head : Option Nat

/-- A child that holds a packet and was inactive becomes active: idle credit for the rounds that passed (R267). -/
def activate (round : Nat) (k : Kid) : Kid :=
  if k.st.active then k
  else { k with st := { k.st with active := true, deficit := min (k.st.deficit + k.node.quantum * (round - k.st.lastRound)) k.node.burst } }

/-- Cursor of a band of a parent: the child visited last in its pass. -/
def cursorOf (p : NodeState) (com : Bool) : Option Nat := if com then p.cursor else p.cursorX
/-- Set the cursor of a band. -/
def setCursor (com : Bool) (c : Option Nat) (p : NodeState) : NodeState := if com then { p with cursor := c } else { p with cursorX := c }
/-- The code of a band in NodeState.visiting. -/
def bandCode (com : Bool) : Nat := if com then 1 else 2

/-- Visit the children of a pass in index order from beyond the cursor: pass over an ineligible head, else add one
quantum and send when the head fits (R267). The child that may send, or none at the pass's end. -/
def visitPass (com : Bool) (after : Option Nat) : List Kid → Option Nat × List Kid
  | [] => (none, [])
  | k :: r =>
    let skip := (match after with
      | some i => decide (k.idx ≤ i)
      | none => false) || k.band != com
    match (if skip then none else k.head) with
    | none => let (c, l) := visitPass com after r; (c, k :: l)
    | some h =>
      let k := { k with st := { k.st with deficit := k.st.deficit + k.node.quantum } }
      if h ≤ k.st.deficit then (some k.idx, k :: r)
      else let (c, l) := visitPass com after r; (c, k :: l)

/-- Passes over one band until a child may send; each full pass completes a round. -/
def passes (com : Bool) : Nat → NodeState → List Kid → Option (Nat × NodeState × List Kid)
  | 0, _, _ => none
  | fuel + 1, p, l =>
    match visitPass com (cursorOf p com) l with
    | (some i, l) => some (i, { setCursor com (some i) p with visiting := bandCode com }, l)
    | (none, l) => passes com fuel { setCursor com none p with round := p.round + 1, visiting := 0 } l

/-- Pick the child that sends next: the committed band before the excess band, and within a band the child still on its
visit, else the next of the pass (R267, R268). The parent waits while no head is eligible. -/
def pickKid (p : NodeState) (l : List Kid) : Option (Nat × NodeState × List Kid) :=
  let com := l.any fun k => k.band && k.head.isSome
  if !(l.any fun k => k.head.isSome) then none
  else
    let still := match cursorOf p com with
      | some i => if p.visiting = bandCode com then l.find? fun (k : Kid) => k.idx == i && k.band == com &&
          (match k.head with
           | some h => decide (h ≤ k.st.deficit)
           | none => false) else none
      | none => none
    match still with
    | some k => some (k.idx, p, l)
    | none => passes com 20000 { p with visiting := 0 } l

/-- After a child has sent, the pass goes on or ends: a visit ends when the next head does not fit, and a pass over whose
band no child is left completes its round (R267). -/
def endVisit (p : NodeState) (l : List Kid) : NodeState :=
  if p.visiting = 0 then p
  else
    let com := p.visiting = 1
    match cursorOf p com with
    | none => p
    | some i =>
      let goes := l.any fun k => k.idx == i && k.band == decide com &&
        (match k.head with
         | some h => decide (h ≤ k.st.deficit)
         | none => false)
      if goes then p
      else if l.isEmpty then { p with visiting := 0, cursor := none, cursorX := none }
      else if l.any fun k => k.band == decide com && decide (i < k.idx) then { p with visiting := 0 }
      else { setCursor com none p with round := p.round + 1, visiting := 0 }

/-! ## The nodes of the scheduler -/

/-- Bytes of a packet at a port root: frame, FCS and 20 bytes (R264). -/
def wireSize (p : Packet) : Nat := max 60 p.bytes.length + 24

/-- A timed head's launch instant L in ns (R269). -/
def launchAt (p : Packet) : Nat := (p.launch.getD 0 + 4) / 5 * 5

/-- The port can start a frame: link up, in service, nothing on the wire, not held in remote loopback (R180). -/
def portFree (s : State) (port : Nat) : Bool :=
  let p := portAt s port
  p.onWire.isNone && inService s &&
    ((decide (p.cfg.mode = 1) && p.up && p.lb != 3) || stitchUp s port)

/-- A queue's packets are held by pause, or by remote loopback (R173, R180, R265). -/
def queueHeld (s : State) (port q : Nat) : Bool := prioHeld s port (netRec s.tables.active q).prio || (portAt s port).lb == 3

/-- L and the queue of every timed head of a port. -/
def timedHeads (s : State) (port : Nat) : List (Nat × Nat) :=
  s.cis.queues.filterMap fun x =>
    match x.2 with
    | [] => none
    | p :: _ => if (netRec s.tables.active x.1).timed ∧ portOfQueue s.tables.active x.1 = some port then some (launchAt p, x.1) else none

/-- Those that pause does not hold. -/
def freeHeads (s : State) (port : Nat) : List (Nat × Nat) := (timedHeads s port).filter fun x => !queueHeld s port x.2

/-- A frame of `n` wire bytes started now is off the wire before the port's next L (R269): of any timed head whose L is still to come, and of one
that has reached its L and may go. One that pause holds past its L has no next L. -/
def beforeTimed (s : State) (port n : Nat) : Bool :=
  (timedHeads s port).all fun x =>
    (queueHeld s port x.2 && decide (x.1 * 65536 < s.time.t)) || decide (s.time.t + bitTime (8 * n) (portMbps (portAt s port)) ≤ x.1 * 65536)

/-- The queues of a group as children, at a port root or the host-transmit root. `fit` says that a ring's frame can have
a buffer. -/
def queueKids (s : State) (root g : Nat) (fit : Qp → Nat → Bool) : List Kid :=
  let b := s.tables.active
  let ns := nowNs s
  if root = 16 then
    s.rings.qps.filterMap fun x =>
      let r := hostRec b x.1
      match x.2.frames.find? fun f => !f.reading with
      | none => none
      | some f =>
        if r.parent ≠ g ∨ x.2.ty ≠ 0 then none
        else
          let n := Store.get {} x.1 s.cis.hostQs
          some { idx := x.1, node := r, st := n, band := committed ns r n,
                 head := if qpRuns s x.2 && shaperOk ns r n && fit x.2 f.tx.len then some f.tx.len else none }
  else
    s.cis.queues.filterMap fun x =>
      let r := netRec b x.1
      match x.2 with
      | [] => none
      | p :: _ =>
        if r.parent ≠ g ∨ r.timed then none
        else
          let n := Store.get {} x.1 s.cis.netQs
          some { idx := x.1, node := r, st := n, band := committed ns r n,
                 head := if !queueHeld s root x.1 && shaperOk ns r n && beforeTimed s root (wireSize p) then some (wireSize p) else none }

/-- A group's state. -/
def groupSt (s : State) (g : Nat) : NodeState := Store.get {} g s.cis.groups

/-- The child a group would send from next: the queue, the group's state and its queues after the visit. -/
def groupPick (s : State) (root g : Nat) (fit : Qp → Nat → Bool) : Option (Nat × NodeState × List Kid) :=
  let st := groupSt s g
  pickKid st ((queueKids s root g fit).map (activate st.round))

/-- The groups of a root that hold a packet, as children. -/
def groupKids (s : State) (root : Nat) (fit : Qp → Nat → Bool) : List Kid :=
  let b := s.tables.active
  let ns := nowNs s
  ((List.range 255).filter fun g => rootOfGroup b g == some root).filterMap fun g =>
    if (queueKids s root g fit).isEmpty then none
    else
      let r := groupRec b g
      let n := groupSt s g
      let head := (groupPick s root g fit).bind fun x => (x.2.2.find? fun k => k.idx == x.1).bind (·.head)
      some { idx := g, node := r, st := n, band := committed ns r n, head := if shaperOk ns r n then head else none }

/-- Keep the states of children. -/
def storeKids (l : List Kid) (st : Store NodeState) : Store NodeState := l.foldl (fun a k => Store.set {} k.idx k.st a) st

/-- Keep the states of a root's queues in their store. -/
def storeQueueKids (root : Nat) (l : List Kid) (s : State) : State :=
  if root = 16 then { s with cis := { s.cis with hostQs := storeKids l s.cis.hostQs } }
  else { s with cis := { s.cis with netQs := storeKids l s.cis.netQs } }

/-- Pick the group and queue that send next at a root: the state after the visits, and what was picked with its size. -/
def rootPick (root : Nat) (fit : Qp → Nat → Bool) (s : State) : Option (Nat × Nat × Nat × State) :=
  let r := Store.get {} root s.cis.roots
  match pickKid r ((groupKids s root fit).map (activate r.round)) with
  | none => none
  | some (g, r', gs) =>
    let s := { s with cis := { s.cis with roots := Store.set {} root r' s.cis.roots, groups := storeKids gs s.cis.groups } }
    match groupPick s root g fit with
    | none => none
    | some (q, st, qs) =>
      let size := ((qs.find? fun k => k.idx == q).bind (·.head)).getD 0
      some (g, q, size, storeQueueKids root qs { s with cis := { s.cis with groups := Store.set {} g st s.cis.groups } })

/-- Debit a packet of `size` bytes at its queue and its group, and end the visits it ends (R267, R268). Called when the
packet has left its queue; one that is freed instead of sent is debited 0 bytes and not counted (`k` 0). -/
def chargeNodes (root g q size k : Nat) (fit : Qp → Nat → Bool) (s : State) : State :=
  let b := s.tables.active
  let ns := nowNs s
  let gr := groupRec b g
  let qr := if root = 16 then hostRec b q else netRec b q
  let spend (r : SchedNode) (n : NodeState) : NodeState := { debit ns size r n with deficit := n.deficit - size, sent := n.sent + k }
  let s := if root = 16 then { s with cis := { s.cis with hostQs := Store.upd {} q (spend qr) s.cis.hostQs } }
    else { s with cis := { s.cis with netQs := Store.upd {} q (spend qr) s.cis.netQs } }
  let s := { s with cis := { s.cis with groups := Store.upd {} g (spend gr) s.cis.groups } }
  let kids := queueKids s root g fit
  let round := (groupSt s g).round
  let s := if kids.any fun k => k.idx == q then s
    else if root = 16 then { s with cis := { s.cis with hostQs := Store.upd {} q (deactivate round qr) s.cis.hostQs } }
    else { s with cis := { s.cis with netQs := Store.upd {} q (deactivate round qr) s.cis.netQs } }
  let s := { s with cis := { s.cis with groups := Store.upd {} g (fun n => endVisit n (kids.map (activate round))) s.cis.groups } }
  let rr := (Store.get ({} : NodeState) root s.cis.roots).round
  let s := if kids.isEmpty then { s with cis := { s.cis with groups := Store.upd {} g (deactivate rr gr) s.cis.groups } } else s
  let gk := groupKids s root fit
  { s with cis := { s.cis with roots := Store.upd {} root (fun n => endVisit n (gk.map (activate rr))) s.cis.roots } }

/-- A timed packet debits the buckets of its queue and group, and no deficit (R268). -/
def chargeTimed (q size : Nat) (s : State) : State :=
  let b := s.tables.active
  let qr := netRec b q
  let ns := nowNs s
  { s with cis := { s.cis with
    netQs := Store.upd {} q (fun n => { debit ns size qr n with sent := n.sent + 1 }) s.cis.netQs
    groups := Store.upd {} qr.parent (fun n => { debit ns size (groupRec b qr.parent) n with sent := n.sent + 1 }) s.cis.groups } }

/-- A ring's frame can have a Cistern buffer now (R254). -/
def txFits (s : State) (q : Qp) (n : Nat) : Bool :=
  match if 65536 < n then none else pickPool s n false with
  | some i => quotaOk s q.fn (poolSize i)
  | none => false

end Sys2Proof.Machine
end

