-- ==== Sys2Proof/Machine/Banks.lean ====
section
/-! DEFINITION. The double-banked stores and their writes: the records of chapters 7 and 9 (R189 to R210, R260, R263, R266),
the write opcodes of classes 0x07 and 0x09 (R216, R276), and the reads that go with them. -/

namespace Sys2Proof.Machine

open Sys2Proof

/-! ## Records read from their bytes -/

/-- A parse node (R191). -/
def readNode (b : Bytes) : ParseNode :=
  { selOff := bits (fld b 0 2) 0 13, selEnd := bit (fld b 0 2) 13, selWidth := fld b 2 1, slot := fld b 3 1, selMask := fld b 4 4,
    advConst := fld b 8 2, lenOff := bits (fld b 10 2) 0 12, lenWidth := fld b 12 1, lenScale := fld b 13 1,
    defaultNext := fld b 14 2, chkOff := bits (fld b 16 2) 0 12, chkScope := bit (fld b 16 2) 12, chkWidth := fld b 18 1,
    chkScale := fld b 19 1, chkBias := fld b 20 2,
    trans := (List.range 16).map fun t => { value := fld b (32 + 8 * t) 4, next := fld b (36 + 8 * t) 2, valid := bit (fld b 22 2) t } }

/-- A next-node code of the table of R191. -/
def nextOk (c : Nat) : Bool := decide (c < 256) || c == 0x8000 || c == 0x8001

/-- A parse node that is refused (R191). -/
def nodeBad (n : ParseNode) : Bool :=
  decide (32 < n.selWidth) || decide (16 < n.lenWidth) || decide (32 < n.chkWidth) || decide (4095 < n.selOff) ||
  decide (511 < n.advConst) || n.chkScale == 0 || (decide (16 ≤ n.slot) && decide (n.slot ≤ 254)) || !nextOk n.defaultNext ||
  n.trans.any fun t => t.valid && !nextOk t.next

/-- A queue handle that is refused wherever a record holds it (R204). -/
def handleBad (q : Nat) : Bool :=
  let low := q % 16384
  match q / 16384 % 4 with
  | 1 => decide (4096 ≤ low)
  | 2 => decide (2048 ≤ low) || decide (1025 < low)
  | 3 => low != 0x3FFF
  | _ => false

/-- A graph record (R196). -/
def readGraph (b : Bytes) : GraphRec :=
  { root := fld b 0 2, depthPolicy := fld b 2 1, conflictPolicy := fld b 3 1, excClass := fld b 4 2, excQueue := fld b 6 2,
    excRate := fld b 8 4 }

/-- A graph record that is refused (R196, R204). -/
def graphBad (g : GraphRec) : Bool :=
  decide (255 < g.root) || decide (2 < g.depthPolicy) || decide (2 < g.conflictPolicy) || decide (4095 < g.excClass) ||
  decide (10000000 < g.excRate) || handleBad g.excQueue

/-- A binding record (R216). -/
def readBind (b : Bytes) : Nat × Binding :=
  let w := fld b 0 4
  (bits w 0 11, { graph := bits w 16 2, treeSet := bits w 24 4 })

/-- A binding source the table has (R190, R216). -/
def bindSrcOk (n : Nat) : Bool := decide (n ≤ 16) || (decide (32 ≤ n) && decide (n ≤ 1057))

/-- Width of a metadata source of a key field (R199); a slot's fields are at most 64 bits. -/
def srcWidth (src : Nat) : Nat := if src = 0x10 then 5 else if src = 0x11 then 11 else if src = 0x12 ∨ src = 0x13 then 8 else 64

/-- A tree set record (R199). -/
def readTreeSet (b : Bytes) : TreeSet :=
  { root := fld b 0 4, defaultRule := fld b 4 2,
    fields := (List.range (min 8 (fld b 6 1))).map fun f =>
      { src := fld b (16 + 4 * f) 1, bitOff := bits (fld b (17 + 4 * f) 2) 0 12, width := fld b (19 + 4 * f) 1 } }

/-- A tree set record that is refused (R199). -/
def treeSetBad (b : Bytes) : Bool :=
  let t := readTreeSet b
  decide (8 < fld b 6 1) || decide (1048576 ≤ t.root) || decide (304 < (t.fields.map (·.width)).sum) ||
  t.fields.any fun f => decide (0x13 < f.src) || f.width == 0 || decide (srcWidth f.src < f.width)

/-- A tree node (R201). -/
def readTreeNode (b : Bytes) : TreeNode :=
  let ty := fld b 0 1 % 4
  { ty := ty, width := fld b 1 1, keyBit := fld b 2 2, thresh := fld b 4 4,
    left := if ty = 1 then fld b 8 2 else bits (fld b 8 4) 0 20, right := bits (fld b 12 4) 0 20 }

/-- A tree node that is refused (R201). -/
def treeNodeBad (n : TreeNode) : Bool :=
  if n.ty = 0 then n.width == 0 || decide (32 < n.width) || decide (320 < n.keyBit + n.width)
  else if n.ty = 1 then false else decide (63 < n.width)

/-- A rule (R203). -/
def readRule (b : Bytes) : Rule :=
  let w := fld b 0 8
  { cls := bits w 0 12, colour := bits w 12 2, queue := bits w 16 16 }

/-- A rule that is refused (R203, R204). -/
def ruleBad (r : Rule) : Bool := r.colour == 3 || handleBad r.queue

/-- A class record (R205). -/
def readClass (b : Bytes) : ClassRec := { alist := fld b 0 2, len := bits (fld b 0 8) 16 4 + 1 }

/-! ## Action words (R206) -/

/-- The opcode of an action word. -/
def wordOp (w : Nat) : Nat := bits w 56 8

/-- Template words that follow a PUSH_TUNNEL word (R207). -/
def templateWords (w : Nat) : Nat := (bits w 48 8 + 7) / 8

/-- The operand bits a word may set (R206). -/
def wordMask (op : Nat) : Option Nat :=
  match op with
  | 0x00 => some 0
  | 0x01 => some 0x00FFFFFFFF0F0000
  | 0x02 => some 0x0000FFFF00000000
  | 0x03 => some 0x00FFFFF0FFFFFFFF
  | 0x04 => some 0x00E000000001FFFF
  | 0x05 => some 0x0000000000003FFF
  | 0x06 => some 0x000000000000FFFF
  | 0x07 => some 0x0000FFFF0000FFFF
  | 0x08 => some 0x00FFFE0000000000
  | 0x09 => some 0x0000000000000FFF
  | 0x0A => some 0x0000FFFFF000FFFF
  | 0x0B => some 0x003FFFFFFF80FFFF
  | 0x0C => some 0x000000000000070F
  | 0x0D => some 0x0000FFFF0007FFFF
  | 0x0E => some 0
  | _ => none

/-- An action word that is refused (R204, R206, R207, R212). -/
def wordBad (w : Nat) : Bool :=
  match wordMask (wordOp w) with
  | none => true
  | some m =>
    Nat.land (w % 2 ^ 56) m != w % 2 ^ 56 ||
    (match wordOp w with
     | 0x01 => bits w 48 8 == 0 || decide (80 < bits w 48 8)
     | 0x03 => bits w 42 2 == 3
     | 0x07 => handleBad (bits w 32 16)
     | 0x08 => decide (1 < bits w 42 2)
     | 0x0A => bits w 28 12 == 0
     | 0x0D => handleBad (bits w 32 16)
     | _ => false)

/-- The CAP_UNITS bit of a unit a word names (R7, R209, R212, R217). -/
def wordNeeds (w : Nat) : Option Nat :=
  match wordOp w with
  | 0x04 => some 1
  | 0x09 => some 0
  | 0x0A => if bits w 28 8 = 0 then some 3 else none
  | 0x0B => if bits w 8 8 ≠ 0 then some 4 else none
  | 0x0C => if 8 ≤ bits w 0 4 then some 4 else none
  | 0x0D => if bits w 8 8 ≠ 0 then some 4 else none
  | _ => none

/-- The unit a word names that is absent, as its CAP_UNITS bit. -/
def wordAbsent (s : State) (w : Nat) : Option Nat := (wordNeeds w).bind fun b => if bit (capUnits s) b then none else some b

/-- The words of a run that are not template words, with their places (R207). -/
def listWords : Nat → Nat → List Nat → List (Nat × Nat)
  | 0, _, _ => []
  | _, _, [] => []
  | f + 1, i, w :: r =>
    let k := if wordOp w = 1 then templateWords w else 0
    (i, w) :: listWords f (i + 1 + k) (r.drop k)

/-- A list of `n` words ends inside a template (R207). -/
def endsInside : Nat → List Nat → Bool
  | 0, _ => false
  | _, [] => false
  | f + 1, w :: r =>
    let k := if wordOp w = 1 then templateWords w else 0
    decide (r.length < k) || endsInside f (r.drop k)

/-! ## Records of chapter 9 -/

/-- A policer record (R263). -/
def readPolicer (b : Bytes) : Policer :=
  { cir := fld b 0 4, pir := fld b 4 4, cbs := fld b 8 4, pbs := fld b 12 4, aware := bit (fld b 16 2) 0 }

/-- A policer record that is refused (R263). -/
def policerBad (p : Policer) : Bool :=
  decide (p.pir < p.cir) || decide (p.cbs < 64) || decide (268435456 < p.cbs) || decide (p.pbs < 64) || decide (268435456 < p.pbs)

/-- A scheduler node record (R266). -/
def readSched (b : Bytes) : SchedNode :=
  { parent := fld b 0 1, timed := bit (fld b 1 1) 0, lateDrop := bit (fld b 1 1) 1, prio := bits (fld b 1 1) 2 3, limitKib := fld b 2 2,
    quantum := fld b 4 4, burst := fld b 8 4, curveG := fld b 12 1, curveY := fld b 13 1, curveR := fld b 14 1, cir := fld b 16 4,
    cbs := fld b 20 4, pir := fld b 24 4, pbs := fld b 28 4, lateTol := fld b 32 4 }

/-- A scheduler node record of a target that is refused (R266): fields the target ignores are not checked. -/
def schedBad (target : Nat) (n : SchedNode) : Bool :=
  decide (n.quantum < 64) || decide (1048576 < n.quantum) || decide (n.burst < n.quantum) || decide (16777216 < n.burst) ||
  (target == 0 && decide (16 < n.parent) && n.parent != 0xFF) || (target == 1 && n.limitKib == 0)

/-- A curve record (R260). -/
def readCurve (b : Bytes) : Curve := { minKib := fld b 0 2, maxKib := fld b 2 2, pmax := fld b 4 1 }

/-- A spreading record (R210). -/
def readSpread (b : Bytes) : SpreadRec :=
  { alg := fld b 2 1, slotL3 := fld b 3 1, slotL4 := fld b 4 1, slotTun := fld b 5 1, fields := BitVec.ofNat 16 (fld b 6 2),
    key := slice b 8 40 }

/-- A spreading record that is refused (R210). -/
def spreadBad (b : Bytes) : Bool := decide (1025 < fld b 0 2) || decide (1 < fld b 2 1)

/-- The spreading record a function holds on leaving DRY (R480): its key is 40 zero bytes, kept as none. -/
def spreadOf (b : Bank) (f : Nat) : SpreadRec := Store.get {} f b.spreads

/-- Entries of a function's indirection table (R210). -/
def indirSize (f : Nat) : Nat := if isVf f then 512 else 4096

/-! ## Addresses of table records for the ECC rules (R426, DESIGN CHOICE, unsafe: log 21) -/

/-- Address in Table SRAM of record `k` of store `sub` of a section TYPE; each record has 256 bytes to itself. -/
def tableAddr (ty sub k : Nat) (inactive : Bool) : Nat := (16 * ty + sub) * 2 ^ 33 + b2n inactive * 2 ^ 32 + 256 * k

/-- A record of Table SRAM that a packet lookup reads is poisoned (R430). -/
def tablePoisoned (s : State) (ty sub k : Nat) (inactive : Bool) : Bool := poisonedIn s 2 (tableAddr ty sub k inactive) 256

/-- `n` records are written whole from record `k`: their poison clears (R428). -/
def freshTable (ty sub k n : Nat) (inactive : Bool) (s : State) : State := clearPoison 2 (tableAddr ty sub k inactive) (256 * n) s

/-- The section TYPE a Table SRAM word belongs to. -/
def wordType (w : Nat) : Nat := w / 2 ^ 30 / 16

/-- Section TYPEs of the double-banked stores (R240). -/
def bankedTypes : List Nat := [0x0010, 0x0011, 0x0012, 0x0013, 0x0014, 0x0030, 0x0031, 0x0032]

/-- Store number of tree nodes and of rules within TYPE 0x0011: the two single stores (R202). -/
def singleStore (w : Nat) : Bool := w / 2 ^ 30 == 16 * 0x0011 + 1 || w / 2 ^ 30 == 16 * 0x0011 + 2

/-- A word of a banked store. -/
def bankedWord (w : Nat) : Bool := bankedTypes.contains (wordType w) && !singleStore w

/-- At the switch the banks change places, and the poison of their words with them (R242). -/
def swapPoison (s : State) : State :=
  { s with fault := { s.fault with poison := Store.upd [] 2 (List.map fun w =>
      if bankedWord w then (if w / 2 ^ 29 % 2 = 1 then w - 2 ^ 29 else w + 2 ^ 29) else w) s.fault.poison } }

/-- The bank copy carries the poison of the written stores with it (R242 step 6). -/
def copyPoison (s : State) : State :=
  { s with fault := { s.fault with poison := Store.upd [] 2 (fun l =>
      let mine (w : Nat) : Bool := bankedWord w && s.tables.written.contains (wordType w)
      let keep := l.filter fun w => !(mine w && w / 2 ^ 29 % 2 == 1)
      keep ++ (keep.filter mine).map (· + 2 ^ 29)) s.fault.poison } }

/-! ## Writing (R189, R216 to R218, R240) -/

/-- Mark a banked store written, by its section TYPE (R240). -/
def markWritten (ty : Nat) (s : State) : State :=
  { s with tables := { s.tables with written := if s.tables.written.contains ty then s.tables.written else s.tables.written ++ [ty] } }

/-- Change the inactive bank and mark the store written. -/
def writeBank (ty : Nat) (g : Bank → Bank) (s : State) : State :=
  markWritten ty { s with tables := { s.tables with inactive := g s.tables.inactive } }

/-- Banked and PARSE-class writes answer BUSY while a COMMIT runs (R216, R242 step 1). -/
def tablesLocked (s : State) : Bool := s.tables.commit.isSome

/-- Store records from number `k`, each under its own default. -/
def putRecords {α : Type} [DecidableEq α] (dfl : Nat → α) (rd : Bytes → α) (k : Nat) : List Bytes → Store α → Store α
  | [], st => st
  | b :: r, st => putRecords dfl rd (k + 1) r (Store.set (dfl k) k (rd b) st)

/-- A write of records: TARGET, FIRST and the records; the index of the first refused record, or the state after. -/
abbrev Writer := Nat → Nat → List Bytes → State → Except Nat State

/-- Write records when the range lies in the store and no record is refused (R189, R216). -/
def writeIf (rangeOk : Bool) (bad : Bytes → Bool) (l : List Bytes) (g : State → State) (s : State) : Except Nat State :=
  if !rangeOk then .error 0
  else match l.findIdx? bad with
    | some i => .error i
    | none => .ok (g s)

/-- GRAPH_WRITE's records (R191, R196, R216). -/
def writeGraph : Writer := fun t first l s =>
  if first = 0xFFFFFFFF then
    writeIf (decide (t < 4) && l.length == 1) (fun b => graphBad (readGraph b)) l
      (fun s => freshTable 0x0010 1 t 1 true <| writeBank 0x0010 (fun k => { k with graphs := Store.set {} t (readGraph (l.headD [])) k.graphs }) s) s
  else
    writeIf (decide (t < 4) && decide (first + l.length ≤ 256)) (fun b => nodeBad (readNode b)) l
      (fun s => freshTable 0x0010 0 (256 * t + first) l.length true <| writeBank 0x0010 (fun k => { k with nodes := putRecords (fun _ => {}) readNode (256 * t + first) l k.nodes }) s) s

/-- Numbers a list holds, with `n` put in or taken out. -/
def noteNum (n : Nat) (yes : Bool) (l : List Nat) : List Nat := if yes then (if l.contains n then l else l ++ [n]) else l.filter fun x => x != n

/-- BIND_SET's records; each names its source (R190, R216). The store's range is that of the sources, 0 to 1,057 (DESIGN CHOICE, unsafe: log 34). -/
def writeBinds : Writer := fun t first l s =>
  writeIf (t == 0 && decide (first + l.length ≤ 1058)) (fun b => !bindSrcOk (readBind b).1) l
    (writeBank 0x0010 fun k => l.foldl (fun k b =>
      let n := (readBind b).1
      { k with binds := Store.set {} n (readBind b).2 k.binds, hiBinds := noteNum n (decide (8 ≤ n) && decide (n < 16)) k.hiBinds }) k) s

/-- TREE_WRITE's records: a single store (R201, R202). -/
def writeTrees : Writer := fun t first l s =>
  writeIf (t == 0 && decide (first + l.length ≤ 1048576)) (fun b => treeNodeBad (readTreeNode b)) l
    (fun s => freshTable 0x0011 1 first l.length false { s with tables := { s.tables with treeNodes := putRecords (fun _ => {}) readTreeNode first l s.tables.treeNodes } }) s

/-- TREESET_WRITE's record (R199). -/
def writeTreeSet : Writer := fun t _ l s =>
  writeIf (decide (t < 16) && l.length == 1) treeSetBad l
    (writeBank 0x0011 fun k => { k with treeSets := Store.set {} t (readTreeSet (l.headD [])) k.treeSets }) s

/-- RULE_WRITE's records: a single store (R203). -/
def writeRules : Writer := fun t first l s =>
  writeIf (decide (t < 16) && decide (first + l.length ≤ 65536)) (fun b => ruleBad (readRule b)) l
    (fun s => freshTable 0x0011 2 (65536 * t + first) l.length false { s with tables := { s.tables with rules := putRecords (fun _ => {}) readRule (65536 * t + first) l s.tables.rules } }) s

/-- CLASS_WRITE's records (R205). -/
def writeClasses : Writer := fun t first l s =>
  writeIf (t == 0 && decide (first + l.length ≤ 4096)) (fun _ => false) l
    (fun s => freshTable 0x0012 0 first l.length true <| writeBank 0x0012 (fun k => { k with classes := putRecords (fun _ => {}) readClass first l k.classes }) s) s

/-- Action words of a write that are checked: template words are not (R207). -/
def alistWords (l : List Bytes) : List (Nat × Nat) := listWords l.length 0 (l.map le)

/-- ALIST_WRITE's records (R206). -/
def writeAlist : Writer := fun t first l s =>
  if t ≠ 0 ∨ 65536 < first + l.length then .error 0
  else match (alistWords l).find? fun x => wordBad x.2 with
    | some x => .error x.1
    | none => .ok (freshTable 0x0013 0 first l.length true <| writeBank 0x0013 (fun k => { k with words := putRecords (fun _ => 0) (fun b => BitVec.ofNat 64 (le b)) first l k.words }) s)

/-- Spreading records, each naming its FUNC (R210). -/
def writeSpreads : Writer := fun t _ l s =>
  writeIf (t == 0) spreadBad l
    (writeBank 0x0014 fun k => { k with spreads := l.foldl (fun st b =>
      Store.set {} (fld b 0 2) (let r := readSpread b; if r.key = zeros 40 then { r with key := [] } else r) st) k.spreads }) s

/-- INDIR_WRITE's entries (R210). -/
def writeIndir : Writer := fun t first l s =>
  writeIf (decide (t < 1026) && decide (first + l.length ≤ indirSize t)) (fun _ => false) l
    (fun s => freshTable 0x0014 1 (4096 * t + first) l.length true <| writeBank 0x0014 (fun k => { k with indir := putRecords (fun _ => 0) le (4096 * t + first) l k.indir }) s) s

/-- POLICER_WRITE's records (R263). -/
def writePolicers : Writer := fun t first l s =>
  writeIf (t == 0 && decide (first + l.length ≤ 16384)) (fun b => policerBad (readPolicer b)) l
    (fun s => freshTable 0x0030 0 first l.length true <| writeBank 0x0030 (fun k => { k with policers := putRecords (fun _ => {}) readPolicer first l k.policers }) s) s

/-- Groups, from number `g` on, that have been written attached to a port of lanes 8 to 15. -/
def noteGroups (g : Nat) : List Bytes → List Nat → List Nat
  | [], l => l
  | b :: r, l => noteGroups (g + 1) r (noteNum g (decide (8 ≤ (readSched b).parent) && decide ((readSched b).parent < 16)) l)

/-- SCHED_WRITE's records (R266). -/
def writeSched : Writer := fun t first l s =>
  let size := if t = 0 then 256 else if t = 1 then 4096 else 16384
  writeIf (decide (t < 3) && decide (first + l.length ≤ size)) (fun b => schedBad t (readSched b)) l
    (writeBank 0x0031 fun k =>
      if t = 0 then { k with groups := putRecords groupDfl readSched first l k.groups, hiGroups := noteGroups first l k.hiGroups }
      else if t = 1 then { k with netQs := putRecords netDfl readSched first l k.netQs }
      else { k with hostQs := putRecords hostDfl readSched first l k.hostQs }) s

/-- CURVE_WRITE's records (R260). -/
def writeCurves : Writer := fun t first l s =>
  writeIf (t == 0 && decide (first + l.length ≤ 256)) (fun b => decide ((readCurve b).maxKib < (readCurve b).minKib)) l
    (fun s => freshTable 0x0032 0 first l.length true <| writeBank 0x0032 (fun k => { k with curves := putRecords (fun _ => {}) readCurve first l k.curves }) s) s

/-! ## The shared write form (R216) -/

/-- Record size of a GRAPH_WRITE, which its FIRST selects. -/
def graphRecSize (c : Cmd) : Nat := if arg c 4 4 = 0xFFFFFFFF then 16 else 160

/-- PAYLOAD_LEN is 16 + COUNT x the record size, and COUNT is not 0 (R216). -/
def lenWrite (size : Nat) (c : Cmd) : Bool := arg c 8 4 != 0 && c.payloadLen == 16 + arg c 8 4 * size

/-- The records of a write's payload. -/
def writeRecs (size : Nat) (c : Cmd) : List Bytes := records size (arg c 8 4) (c.payload.drop 16)

/-- What a write does once its length is right: BUSY under a COMMIT, else all of its records or none (R216, R217). -/
def writeBody (w : Writer) (size : Cmd → Nat) (result : Nat → Nat) : Body := answer fun _ c s =>
  if tablesLocked s then (s, err stBusy 0)
  else match w (arg c 0 2) (arg c 4 4) (writeRecs (size c) c) s with
    | .error i => (s, err stBadLength i)
    | .ok t => (t, ok (result (arg c 8 4)) 0)

/-- A write opcode. -/
def writeInfo (code : Nat) (len : Cmd → Bool) : OpInfo := { code := code, len := len, priv := true, gated := true }

/-- What the shared checks need to know of GRAPH_WRITE, opcode 0x0701. -/
def infoGraphWrite : OpInfo := writeInfo 0x0701 fun c => lenWrite (graphRecSize c) c

/-- GRAPH_WRITE (R191, R196, R216). -/
def execGraphWrite (c : Cmd) (s : State) : Host.Outcome State Fault Refusal :=
  done (runCommand infoGraphWrite (writeBody writeGraph graphRecSize id) c s)

/-- What the shared checks need to know of BIND_SET, opcode 0x0702. -/
def infoBindSet : OpInfo := writeInfo 0x0702 (lenWrite 4)

/-- BIND_SET (R190, R216). -/
def execBindSet (c : Cmd) (s : State) : Host.Outcome State Fault Refusal :=
  done (runCommand infoBindSet (writeBody writeBinds (fun _ => 4) id) c s)

/-- What the shared checks need to know of TREE_WRITE, opcode 0x0703. -/
def infoTreeWrite : OpInfo := writeInfo 0x0703 (lenWrite 16)

/-- TREE_WRITE (R201, R216). -/
def execTreeWrite (c : Cmd) (s : State) : Host.Outcome State Fault Refusal :=
  done (runCommand infoTreeWrite (writeBody writeTrees (fun _ => 16) id) c s)

/-- What the shared checks need to know of TREESET_WRITE, opcode 0x0704. -/
def infoTreesetWrite : OpInfo := writeInfo 0x0704 (lenWrite 48)

/-- TREESET_WRITE (R199, R216). -/
def execTreesetWrite (c : Cmd) (s : State) : Host.Outcome State Fault Refusal :=
  done (runCommand infoTreesetWrite (writeBody writeTreeSet (fun _ => 48) fun _ => 0) c s)

/-- What the shared checks need to know of RULE_WRITE, opcode 0x0705. -/
def infoRuleWrite : OpInfo := writeInfo 0x0705 (lenWrite 8)

/-- RULE_WRITE (R203, R216). -/
def execRuleWrite (c : Cmd) (s : State) : Host.Outcome State Fault Refusal :=
  done (runCommand infoRuleWrite (writeBody writeRules (fun _ => 8) id) c s)

/-- What the shared checks need to know of CLASS_WRITE, opcode 0x0706. -/
def infoClassWrite : OpInfo := writeInfo 0x0706 (lenWrite 8)

/-- CLASS_WRITE (R205, R216). -/
def execClassWrite (c : Cmd) (s : State) : Host.Outcome State Fault Refusal :=
  done (runCommand infoClassWrite (writeBody writeClasses (fun _ => 8) id) c s)

/-- What the shared checks need to know of ALIST_WRITE, opcode 0x0707. -/
def infoAlistWrite : OpInfo := writeInfo 0x0707 (lenWrite 8)

/-- ALIST_WRITE (R206, R216, R217): NO_UNIT for a word that names an absent unit. -/
def execAlistWrite (c : Cmd) (s : State) : Host.Outcome State Fault Refusal :=
  done (runCommand infoAlistWrite
    (answer fun _ c s =>
      let l := writeRecs 8 c
      if tablesLocked s then (s, err stBusy 0)
      else match writeAlist (arg c 0 2) (arg c 4 4) l s with
        | .error i => (s, err stBadLength i)
        | .ok t =>
          match (alistWords l).findSome? fun x => wordAbsent s x.2 with
          | some b => (s, err stNoUnit b)
          | none => (t, ok (arg c 8 4) 0)) c s)

/-- What the shared checks need to know of SPREAD_SET, opcode 0x0708. -/
def infoSpreadSet : OpInfo := writeInfo 0x0708 fun c => lenWrite 64 c && arg c 8 4 == 1

/-- SPREAD_SET (R210, R216): one record. -/
def execSpreadSet (c : Cmd) (s : State) : Host.Outcome State Fault Refusal :=
  done (runCommand infoSpreadSet (writeBody writeSpreads (fun _ => 64) fun _ => 0) c s)

/-- What the shared checks need to know of INDIR_WRITE, opcode 0x0709. -/
def infoIndirWrite : OpInfo := writeInfo 0x0709 (lenWrite 2)

/-- INDIR_WRITE (R210, R216). -/
def execIndirWrite (c : Cmd) (s : State) : Host.Outcome State Fault Refusal :=
  done (runCommand infoIndirWrite (writeBody writeIndir (fun _ => 2) id) c s)

/-- What the shared checks need to know of FLOWCNT_READ, opcode 0x070A. -/
def infoFlowcntRead : OpInfo := { code := 0x070A, len := lenIs 16, modes := modesRead, outOff := some 8 }

/-- FLOWCNT_READ (R215, R216): with CLEAR, each counter is read and zeroed in one step. -/
def execFlowcntRead (c : Cmd) (s : State) : Host.Outcome State Fault Refusal :=
  done (runCommand infoFlowcntRead
    (answer fun _ c s =>
      let first := arg c 0 4
      let n := arg c 4 2
      if n = 0 ∨ 4096 < n ∨ 65536 < first + n then (s, err stBadLength 0)
      else
        let out := ((List.range n).map fun i =>
          let x := Store.get (0, 0) (first + i) s.tables.flowCnt
          toLe 8 x.1 ++ toLe 8 x.2).flatten
        let cnt := if bit (arg c 6 2) 0 then s.tables.flowCnt.filter fun x => !(decide (first ≤ x.1) && decide (x.1 < first + n))
          else s.tables.flowCnt
        ({ s with tables := { s.tables with flowCnt := cnt } }, okOut n 0 (arg c 8 8) out)) c s)

/-- What the shared checks need to know of PROGRAM_LIST, opcode 0x070B. -/
def infoProgramList : OpInfo := { code := 0x070B, len := lenIs 16, outOff := some 0 }

/-- The budget of a listed program, which lies within the bounds of R214. -/
def programBudget (x : Nat) : Nat := 64 + x % 16321

/-- The 8 ASCII bytes of a listed program's name (R216). -/
def programName (x : Nat) : Bytes := (toLe 8 x).map fun b => b &&& 0x7F#8

/-- PROGRAM_LIST (R214, R216): the programs the firmware lists. -/
def execProgramList (c : Cmd) (s : State) : Host.Outcome State Fault Refusal :=
  done (runCommand infoProgramList
    (readBody fun _ c _ =>
      let l := (List.range 256).filterMap fun p => (Config.program p).map fun x =>
        toLe 1 p ++ toLe 1 0 ++ toLe 2 (programBudget x.2.1) ++ toLe 4 x.2.2 ++ programName x.1
      if arg c 8 8 < 16 * l.length then err stBadLength 0 else okOut l.length 0 (arg c 0 8) l.flatten) c s)

/-! ## Class 0x09 (R276) -/

/-- What the shared checks need to know of POLICER_WRITE, opcode 0x0901. -/
def infoPolicerWrite : OpInfo := writeInfo 0x0901 (lenWrite 32)

/-- POLICER_WRITE (R263, R276). -/
def execPolicerWrite (c : Cmd) (s : State) : Host.Outcome State Fault Refusal :=
  done (runCommand infoPolicerWrite (writeBody writePolicers (fun _ => 32) id) c s)

/-- What the shared checks need to know of POLICER_READ, opcode 0x0902. -/
def infoPolicerRead : OpInfo := { code := 0x0902, len := lenIs 16, modes := modesRead, outOff := some 8 }

/-- POLICER_READ (R262, R276). -/
def execPolicerRead (c : Cmd) (s : State) : Host.Outcome State Fault Refusal :=
  done (runCommand infoPolicerRead
    (readBody fun _ c s =>
      let first := arg c 0 4
      let n := arg c 4 4
      if n = 0 ∨ 4096 < n ∨ 16384 < first + n then err stBadLength 0
      else okOut n 0 (arg c 8 8) ((List.range n).map fun i =>
        let x := Store.get (0, 0, 0) (first + i) s.cis.polCnt
        toLe 8 x.1 ++ toLe 8 x.2.1 ++ toLe 8 x.2.2).flatten) c s)

/-- What the shared checks need to know of SCHED_WRITE, opcode 0x0903. -/
def infoSchedWrite : OpInfo := writeInfo 0x0903 (lenWrite 48)

/-- SCHED_WRITE (R266, R276). -/
def execSchedWrite (c : Cmd) (s : State) : Host.Outcome State Fault Refusal :=
  done (runCommand infoSchedWrite (writeBody writeSched (fun _ => 48) id) c s)

/-- What the shared checks need to know of CURVE_WRITE, opcode 0x0904. -/
def infoCurveWrite : OpInfo := writeInfo 0x0904 (lenWrite 8)

/-- CURVE_WRITE (R260, R276). -/
def execCurveWrite (c : Cmd) (s : State) : Host.Outcome State Fault Refusal :=
  done (runCommand infoCurveWrite (writeBody writeCurves (fun _ => 8) id) c s)

/-- Depth of a group, a network egress queue or a host-transmit queue, as QUEUE_STATUS gives it (R276). -/
def statusDepth (s : State) (t q : Nat) : Nat :=
  if t = 1 then queueDepth s q
  else if t = 0 then ((s.cis.queues.filter fun x => (netRec s.tables.active x.1).parent == q).map fun x => queueDepth s x.1).sum
  else if (qpAt s q).ty = 0 then (((qpAt s q).frames.filter fun f => !f.reading).map fun f => f.tx.len).sum else 0

/-- What the shared checks need to know of QUEUE_STATUS, opcode 0x0906. -/
def infoQueueStatus : OpInfo := { code := 0x0906, len := lenIs 16, modes := modesRead, outOff := some 8 }

/-- QUEUE_STATUS (R276): tokens are whole bytes, signed. -/
def execQueueStatus (c : Cmd) (s : State) : Host.Outcome State Fault Refusal :=
  done (runCommand infoQueueStatus
    (readBody fun _ c s =>
      let t := arg c 0 4
      let q := arg c 4 4
      if 2 < t ∨ (if t = 0 then 256 else if t = 1 then 4096 else 16384) ≤ q then err stBadLength 0
      else
        let b := s.tables.active
        let (r, n) := if t = 0 then (groupRec b q, groupSt s q) else if t = 1 then (netRec b q, Store.get {} q s.cis.netQs)
          else (hostRec b q, Store.get {} q s.cis.hostQs)
        let n := fillNode (nowNs s) r n
        okOut 0 0 (arg c 8 8) (toLe 8 (statusDepth s t q) ++ toLe 8 n.deficit ++ toLe 8 (unsigned 64 (n.tc / 8000000)) ++
          toLe 8 (unsigned 64 (n.tp / 8000000)) ++ toLe 8 n.dropG ++ toLe 8 n.dropY ++ toLe 8 n.dropR ++ toLe 8 n.sent)) c s)

end Sys2Proof.Machine
end

