-- ==== Sys2Proof/Machine/Tables.lean ====
section
/-! DEFINITION. Exact-match tables and the Sieve (R219 to R239), their opcodes of class 0x08 (R246, R247), and the sweeper (R229). -/

namespace Sys2Proof.Machine

open Sys2Proof

/-! ## Exact-match tables (R219 to R227) -/

/-- An exact-match table. -/
def emAt (s : State) (t : Nat) : EmTab := Store.get {} t s.tables.em

/-- Change an exact-match table. -/
def updEm (t : Nat) (g : EmTab → EmTab) (s : State) : State := { s with tables := { s.tables with em := Store.upd {} t g s.tables.em } }

/-- The table is defined: its KEY_LEN is not 0. -/
def emDefined (s : State) (t : Nat) : Bool := decide (t < 64) && (emAt s t).keyLen != 0

/-- Entries a table can hold (R220). -/
def emCapacity (t : EmTab) : Nat := 4 * 2 ^ t.log2

/-- A key cut or padded with zero bytes to KEY_LEN (R201). -/
def emKey (t : EmTab) (k : Bytes) : Bytes := (k ++ zeros t.keyLen).take t.keyLen

/-- bucket_A of a key (R223). -/
def bucketA (t : EmTab) (k : Bytes) : Nat := Nat.xor (crc32cFrom t.seedA k) 0xFFFFFFFF % 2 ^ t.log2

/-- bucket_B of a key (R223): never bucket_A. -/
def bucketB (t : EmTab) (k : Bytes) : Nat :=
  let b := Nat.xor (crc32cFrom t.seedB k) 0xFFFFFFFF % 2 ^ t.log2
  if b = bucketA t k then Nat.xor b 1 else b

/-- The slot of a bucket that holds a key. -/
def emIn (t : EmTab) (b : Nat) (k : Bytes) : Option Nat :=
  (List.range 4).find? fun i => let e := Store.get {} (4 * b + i) t.entries; !e.key.isEmpty && decide (e.key = k)

/-- Where a key stands: 4 x bucket + slot (R224). -/
def emFind (t : EmTab) (k : Bytes) : Option Nat :=
  match emIn t (bucketA t k) k with
  | some i => some (4 * bucketA t k + i)
  | none => (emIn t (bucketB t k) k).map fun i => 4 * bucketB t k + i

/-- The lowest free slot of a bucket, as 4 x bucket + slot. -/
def emFree (t : EmTab) (b : Nat) : Option Nat :=
  ((List.range 4).find? fun i => (Store.get ({} : EmEntry) (4 * b + i) t.entries).key.isEmpty).map (4 * b + ·)

/-- Address of an entry in Clay for the ECC rules (DESIGN CHOICE, unsafe: log 21). -/
def emAddr (t i : Nat) : Nat := (t + 1) * 2 ^ 40 + 128 * i

/-- An entry that a lookup of a key reads is poisoned (R430). -/
def emPoisoned (s : State) (t : Nat) (k : Bytes) : Bool :=
  let e := emAt s t
  poisonedIn s 9 (emAddr t (4 * bucketA e k)) 512 || poisonedIn s 9 (emAddr t (4 * bucketB e k)) 512

/-- Write an entry whole. -/
def emWrite (t i : Nat) (e : EmEntry) (s : State) : State :=
  clearPoison 9 (emAddr t i) 128 (updEm t (fun x => { x with entries := Store.set {} i e x.entries }) s)

/-- A slot of bucket `b` not tried on the path, from slot `s` on (R227). -/
def emUntried (path : List Nat) (b : Nat) : Nat → Nat → Nat
  | 0, s => s
  | n + 1, s => if path.contains (4 * b + s) then emUntried path b n ((s + 1) % 4) else s

/-- The path search of R227, newest step first, with the free slot its last step moves to. -/
def emPath (t : EmTab) : Nat → Nat → Nat → List Nat → Option (List Nat × Nat)
  | 0, _, _, _ => none
  | fuel + 1, b, s, path =>
    let s := emUntried path b 3 s
    if path.contains (4 * b + s) then none
    else
      let k := (Store.get ({} : EmEntry) (4 * b + s) t.entries).key
      let alt := if bucketA t k = b then bucketB t k else bucketA t k
      match emFree t alt with
      | some f => some ((4 * b + s) :: path, f)
      | none => emPath t fuel alt ((s + 1) % 4) ((4 * b + s) :: path)

/-- Put a new entry into a table (R226, R227): the lowest free slot of bucket_A, then of bucket_B, else a relocation
path of at most 32 moves. False when there is no room; then nothing moves. -/
def emPut (n : Nat) (e : EmEntry) (s : State) : Bool × State :=
  let t := emAt s n
  match (emFree t (bucketA t e.key)).or (emFree t (bucketB t e.key)) with
  | some i => (true, emWrite n i e s)
  | none =>
    match emPath t 32 (bucketA t e.key) 0 [] with
    | none => (false, count (cEm n 1) s)
    | some (path, free) =>
      let (s, dst) := path.foldl (fun (x : State × Nat) src => (emWrite n x.2 (Store.get {} src (emAt x.1 n).entries) x.1, src)) (s, free)
      (true, emWrite n dst e s)

/-- Apply one record as one atomic step (R225 to R227): the failure, and the state. -/
def emRecord (n : Nat) (b : Bytes) (s : State) : Option Answer × State :=
  let t := emAt s n
  let k := emKey t (slice b 16 64)
  if emPoisoned s n k then (some (err stInternal (poisonDetail 9)), s)
  else match emFind t k with
    | some i =>
      let e := Store.get {} i t.entries
      if fld b 0 1 = 2 then (none, emWrite n i {} s)
      else if bit (fld b 1 1) 1 then (some (err stState 2), s)
      else (none, emWrite n i { e with rule := fld b 2 2, user := fld b 4 4, static := bit (fld b 1 1) 0 } s)
    | none =>
      if fld b 0 1 = 2 then (none, s)
      else
        let (ok, s) := emPut n { key := k, rule := fld b 2 2, user := fld b 4 4, static := bit (fld b 1 1) 0 } s
        (if ok then none else some (err stNoResource 1), s)

/-- Apply records in order, up to the first that fails (R226): how many were applied, the failure, and the state. -/
def applyRecords (f : Bytes → State → Option Answer × State) : Nat → List Bytes → State → Nat × Option Answer × State
  | n, [], s => (n, none, s)
  | n, b :: r, s =>
    match f b s with
    | (none, t) => applyRecords f (n + 1) r t
    | (some a, t) => (n, some a, t)

/-- Entries VALID in a table. -/
def emValid (s : State) (t : Nat) : Nat := (emAt s t).entries.length

/-- Read a descriptor (R219): 0 selects a NOTICE_MS of 100. -/
def readEm (b : Bytes) : EmTab :=
  { keyLen := fld b 1 1, fn := fld b 2 2, log2 := fld b 4 1, seedA := fld b 8 4, seedB := fld b 12 4, ageMs := fld b 16 4,
    noticeMs := if fld b 20 2 = 0 then 100 else fld b 20 2 }

/-- The sweeper's load with a table among the others: sum over ageing tables of capacity / AGE_MS, as a fraction (R221). -/
def sweepLoad (l : List EmTab) : Rat := (l.filter fun t => t.ageMs != 0).foldl (fun a t => a + mkRat (emCapacity t) t.ageMs) 0

/-- Define a table from its descriptor (R219 to R221): the failure, or the state with every entry cleared. -/
def emDefine (b : Bytes) (s : State) : Except Answer State :=
  let n := fld b 0 1
  let t := readEm b
  let others := (s.tables.em.filter fun x => x.1 != n).map (·.2)
  if 63 < n ∨ t.keyLen = 0 ∨ 64 < t.keyLen ∨ 1025 < t.fn ∨ t.log2 < 4 ∨ 23 < t.log2 ∨ t.seedA = t.seedB ∨ 3600000 < t.ageMs then
    .error (err stBadLength 0)
  else if t.ageMs ≠ 0 ∧ 65536 < sweepLoad (t :: others) then .error (err stBadLength 0x10)
  else if (funcOf s t.fn).emEntries < emCapacity t + ((others.filter fun x => x.fn == t.fn).map emCapacity).sum then .error (err stQuota 0)
  else if 33554432 < emCapacity t + (others.map emCapacity).sum then .error (err stNoResource 0)
  else .ok (clearPoison 9 (emAddr n 0) (2 ^ 40) { s with tables := { s.tables with em := Store.set {} n t s.tables.em } })

/-! ## The Sieve (R232 to R238) -/

/-- A Sieve table. -/
def sieveAt (s : State) (t : Nat) : SieveTab := Store.get {} t s.tables.sieve

/-- The table is defined: it has banks. -/
def sieveDefined (s : State) (t : Nat) : Bool := decide (t < 64) && (sieveAt s t).banks != 0

/-- Rows of a table (R232). -/
def sieveCapacity (t : SieveTab) : Nat := 1024 * t.banks

/-- A key of at most 160 bits, padded with zero bits (R201, R233). -/
def sieveKey (b : Bytes) : BitVec 160 := BitVec.ofNat 160 (be ((b ++ zeros 20).take 20))

/-- Key bit `i`, where bit 0 is the most significant (R192). -/
def keyBit (k : BitVec 160) (i : Nat) : Bool := k.getLsbD (159 - i)

/-- The rows of bank `j` of a table. -/
def bankRows (t : SieveTab) (j : Nat) : List SieveRow := (t.rows.filter fun r => r.1 / 1024 == j).map (·.2)

/-- The tag and tag mask of a bank (R234): bit `i` is held when every VALID row compares it and all agree. -/
def bankTag (t : SieveTab) (j : Nat) : BitVec 16 :=
  let l := bankRows t j
  let f (i pos : Nat) : Nat :=
    match l with
    | [] => 0
    | r :: _ =>
      if l.all fun x => keyBit x.mask pos && keyBit x.value pos == keyBit r.value pos then 2 ^ (8 + i) + (if keyBit r.value pos then 2 ^ i else 0)
      else 0
  BitVec.ofNat 16 (((List.range t.pfBits.length).map fun i => f i (t.pfBits.getD i 0)).sum)

/-- A table with its tags recomputed (R234). -/
def retag (t : SieveTab) : SieveTab :=
  { t with tags := (List.range t.banks).foldl (fun st j => Store.set 0 j (bankTag t j) st) [] }

/-- A bank is powered by a search of a key (R234). -/
def bankPowered (t : SieveTab) (k : BitVec 160) (j : Nat) : Bool :=
  let g := Store.get 0 j t.tags
  !(bankRows t j).isEmpty &&
  (List.range t.pfBits.length).all fun i => !g.getLsbD (8 + i) || g.getLsbD i == keyBit k (t.pfBits.getD i 0)

/-- The rows a key matches, lowest first, among the powered banks (R233, R234). -/
def sieveHits (t : SieveTab) (k : BitVec 160) : List (Nat × SieveRow) :=
  t.rows.filter fun r => bankPowered t k (r.1 / 1024) && decide (k &&& r.2.mask = r.2.value)

/-- Address of a row of a table in the Sieve memory for the ECC rules (DESIGN CHOICE, unsafe: log 21). -/
def sieveAddr (t : SieveTab) (row : Nat) : Nat := 64 * (1024 * t.firstBank + row)

/-- A row that a search reads is poisoned (R430). -/
def sievePoisoned (s : State) (t : SieveTab) (k : BitVec 160) : Bool :=
  t.rows.any fun r => bankPowered t k (r.1 / 1024) && poisonedIn s 3 (sieveAddr t r.1) 64

/-- The prefix length of a mask, none when it is no prefix (R235). -/
def prefixLen (m : BitVec 160) : Option Nat :=
  (List.range 161).find? fun n => decide (m = BitVec.ofNat 160 ((2 ^ n - 1) * 2 ^ (160 - n)))

/-- Read a Sieve descriptor (R232). -/
def readSieve (b : Bytes) : SieveTab :=
  { mode := fld b 1 1, fn := fld b 2 2, firstBank := fld b 4 1, banks := fld b 5 1,
    pfBits := (List.range (min 8 (fld b 6 1))).map fun i => fld b (8 + i) 1 }

/-- Define a Sieve table (R220, R232): the failure, or the state with its rows cleared. -/
def sieveDefine (b : Bytes) (s : State) : Except Answer State :=
  let n := fld b 0 1
  let t := readSieve b
  let others := (s.tables.sieve.filter fun x => x.1 != n).map (·.2)
  let clash := (List.range t.banks).find? fun j =>
    others.any fun (o : SieveTab) => decide (o.firstBank ≤ t.firstBank + j) && decide (t.firstBank + j < o.firstBank + o.banks)
  if 63 < n ∨ 1 < t.mode ∨ 1025 < t.fn ∨ 63 < t.firstBank ∨ t.banks = 0 ∨ 64 < t.firstBank + t.banks ∨ 8 < fld b 6 1 ∨
      ((List.range 8).any fun i => decide (159 < fld b (8 + i) 1)) then .error (err stBadLength 0)
  else if (funcOf s t.fn).sieveEntries < sieveCapacity t + ((others.filter fun x => x.fn == t.fn).map sieveCapacity).sum then
    .error (err stQuota 0)
  else match clash with
    | some j => .error (err stNoResource (t.firstBank + j))
    | none => .ok (clearPoison 3 (sieveAddr t 0) (64 * sieveCapacity t) { s with tables := { s.tables with sieve := Store.set {} n t s.tables.sieve } })

/-- A Sieve record that is refused (R235, R236, R247). -/
def sieveBad (t : SieveTab) (b : Bytes) : Bool :=
  let op := fld b 0 1
  op == 0 || decide (3 < op) || ((op == 2 || (op == 1 && t.mode == 0)) && decide (sieveCapacity t ≤ fld b 4 2)) ||
  (op == 1 && t.mode == 1 && (prefixLen (sieveKey (slice b 28 20))).isNone)

/-- Store rows and recompute the tags. -/
def sieveStore (n : Nat) (rows : Store SieveRow) (fresh : List Nat) (s : State) : State :=
  let t := retag { sieveAt s n with rows := rows }
  fresh.foldl (fun u r => clearPoison 3 (sieveAddr t r) 64 u) { s with tables := { s.tables with sieve := Store.set {} n t s.tables.sieve } }

/-- The first free row at or after `p` (R237). -/
def freeRow (p : Nat) (rows : Store SieveRow) : Nat := rows.foldl (fun h r => if r.1 = h then h + 1 else h) p

/-- Insert a row at target `p`: rows `p` to `h - 1` move down by one (R237, R238). Rows moved, or none without room. -/
def sieveInsert (n p : Nat) (r : SieveRow) (s : State) : Option (Nat × State) :=
  let t := sieveAt s n
  let h := freeRow p t.rows
  if sieveCapacity t ≤ h then none
  else
    let moved := t.rows.map fun x => if p ≤ x.1 ∧ x.1 < h then (x.1 + 1, x.2) else x
    some (h - p, sieveStore n (Store.set {} p r moved) (List.range' p (h + 1 - p)) s)

/-- Apply one Sieve record (R235 to R237): the failure, or the rows moved and the state. -/
def sieveRecord (n : Nat) (b : Bytes) (s : State) : Except Answer (Nat × State) :=
  let t := sieveAt s n
  let m := sieveKey (slice b 28 20)
  let v := sieveKey (slice b 8 20) &&& m
  let same := t.rows.find? fun r => decide (r.2.mask = m ∧ r.2.value = v)
  let new : SieveRow := { valid := true, value := v, mask := m, rule := fld b 2 2 }
  let put (p : Nat) : Except Answer (Nat × State) :=
    match sieveInsert n p new s with
    | some x => .ok x
    | none => .error (err stNoResource 2)
  if fld b 0 1 = 2 then .ok (0, sieveStore n (Store.set {} (fld b 4 2) {} t.rows) [fld b 4 2] s)
  else if fld b 0 1 = 3 then
    match same with
    | some r => .ok (0, sieveStore n (Store.set {} r.1 {} t.rows) [r.1] s)
    | none => .ok (0, s)
  else if t.mode = 0 then put (fld b 4 2)
  else match same with
    | some r => .ok (0, sieveStore n (Store.set {} r.1 { r.2 with rule := fld b 2 2 } t.rows) [r.1] s)
    | none =>
      let l := (prefixLen m).getD 0
      let p := match t.rows.find? fun r => decide ((prefixLen r.2.mask).getD 0 < l) with
        | some r => r.1
        | none => (t.rows.getLast?.map fun r => r.1 + 1).getD 0
      if 0 < p ∧ !(t.rows.any fun r => r.1 == p - 1) then put (p - 1) else put p

/-- Apply Sieve records in order, adding up the rows moved. -/
def applySieve (n : Nat) : Nat → Nat → List Bytes → State → Nat × Nat × Option Answer × State
  | k, mv, [], s => (k, mv, none, s)
  | k, mv, b :: r, s =>
    match sieveRecord n b s with
    | .ok (m, t) => applySieve n (k + 1) (mv + m) r t
    | .error a => (k, mv, some a, s)

/-! ## Class 0x08 (R246, R247) -/

/-- What the shared checks need to know of EM_DEFINE, opcode 0x0801. -/
def infoEmDefine : OpInfo := { code := 0x0801, len := lenIs 32, modes := [.priming], priv := true, gated := true }

/-- EM_DEFINE (R219 to R221, R246). -/
def execEmDefine (c : Cmd) (s : State) : Host.Outcome State Fault Refusal :=
  done (runCommand infoEmDefine
    (answer fun _ c s =>
      match emDefine c.payload s with
      | .error a => (s, a)
      | .ok t => (t, ok (emCapacity (readEm c.payload)) 0)) c s)

/-- The length of an update: a 16-byte header and COUNT records (R41, R246). -/
def lenUpdate (size most : Nat) (c : Cmd) : Bool :=
  decide (1 ≤ arg c 4 4) && decide (arg c 4 4 ≤ most) && c.payloadLen == 16 + size * arg c 4 4

/-- What the shared checks need to know of EM_UPDATE, opcode 0x0802. -/
def infoEmUpdate : OpInfo := { code := 0x0802, len := lenUpdate 80 818, priv := true, gated := true }

/-- EM_UPDATE (R225 to R227, R246). -/
def execEmUpdate (c : Cmd) (s : State) : Host.Outcome State Fault Refusal :=
  done (runCommand infoEmUpdate
    (answer fun _ c s =>
      let n := arg c 0 4
      let l := records 80 (arg c 4 4) (c.payload.drop 16)
      if !emDefined s n then (s, err stBadLength 0)
      else match l.findIdx? fun b => !(fld b 0 1 == 1 || fld b 0 1 == 2) with
        | some i => (s, err stBadLength i)
        | none =>
          let (k, f, s) := applyRecords (emRecord n) 0 l s
          let s := if (f.map (·.status)) = some stInternal then poisonConsumed 9 s else s
          (s, { f.getD (ok 0 0) with r0 := k, r1 := emValid s n })) c s)

/-- What the shared checks need to know of EM_LOOKUP, opcode 0x0804. -/
def infoEmLookup : OpInfo := { code := 0x0804, len := lenIs 72 }

/-- EM_LOOKUP (R224, R246): HIT is not set. -/
def execEmLookup (c : Cmd) (s : State) : Host.Outcome State Fault Refusal :=
  done (runCommand infoEmLookup
    (answer fun _ c s =>
      let n := arg c 0 8
      let k := emKey (emAt s n) (slice c.payload 8 64)
      if !emDefined s n then (s, err stBadLength 0)
      else if emPoisoned s n k then (poisonConsumed 9 s, err stInternal (poisonDetail 9))
      else match emFind (emAt s n) k with
        | none => (s, ok 0 0)
        | some i =>
          let e := Store.get {} i (emAt s n).entries
          (s, ok (1 + 2 ^ 16 * e.rule + 2 ^ 32 * b2n e.static + 2 ^ 33 * b2n e.learned + 2 ^ 34 * e.idle) e.user)) c s)

/-- The 80-byte aged-entry record (R231). -/
def agedBytes (r : AgedRec) : Bytes :=
  toLe 1 r.table ++ toLe 1 (b2n r.learned) ++ toLe 2 r.rule ++ toLe 4 r.user ++ toLe 8 r.time ++ (r.key ++ zeros 64).take 64

/-- What the shared checks need to know of EM_AGED_READ, opcode 0x0805. -/
def infoEmAgedRead : OpInfo := { code := 0x0805, len := lenIs 16, outOff := some 0 }

/-- EM_AGED_READ (R230, R246). -/
def execEmAgedRead (c : Cmd) (s : State) : Host.Outcome State Fault Refusal :=
  done (runCommand infoEmAgedRead
    (answer fun _ c s =>
      let m := arg c 8 8
      if m = 0 ∨ 1024 < m then (s, err stBadLength 0)
      else
        let l := s.tables.aged.take m
        let left := s.tables.aged.drop m
        ({ s with tables := { s.tables with aged := left } }, okOut l.length left.length (arg c 0 8) (l.map agedBytes).flatten)) c s)

/-- What the shared checks need to know of SIEVE_DEFINE, opcode 0x0806. -/
def infoSieveDefine : OpInfo := { code := 0x0806, len := lenIs 32, modes := [.priming], priv := true, gated := true }

/-- SIEVE_DEFINE (R232, R246). -/
def execSieveDefine (c : Cmd) (s : State) : Host.Outcome State Fault Refusal :=
  done (runCommand infoSieveDefine
    (answer fun _ c s =>
      match sieveDefine c.payload s with
      | .error a => (s, a)
      | .ok t => (t, ok (sieveCapacity (readSieve c.payload)) 0)) c s)

/-- What the shared checks need to know of SIEVE_UPDATE, opcode 0x0807. -/
def infoSieveUpdate : OpInfo := { code := 0x0807, len := lenUpdate 48 1364, priv := true, gated := true }

/-- SIEVE_UPDATE (R236 to R238, R246). -/
def execSieveUpdate (c : Cmd) (s : State) : Host.Outcome State Fault Refusal :=
  done (runCommand infoSieveUpdate
    (answer fun _ c s =>
      let n := arg c 0 4
      let l := records 48 (arg c 4 4) (c.payload.drop 16)
      if !sieveDefined s n then (s, err stBadLength 0)
      else match l.findIdx? (sieveBad (sieveAt s n)) with
        | some i => (s, err stBadLength i)
        | none =>
          let (k, mv, f, s) := applySieve n 0 0 l s
          (s, { f.getD (ok 0 0) with r0 := k, r1 := mv })) c s)

/-- The search SIEVE_SEARCH and SIEVE_STEP make: the first matching row from row `lo` on, MULTI and RULE (R233, R246). -/
def sieveAnswer (n lo : Nat) (k : BitVec 160) (s : State) : State × Answer :=
  let t := sieveAt s n
  if sievePoisoned s t k then (poisonConsumed 3 s, err stInternal (poisonDetail 3))
  else match (sieveHits t k).filter fun r => decide (lo ≤ r.1) with
    | [] => (s, ok 0xFFFFFFFF 0)
    | r :: rest => (s, ok (r.1 + 2 ^ 32 * b2n (!rest.isEmpty)) r.2.rule)

/-- What the shared checks need to know of SIEVE_SEARCH, opcode 0x0808. -/
def infoSieveSearch : OpInfo := { code := 0x0808, len := lenIs 32 }

/-- SIEVE_SEARCH (R233, R246). -/
def execSieveSearch (c : Cmd) (s : State) : Host.Outcome State Fault Refusal :=
  done (runCommand infoSieveSearch
    (answer fun _ c s =>
      let n := arg c 0 8
      if !sieveDefined s n then (s, err stBadLength 0) else sieveAnswer n 0 (sieveKey (slice c.payload 8 20)) s) c s)

/-- What the shared checks need to know of SIEVE_STEP, opcode 0x0809. -/
def infoSieveStep : OpInfo := { code := 0x0809, len := lenIs 32 }

/-- SIEVE_STEP (R233, R246). -/
def execSieveStep (c : Cmd) (s : State) : Host.Outcome State Fault Refusal :=
  done (runCommand infoSieveStep
    (answer fun _ c s =>
      let n := arg c 0 4
      if !sieveDefined s n ∨ sieveCapacity (sieveAt s n) ≤ arg c 4 4 then (s, err stBadLength 0)
      else sieveAnswer n (arg c 4 4 + 1) (sieveKey (slice c.payload 8 20)) s) c s)

/-! ## The sweeper (R229, R230) -/

/-- SWEEPER_VISIT: one entry of an ageing table (R229): HIT clears, or IDLE rises, and at IDLE 2 the entry is removed and
reported. Entries that are STATIC or not VALID, and a table with AGE_MS 0, are passed over. -/
def execSweeperVisit (table index : Nat) (s : State) : Host.Outcome State Fault Refusal :=
  done (
    let t := emAt s table
    let e := Store.get {} index t.entries
    if !emDefined s table || t.ageMs == 0 then s
    else
      let s := updEm table (fun t => { t with sweep := (index + 1) % emCapacity t }) s
      if e.key.isEmpty || e.static || poisonedIn s 9 (emAddr table index) 128 then s
      else if e.hit then emWrite table index { e with hit := false, idle := 0 } s
      else if e.idle = 0 then emWrite table index { e with idle := 1 } s
      else
        let s := count (cEm table 2) (emWrite table index {} s)
        if 1024 ≤ s.tables.aged.length then count (cDev 28) s
        else
          let was := s.tables.aged.isEmpty
          let s := { s with tables := { s.tables with aged := s.tables.aged ++
            [{ table := table, learned := e.learned, rule := e.rule, user := e.user, time := nowNs s, key := e.key }] } }
          if was then raise 640 0 s else s)

end Sys2Proof.Machine
end

