-- ==== Sys2Proof/Machine/Commit.lean ====
section
/-! DEFINITION. References of the loaded tables (R7, R100, R480), group changes (R395, R399), and epochs: COMMIT, its switch, drain
and bank copy (R240 to R245), EPOCH_GET (R246). -/

namespace Sys2Proof.Machine

open Sys2Proof

/-! ## References (R7, R100, R480) -/

/-- The class records a bank holds, the unwritten one among them (R480). -/
def classRecs (b : Bank) : List ClassRec := b.classes.map (·.2) ++ (if b.classes.length < 4096 then [({} : ClassRec)] else [])

/-- The words of a class's list. -/
def classWords (b : Bank) (r : ClassRec) : List Nat :=
  (List.range r.len).map fun i => (Store.get (0#64) (r.alist + i) b.words).toNat

/-- The words of the store that are no template of a PUSH_TUNNEL word before them (R207): the store is read from index 0. -/
def storeWords : Nat → List (Nat × BitVec 64) → List Nat
  | _, [] => []
  | lo, (i, w) :: r =>
    if i < lo then storeWords lo r
    else w.toNat :: storeWords (if wordOp w.toNat = 1 then i + 1 + templateWords w.toNat else lo) r

/-- Every word that counts as a reference: those a class reaches, and those of the store. -/
def refWords (b : Bank) : List Nat :=
  ((classRecs b).map fun r => (listWords r.len 0 (classWords b r)).map (·.2)).flatten ++ storeWords 0 b.words

/-- CAP_UNITS bits of absent units that the tables and resources refer to (R7). Of the bindings and groups of lanes 8 to 15 those count that have
been written; what a record holds on leaving DRY, port 8 to 15 for groups 8 to 15, is no reference (DESIGN CHOICE, unsafe: log 34). -/
def absentRefs (b : Bank) (s : State) : List Nat :=
  (refWords b).filterMap (wordAbsent s) ++
  (if !hasCipher s && s.funcs.any (fun x => x.2.created && x.2.cipherCtx != 0) then [1] else []) ++
  (if hasLanesHi s then [] else
    (if !b.hiBinds.isEmpty || !b.hiGroups.isEmpty || (s.fh.flows.any fun x => decide (8 ≤ x.2.port)) then [4] else []))

/-- Section TYPEs that hold an undefined reference (R480). -/
def undefinedRefs (b : Bank) (s : State) : List Nat :=
  (if s.cis.quotas.any (fun x => decide (x.1 < 1026) || decide (1058 < x.1)) then [0x0002] else []) ++
  (if s.tables.treeNodes.any (fun x => (x.2.ty == 2 && !emDefined s x.2.width) || (x.2.ty == 3 && !sieveDefined s x.2.width)) then [0x0011] else []) ++
  (if (classRecs b).any (fun r => decide (65536 < r.alist + r.len) || endsInside r.len (classWords b r)) then [0x0012] else []) ++
  (if (refWords b).any (fun w => wordOp w == 0x0B && !emDefined s (bits w 48 6)) then [0x0013] else []) ++
  (if ((List.range 4096).any fun q => rootOfQueue b (netRec b q) == some 16) ||
      (b.hostQs.map (·.2) ++ (if b.hostQs.length < 16384 then [hostDfl 0] else [])).any (fun r =>
        match rootOfQueue b r with
        | some r => decide (r < 16)
        | none => false) then [0x0031] else [])

/-- Checks 0x0020 and 0x0021 over a bank (R100): the reason value, with the lowest qualifier. -/
def refReason (b : Bank) (s : State) : Option Nat :=
  match (absentRefs b s).min? with
  | some q => some (0x0020 + 65536 * q)
  | none => ((undefinedRefs b s).min?).map fun q => 0x0021 + 65536 * q

/-! ## Group commands (R395, R399) -/

/-- The group entry of a command. -/
def groupOpOf (s : State) (r : CmdRef) : Option GroupOp := s.aq.ops.find? fun g => decide (g.ref.chan = r.chan ∧ g.ref.seq = r.seq)

/-- Drop a group entry and the forwarding entries that serve it. -/
def dropGroup (g : GroupOp) (s : State) : State :=
  { s with aq := { s.aq with ops := s.aq.ops.filter fun x => x.num != g.num },
           fwd := s.fwd.filter fun x => !(decide (x.origin.chan = g.ref.chan ∧ x.origin.seq = g.ref.seq)) }

/-- A group command has every answer: its reply goes out. A gateway that resets the members resets itself after it (R400). -/
def groupDone (g : GroupOp) (s : State) : State :=
  let s := replyIfRunning g.ref (groupReply s g) (dropGroup g s)
  match g.resetSelf with
  | some st => { s with boot := { s.boot with resetDue := some st } }
  | none => s

/-- RESET_UNIT goes to the members one after another, each when the one before has replied (R400); a member that it cannot be carried to has
failed. `fuel` bounds the members. -/
def resetNext : Nat → GroupOp → State → State
  | 0, g, s => groupDone g s
  | fuel + 1, g, s =>
    match g.waiting with
    | [] => groupDone g s
    | m :: rest =>
      let c : Cmd := { chan := g.ref.chan, timeoutUs := BitVec.ofNat 32 (max 1 (remainingNs s g.ref / 1000)) }
      match carry { code := 0x0106 } c g.ref m [] s with
      | (s, none) => { s with aq := { s.aq with ops := mapWhere (fun x => x.num == g.num) (fun _ => g) s.aq.ops } }
      | (s, some a) => resetNext fuel { g with waiting := rest, failed := g.failed ++ [(m, a)] } s

/-- A member has answered a group command (R395): the reply goes out when it was the last. -/
def memberAnswer (g : GroupOp) (m : Nat) (a : Answer) (s : State) : State :=
  let g' := { g with waiting := g.waiting.filter (fun x => x != m), best := max g.best a.r1,
                     failed := if a.status = stOk then g.failed else g.failed ++ [(m, a)] }
  -- a member that has changed its mode, or is asked for it, reports it (R17)
  let s := if (g.ref.op = 0x0104 ∨ asksModes g.ref.op) ∧ a.status = stOk then
      { s with aq := { s.aq with members := Store.upd {} m (fun (x : Member) => { x with mode := a.r0 % 8, dormant := a.r0 % 8 == Mode.dormant.code }) s.aq.members } } else s
  if g'.waiting.isEmpty then groupDone g' s
  else if g.resetSelf.isSome then resetNext 1024 g' s
  else { s with aq := { s.aq with ops := mapWhere (fun x => x.num == g.num) (fun _ => g') s.aq.ops } }

/-- Answer a command that this device may be executing as one member of its group. -/
def replyGroup (r : CmdRef) (a : Answer) (s : State) : State :=
  match groupOpOf s r with
  | some g => memberAnswer g s.aq.index a s
  | none => replyIfRunning r a s

/-- The worst path latency of the aquifer at a level in ns (R396). -/
def worstPath (s : State) (l : Nat) : Nat :=
  (s.aq.members.filter fun (x : Nat × Member) => decide (x.1 / 64 ≤ l)).foldl (fun m x => max m x.2.latency) 0

/-- A group COMMIT to the epoch that this device already holds switches nothing here: its own part is done once no member is left to
confirm (R243, R399). -/
def ownNoop (s : State) : State :=
  match s.aq.change with
  | none => s
  | some x =>
    if x.isMode || !x.waiting.isEmpty || s.tables.commit.isSome || x.arg != s.tables.epoch then s
    else
      let s := { s with aq := { s.aq with change := none, armed := none } }
      match groupOpOf s x.ref with
      | some g => memberAnswer g s.aq.index { status := stOk, detail := 1, r0 := s.tables.epoch } s
      | none => s

/-- Start a timed group change at the gateway (R399): PREPARE goes to every other member, this device runs its own check `local`
and arms. A change already under way answers BUSY. -/
def groupChange (r : CmdRef) (c : Cmd) (l : Nat) (isMode : Bool) (what drainUs at0 r0 : Nat) (own : State → Except Answer State) (s : State) :
    State × Option Answer :=
  let w := worstPath s l
  let lead := nowNs s + 2 * w + 100000
  let atNs := if at0 = 0 then lead else at0
  if atNs < lead then (s, some (err stBadLength 0xB))
  else if s.aq.change.isSome then (s, some (err stBusy 0))
  else match own s with
    | .error a => (s, some { status := stAborted, detail := a.detail, r1 := 2 ^ ownBit s l })
    | .ok s =>
      let others := otherMembers s l
      let n := s.aq.nextNum
      let deadline := atNs - (2 * w + 50000)
      let g : GroupOp := { num := n, ref := r, waiting := others ++ [s.aq.index], r0 := r0, level := l, ownBit := ownBit s l }
      let ch : Change := { num := n, ref := r, isMode := isMode, arg := what, drainUs := drainUs, atNs := atNs, deadline := deadline, waiting := others }
      let a : ArmedChange := { num := n, isMode := isMode, arg := what, drainUs := drainUs, atNs := atNs }
      let s := { s with aq := { s.aq with nextNum := n + 1, ops := s.aq.ops ++ [g], change := some ch, armed := some a } }
      (others.foldl (fun t m =>
        match routeTo t m, freeFwd t with
        | some p, some e =>
          let seq := nextFwdSeq t p
          sendCtrl p 0x40 (toLe 4 n ++ toLe 8 atNs ++ toLe 8 deadline ++ crossing r.op c [] seq c.timeoutUs.toNat)
            (putFwd { num := e, origin := r, port := some p, outSeq := seq, member := m, since := t.time.t, remainUs := 0xFFFFFFFF } (bumpFwdSeq p t))
        | _, _ => t) s |> ownNoop, none)

/-! ## COMMIT (R242, R243) -/

/-- Packets that hold an epoch (R241). -/
def holdersOf (s : State) (epoch : Nat) : List Packet := (allPackets s).filter fun p => p.live && p.epoch == epoch

/-- Steps 1 and 2 of COMMIT: the banks are locked, checked, and the switch is armed for S (R242). -/
def armCommit (r : CmdRef) (new drainUs atNs : Nat) (group : Bool) (s : State) : Except Answer State :=
  if s.tables.commit.isSome || s.tables.loading then .error (err stBusy 0)
  else match refReason s.tables.inactive s with
    | some v => .error (err stState v)
    | none =>
      let x : CommitSt := { ref := r, newEpoch := new, drainUs := drainUs, switchAt := max atNs (nowNs s), group := group }
      .ok { s with tables := { s.tables with commit := some x } }

/-- What the shared checks need to know of COMMIT, opcode 0x0803. -/
def infoCommit : OpInfo := { code := 0x0803, len := lenIs 24, priv := true, gated := true }

/-- COMMIT (R242, R243, R245, R246): the no-op test first; an aquifer's COMMIT is a group change. -/
def execCommit (c : Cmd) (s : State) : Host.Outcome State Fault Refusal :=
  done (runCommand infoCommit
    (fun r t c s =>
      let new := arg c 0 2
      let drain := if arg c 4 4 = 0 then 10000 else arg c 4 4
      let atNs := arg c 8 8
      if t.isAquifer && atNs == 0 then (s, some (err stBadLength 8))
      else if t.isAquifer then
        if 1000000 < drain then (s, some (err stBadLength 0))
        else groupChange r c t.level false new drain atNs new
          (fun s => if new = s.tables.epoch then .ok s else armCommit r new drain atNs true s) s
      else if new = s.tables.epoch then (s, some { status := stOk, detail := 1, r0 := new })
      else if 1000000 < drain then (s, some (err stBadLength 0))
      else match armCommit r new drain atNs false s with
        | .error a => (s, some a)
        | .ok s => (s, none)) c s)

/-- Numbers under which two stores hold different records. -/
def changedKeys {α : Type} [DecidableEq α] (dfl : Nat → α) (a b : Store α) : List Nat :=
  ((a.map (·.1)) ++ (b.map (·.1))).filter fun k => decide (Store.get (dfl k) k a ≠ Store.get (dfl k) k b)

/-- A policer or node whose record changes restarts with its buckets full at the switch (R263, R268). -/
def restartBuckets (old new : Bank) (s : State) : State :=
  let pol := (changedKeys (fun _ => ({} : Policer)) old.policers new.policers).foldl (fun st k =>
    let r := Store.get ({} : Policer) k new.policers
    Store.set none k (some { tc := bitUnits r.cbs, tp := bitUnits r.pbs, last := nowNs s }) st) s.cis.pol
  let full (l : List Nat) (st : Store NodeState) : Store NodeState := l.foldl (fun st k => Store.upd {} k (fun n => { n with full := true, tc := 0, tp := 0, last := 0 }) st) st
  { s with cis := { s.cis with
    pol := pol
    groups := full (changedKeys groupDfl old.groups new.groups) s.cis.groups
    netQs := full (changedKeys netDfl old.netQs new.netQs) s.cis.netQs
    hostQs := full (changedKeys hostDfl old.hostQs new.hostQs) s.cis.hostQs } }

/-- The switch at S (R242 step 3): the banks change places, and new packets take NEW_EPOCH. -/
def switchEpoch (x : CommitSt) (s : State) : State :=
  let t := s.tables
  let s := restartBuckets t.active t.inactive (swapPoison s)
  markStage x.ref 2 { s with tables := { t with
    active := t.inactive, inactive := t.active, epoch := x.newEpoch,
    commit := some { x with switched := true, switchedAt := s.time.t, oldEpoch := t.epoch } } }

/-- S arrives (R242): the switch is made. A group change that it belongs to is over (R399). -/
def switchNow (x : CommitSt) (s : State) : State :=
  let s := switchEpoch x (advanceNs x.switchAt s)
  if x.group then { s with aq := { s.aq with armed := none, change := none } } else s

/-- COMMIT_SWITCH: the instant S arrives (R242). -/
def execCommitSwitch (s : State) : Host.Outcome State Fault Refusal :=
  done (match s.tables.commit with
    | none => s
    | some x => if x.switched then s else switchNow x s)

/-- A COMMIT whose S has come by device time has switched, before anything else that happens at S or later (R243). -/
def settleSwitch (s : State) : State :=
  match s.tables.commit with
  | some x => if !x.switched && decide (x.switchAt ≤ nowNs s) then switchNow x s else s
  | none => s

/-- Step 6 begins: the drain has ended (R242). -/
def startCopy (x : CommitSt) (s : State) : State := { s with tables := { s.tables with commit := some { x with copying := true } } }

/-- EPOCH_DRAIN_END: no packet holds the old epoch any more (R242 step 4). -/
def execEpochDrainEnd (s : State) : Host.Outcome State Fault Refusal :=
  done (match s.tables.commit with
    | none => s
    | some x => if x.switched && !x.copying && (holdersOf s x.oldEpoch).isEmpty then startCopy x s else s)

/-- Evict one packet (R242 step 5): EPOCH_EVICT counts it, and a host-sent one completes ABORTED. -/
def evictPkt (p : Packet) (s : State) : State := endPkt p qAborted 0 none (count (cDev 27) s)

/-- Evict every packet of an epoch: those an engine holds are freed when it returns them, and one on a wire gives up its claim. -/
def evictEpoch (epoch : Nat) (s : State) : Nat × State :=
  let mine (p : Packet) : Bool := p.live && p.epoch == epoch
  let held := s.cis.engine.filter mine
  let wires := s.ports.filterMap fun p => p.2.onWire.bind fun k => if mine k then some (p.1, k) else none
  let (gone, s) := purge (fun p => mine p && !(held.any fun h => h.num == p.num)) s
  let s := gone.foldl (fun t p => evictPkt p t) s
  let s := { s with cis := { s.cis with engine := mapWhere mine (fun p => { p with live := false }) s.cis.engine } }
  let s := held.foldl (fun t _ => count (cDev 27) t) s
  let s := wires.foldl (fun t x => evictPkt x.2 (updPort x.1 (fun p => { p with onWire := some { x.2 with live := false, buf := none } }) t)) s
  (gone.length + held.length + wires.length, wmCheck s)

/-- DRAIN_MAX_EXPIRY (R242 step 5, R243): not in SHUT-IN. -/
def execDrainMaxExpiry (s : State) : Host.Outcome State Fault Refusal :=
  done (match s.tables.commit with
    | none => s
    | some x =>
      if !x.switched || x.copying || (holdersOf s x.oldEpoch).isEmpty || s.mode == .shutIn then s
      else
        let (n, s) := evictEpoch x.oldEpoch (advanceTo (x.switchedAt + x.drainUs * 1000 * 65536) s)
        startCopy { x with evicted := x.evicted + n } s)

/-- COMMIT_DONE (R242 steps 6 and 7): every store marked written is copied, the marks clear, the event is raised and the reply written. -/
def execCommitDone (s : State) : Host.Outcome State Fault Refusal :=
  done (match s.tables.commit with
    | none => s
    | some x =>
      if !x.copying then s
      else
        let s := copyPoison s
        let s := { s with tables := { s.tables with inactive := s.tables.active, written := [], commit := none }, spdm := { s.spdm with imagesCommitted := s.spdm.images } }
        let s := raise 641 0 s
        if x.replied then s else replyGroup x.ref (ok s.tables.epoch x.evicted) s)

/-- What the shared checks need to know of EPOCH_GET, opcode 0x080A. -/
def infoEpochGet : OpInfo := { code := 0x080A, modes := modesRead }

/-- EPOCH_GET (R246). -/
def execEpochGet (c : Cmd) (s : State) : Host.Outcome State Fault Refusal :=
  done (runCommand infoEpochGet
    (readBody fun _ _ s =>
      let cur := s.tables.epoch
      let base (drain : Nat) (running copying : Bool) := cur + 2 ^ 16 * drain + 2 ^ 32 * b2n running + 2 ^ 33 * b2n copying +
        2 ^ 34 * b2n (!s.tables.written.isEmpty)
      match s.tables.commit with
      | some x =>
        if x.switched && !x.copying then ok (base x.oldEpoch true false) (holdersOf s x.oldEpoch).length
        else ok (base cur false x.copying) 0
      | none => ok (base cur false false) 0) c s)

/-- Disarm a COMMIT that has not switched (R243, R399). -/
def disarmCommit (s : State) : State :=
  let s := settleSwitch s
  match s.tables.commit with
  | some x => if x.switched then s else { s with tables := { s.tables with commit := none } }
  | none => s

/-- The reply of a COMMIT that SHUT-IN entry ends (R243): before S nothing switches, DETAIL 0; later the switch stands, DETAIL 2. -/
def abortCommit (s : State) : State :=
  let s := settleSwitch s
  match s.tables.commit with
  | none => s
  | some x =>
    if x.switched then
      replyGroup x.ref (err stAborted 2) { s with tables := { s.tables with commit := some { x with replied := true } } }
    else replyGroup x.ref (err stAborted 0) { s with tables := { s.tables with commit := none } }

end Sys2Proof.Machine
end

