-- ==== Sys2Proof/Machine/Classify.lean ====
section
/-! DEFINITION. Classification (R189 to R204, R210, R211): the parse walk, keys, tree walks to a rule, the exception
bucket, and spreading. -/

namespace Sys2Proof.Machine

open Sys2Proof

/-! ## Fields of a packet (R192, R195) -/

/-- The field of `w` bits at bit position `p`, in network order; bits past the end are 0. -/
def netField (d : Bytes) (p w : Nat) : Nat :=
  let n := (p % 8 + w + 7) / 8
  be ((slice d (p / 8) n ++ zeros n).take n) / 2 ^ (8 * n - p % 8 - w) % 2 ^ w

/-- A header slot of a packet, when recorded: start, advance, node (R194). -/
def slotOf (p : Packet) (k : Nat) : Option (Nat × Nat × Nat) := (p.slots.find? fun x => x.1 == k).map (·.2)

/-- Record a header slot: a later record replaces an earlier one (R194). -/
def putSlot (k : Nat) (v : Nat × Nat × Nat) (l : Store (Nat × Nat × Nat)) : Store (Nat × Nat × Nat) :=
  l.filter (fun x => decide (x.1 < k)) ++ [(k, v)] ++ l.filter (fun x => decide (k < x.1))

/-! ## The parse walk (R191 to R194) -/

/-- How a parse walk ends (R194, R197); `poisoned` when it reads a poisoned node (R430). -/
inductive ParseEnd where
  | parsed | depth | conflict | dropped | poisoned
  deriving DecidableEq, Repr

/-- The `need` test of R194 for a frame of `n` bytes. -/
def need (n e : Nat) : Except ParseEnd Unit :=
  if n * 8 < e then .error .conflict else if 4096 < e then .error .depth else .ok ()

/-- The first transition that matches a selector, else DEFAULT_NEXT (R193). -/
def nextNode (n : ParseNode) (sel : Nat) : Nat :=
  match n.trans.find? fun t => t.valid && Nat.land sel n.selMask == Nat.land t.value n.selMask with
  | some t => t.next
  | none => n.defaultNext

/-- One visit of a parse node at `cursor` under the innermost claim `encl`: its advance, the new innermost claim and
the next-node code, or the walk's end (R194). -/
def visitNode (d : Bytes) (n : ParseNode) (cursor encl : Nat) : Except ParseEnd (Nat × Nat × Nat) := do
  let fe := d.length
  let c8 := cursor * 8
  if n.lenWidth > 0 then need fe (c8 + n.lenOff + n.lenWidth)
  let adv := n.advConst + (if n.lenWidth > 0 then netField d (c8 + n.lenOff) n.lenWidth * n.lenScale else 0)
  need fe ((cursor + adv) * 8)
  if n.chkWidth > 0 then need fe (c8 + n.chkOff + n.chkWidth)
  let base := if n.chkScope then cursor + adv else cursor
  let claim := base + netField d (c8 + n.chkOff) n.chkWidth * n.chkScale + n.chkBias
  if n.chkWidth > 0 ∧ (encl < claim ∨ claim < cursor + adv) then .error .conflict
  let encl := if n.chkWidth > 0 then claim else encl
  if n.selWidth = 0 then .ok (adv, encl, n.defaultNext)
  else
    if n.selEnd ∧ (cursor + adv) * 8 < n.selOff then .error .conflict
    let p := if n.selEnd then (cursor + adv) * 8 - n.selOff else c8 + n.selOff
    need fe (p + n.selWidth)
    .ok (adv, encl, nextNode n (netField d p n.selWidth))

/-- The parse walk from a node on (R194): how it ends and the slots recorded. `fuel` is the visits left of 24. A node
whose visit stops leaves its slot as it was (DEDUCED, unsafe: log 23). -/
def parseWalk (node : Nat → ParseNode) (bad : Nat → Bool) (d : Bytes) :
    Nat → Nat → Nat → Nat → Store (Nat × Nat × Nat) → ParseEnd × Store (Nat × Nat × Nat)
  | 0, _, _, _, sl => (.depth, sl)
  | fuel + 1, i, cursor, encl, sl =>
    if bad i then (.poisoned, sl)
    else match visitNode d (node i) cursor encl with
      | .error e => (e, sl)
      | .ok (adv, encl, nxt) =>
        let sl := if (node i).slot = 0xFF then sl else putSlot (node i).slot (cursor, adv, i) sl
        if nxt = 0x8000 then (.parsed, sl)
        else if nxt = 0x8001 then (.dropped, sl)
        else parseWalk node bad d fuel nxt (cursor + adv) encl sl

/-! ## Keys (R199, R200) -/

/-- The value of one key field of a packet. -/
def keyValue (p : Packet) (f : KeyField) : Nat :=
  if f.src = 0x10 then p.port.getD 16 % 2 ^ f.width
  else if f.src = 0x11 then p.fn.getD 0x7FF % 2 ^ f.width
  else if f.src = 0x12 then p.pflags % 2 ^ f.width
  else if f.src = 0x13 then p.macErr % 2 ^ f.width
  else match slotOf p f.src with
    | some (start, _, _) => netField p.bytes (start * 8 + f.bitOff) f.width
    | none => 0

/-- A key field reaches past the frame's end (R195). -/
def keyShort (p : Packet) (f : KeyField) : Bool :=
  match slotOf p f.src with
  | some (start, _, _) => decide (p.bytes.length * 8 < start * 8 + f.bitOff + f.width)
  | none => false

/-- Fields one after another, each with its most significant bit first: the number they spell and its width. -/
def packFields (l : List (Nat × Nat)) : Nat × Nat := l.foldl (fun a x => (a.1 * 2 ^ x.2 + x.1, a.2 + x.2)) (0, 0)

/-- The values and widths of a tree set's key fields. -/
def keyFields (p : Packet) (t : TreeSet) : List (Nat × Nat) := t.fields.map fun f => (keyValue p f, f.width)

/-- The 320-bit key, key bit 0 the most significant: fields, zeros up to bit 303, the slot-present mask (R200). -/
def buildKey (p : Packet) (t : TreeSet) : Nat :=
  let (v, w) := packFields (keyFields p t)
  v * 2 ^ (304 - w) * 65536 + ((List.range 16).map fun k => if (slotOf p k).isSome then 2 ^ (15 - k) else 0).sum

/-- The fields a KEYSEL mask picks, padded with zero bits or cut to `n` bytes (R201). -/
def selectKey (l : List (Nat × Nat)) (keysel n : Nat) : Bytes :=
  let (v, w) := packFields (((List.range l.length).filter fun i => bit keysel i).map fun i => l.getD i (0, 0))
  toBe n (if w ≤ 8 * n then v * 2 ^ (8 * n - w) else v / 2 ^ (w - 8 * n))

/-! ## Tree walks (R201, R202) -/

/-- What a tree walk comes to: a rule, the end of its 24 visits, or the memory ID of a poisoned word it read. -/
inductive TreeEnd where
  | rule (r : Nat) | deep | poisoned (mem : Nat)
  deriving DecidableEq, Repr

/-- The lookup of an EXACT node: a hit sets HIT (R224). -/
def exactLookup (t : Nat) (k : Bytes) (s : State) : Option TreeEnd × State :=
  let k := emKey (emAt s t) k
  if !emDefined s t then (none, s)
  else if emPoisoned s t k then (some (.poisoned 9), s)
  else match emFind (emAt s t) k with
    | some i =>
      let e := Store.get {} i (emAt s t).entries
      (some (.rule e.rule), updEm t (fun x => { x with entries := Store.set {} i { e with hit := true } x.entries }) s)
    | none => (none, s)

/-- The lookup of a SIEVE node: the lowest matching row's rule (R233). -/
def sieveLookup (t : Nat) (k : Bytes) (s : State) : Option TreeEnd :=
  let tab := sieveAt s t
  if !sieveDefined s t then none
  else if sievePoisoned s tab (sieveKey k) then some (.poisoned 3)
  else (sieveHits tab (sieveKey k)).head?.map fun r => .rule r.2.rule

/-- The tree walk from a node on: `fuel` is the visits left of 24. -/
def treeWalk (fields : List (Nat × Nat)) (key : Nat) : Nat → Nat → State → TreeEnd × State
  | 0, _, s => (.deep, s)
  | fuel + 1, i, s =>
    let n := Store.get ({} : TreeNode) i s.tables.treeNodes
    if tablePoisoned s 0x0011 1 i false then (.poisoned 2, s)
    else if n.ty = 1 then (.rule n.left, s)
    else if n.ty = 0 then
      let v := key / 2 ^ (320 - n.keyBit - n.width) % 2 ^ n.width
      treeWalk fields key fuel (if v ≤ n.thresh then n.left else n.right) s
    else if n.ty = 2 then
      match exactLookup n.width (selectKey fields n.thresh (emAt s n.width).keyLen) s with
      | (some r, s) => (r, s)
      | (none, s) => treeWalk fields key fuel n.left s
    else
      match sieveLookup n.width (selectKey fields n.thresh 20) s with
      | some r => (r, s)
      | none => treeWalk fields key fuel n.left s

/-! ## Classification (R190, R196 to R198) -/

/-- The bank a packet reads is the inactive one. -/
def readsInactive (s : State) (p : Packet) : Bool := p.epoch != s.tables.epoch

/-- A packet lookup met a poisoned table word: the packet is freed (R430). -/
def tablePoison (mem : Nat) (p : Packet) (s : State) : State := dropPkt p (poisonConsumed mem (count (cDev 38) s))

/-- Count a parse outcome on the ingress port, or on the transmitting function (R197, R445). -/
def countParse (p : Packet) (portIdx fnIdx : Nat) (s : State) : State :=
  match p.port with
  | some q => count (cPort q portIdx) s
  | none => match p.fn with
    | some f => count (cFn f fnIdx) s
    | none => s

/-- An exception bucket of 64 packets filled at `rate` per second up to device time `t`: whole tokens and the part of
the next (R197). -/
def excFill (t rate tokens frac last : Nat) : Nat × Nat :=
  let unit := 1000000000 * 65536
  let v := min (64 * unit) (tokens * unit + frac + (t - last) * rate)
  (v / unit, v % unit)

/-- Take a token of a packet's exception bucket: false when there is none (R197). -/
def excToken (p : Packet) (g : GraphRec) (s : State) : Bool × State :=
  let rate := if g.excRate = 0 then 10000 else g.excRate
  match p.port with
  | some q =>
    let r := portAt s q
    let (n, f) := excFill s.time.t rate r.excTokens r.excFrac r.excLast
    (n != 0, updPort q (fun r => { r with excTokens := n - 1, excFrac := f, excLast := s.time.t }) s)
  | none =>
    let fn := p.fn.getD 0
    let r := funcOf s fn
    let (n, f) := excFill s.time.t rate r.excTokens r.excFrac r.excLast
    (n != 0, updFunc fn (fun r => { r with excTokens := n - 1, excFrac := f, excLast := s.time.t }) s)

/-- The graph and tree set bound to a packet's source (R190). -/
def bindOf (b : Bank) (p : Packet) : Binding :=
  match p.port with
  | some q => Store.get {} q b.binds
  | none => { graph := (Store.get ({} : Binding) 16 b.binds).graph
              treeSet := (Store.get ({} : Binding) (32 + p.fn.getD 0) b.binds).treeSet }

/-- Walk the trees of a parsed packet to its rule (R199 to R203): the packet with class, colour and queue, or none when
a poisoned table word freed it. -/
def classifyTrees (set : Nat) (p : Packet) (s : State) : Option Packet × State :=
  let t := Store.get ({} : TreeSet) set (bankFor s p.epoch).treeSets
  -- the parse flags a key field reads are those of the walk; KEY_SHORT is set by the key itself (R195)
  let fields := keyFields p t
  let key := buildKey p t
  let p := if t.fields.any (keyShort p) then { p with pflags := Nat.lor p.pflags 4 } else p
  let (e, s) := treeWalk fields key 24 t.root s
  let take (i : Nat) (s : State) : Option Packet × State :=
    let k := 65536 * set + i
    if tablePoisoned s 0x0011 2 k false then (none, tablePoison 2 p s)
    else
      let r := Store.get ({} : Rule) k s.tables.rules
      (some { p with cls := r.cls, colour := r.colour, queue := r.queue }, s)
  match e with
  | .poisoned m => (none, tablePoison m p s)
  | .rule i => take i s
  | .deep => take t.defaultRule (count (cDev 16) s)

/-- Parse and classify a packet at its first parse (R190 to R204, R241): it takes the current epoch and mode. None when
it was freed. -/
def classify (p : Packet) (s : State) : Option Packet × State :=
  let p := { p with epoch := s.tables.epoch, serviceMode := s.mode == .flowing, live := true, next := 0 }
  let b := s.tables.active
  let bi := bindOf b p
  let g := Store.get ({} : GraphRec) bi.graph b.graphs
  let (e, sl) := parseWalk (fun i => Store.get {} (256 * bi.graph + i) b.nodes)
    (fun i => tablePoisoned s 0x0010 0 (256 * bi.graph + i) false) p.bytes 24 g.root 0 p.bytes.length []
  let p := { p with slots := sl }
  let hard (flag policy : Nat) (s : State) : Option Packet × State :=
    let p := { p with pflags := flag }
    if policy = 0 then classifyTrees bi.treeSet p s
    else if policy = 1 then
      let (got, s) := excToken p g s
      if got then (some { p with cls := g.excClass, colour := 0, queue := g.excQueue }, s)
      else (none, dropPkt p (countParse p 16 16 s))
    else (none, dropPkt p s)
  match e with
  | .poisoned => (none, tablePoison 2 p s)
  | .dropped => (none, dropPkt p (countParse p 17 20 s))
  | .parsed => classifyTrees bi.treeSet { p with pflags := 0 } s
  | .depth => hard 1 g.depthPolicy (countParse p 14 14 s)
  | .conflict => hard 2 g.conflictPolicy (countParse p 15 15 s)

/-! ## Spreading (R210, R211) -/

/-- Bytes `off` to `off + n - 1` of the header in a slot, missing bytes 0, and whether they pass the frame's end. -/
def hdrBytes (p : Packet) (k off n : Nat) : Option (Bytes × Bool) :=
  (slotOf p k).map fun x => ((slice p.bytes (x.1 + off) n ++ zeros n).take n, decide (p.bytes.length < x.1 + off + n))

/-- One hash input field by its FIELDS bit (R211): none when its slot is not recorded or it does not apply. -/
def spreadField (p : Packet) (r : SpreadRec) (i : Nat) : Option (Bytes × Bool) :=
  let ver := (hdrBytes p r.slotL3 0 1).map fun x => fldBe x.1 0 1 / 16
  let l3 (o4 n4 o6 n6 : Nat) : Option (Bytes × Bool) :=
    if ver = some 4 then hdrBytes p r.slotL3 o4 n4 else if ver = some 6 then hdrBytes p r.slotL3 o6 n6 else none
  match i with
  | 0 => l3 12 4 8 16
  | 1 => l3 16 4 24 16
  | 2 => hdrBytes p r.slotL4 0 2
  | 3 => hdrBytes p r.slotL4 2 2
  | 4 => l3 9 1 6 1
  | 5 => hdrBytes p r.slotTun 4 4
  | 6 => hdrBytes p r.slotTun 4 3
  | 7 => hdrBytes p r.slotTun 4 2
  | 8 => if ver = some 6 then (hdrBytes p r.slotL3 1 3).map fun x => (toBe 3 (fldBe x.1 0 3 % 2 ^ 20), x.2) else none
  | _ => none

/-- The Toeplitz hash of an input under a 40-byte key, most significant bit first. -/
def toeplitz (key d : Bytes) : Nat :=
  let k := (key ++ zeros 40).take 40
  (List.range (8 * d.length)).foldl (fun a i => if netField d i 1 = 1 then Nat.xor a (netField k i 32) else a) 0

/-- A packet's spreading hash under a function's record (R211); the packet takes KEY_SHORT when a field is cut (R195).
A Toeplitz input of more than 36 bytes runs past the key and the spec gives no value: a free one (DESIGN CHOICE, safe: log 10). -/
def spreadHash (f : Nat) (p : Packet) (s : State) : Nat × Packet × State :=
  let r := spreadOf (bankFor s p.epoch) f
  let l := ((List.range 9).filter fun i => r.fields.getLsbD i).filterMap (spreadField p r)
  let p := if l.any (·.2) then { p with pflags := Nat.lor p.pflags 4 } else p
  let d := (l.map (·.1)).flatten
  if r.alg = 1 then (crc32c d, p, s)
  else if 36 < d.length then let (v, s) := drawFree s; (v % 2 ^ 32, p, s)
  else (toeplitz r.key d, p, s)

/-- The function of a packet's queue (R152, R204): the one it is spread within, or the one whose device queue pair it names. -/
def queueOwner (s : State) (q : Nat) : Option Nat :=
  match q / 16384 % 4 with
  | 0 => (s.funcs.find? fun x => decide (x.2.qpBase ≤ q) && decide (q < x.2.qpBase + x.2.qpCount)).map (·.1)
  | 2 => some (q % 2048)
  | _ => none

/-- The hash a packet has under its queue's function, 0 when it has none (R207, R212). -/
def queueHash (p : Packet) (s : State) : Nat × Packet × State :=
  match queueOwner s p.queue with
  | some f => spreadHash f p s
  | none => (0, p, s)

/-- Spread a packet within a function: its device queue pair, or none when the entry lies beyond QP_COUNT (R211). -/
def spreadQueue (f : Nat) (p : Packet) (s : State) : Option Nat × Packet × State :=
  let (h, p, s) := spreadHash f p s
  let p := { p with hash := h }
  let q := Store.get 0 (4096 * f + h % indirSize f) (bankFor s p.epoch).indir
  if (funcOf s f).qpCount ≤ q then (none, p, s) else (some ((funcOf s f).qpBase + q), p, s)

end Sys2Proof.Machine
end

