-- ==== Sys2Proof/Machine/Jobs.lean ====
section
/-! DEFINITION. Energy jobs and unit wakes that other units ask for: costs and admission (R415, R416), the limits on
bulk work (R421, R423), and the start of a wake (R408, R409). -/

namespace Sys2Proof.Machine

open Sys2Proof

/-! ## Points (R410, R411) -/

/-- Current point of a domain. -/
def pointOf (s : State) (d : Nat) : Nat := Store.get 15 d s.power.points

/-- Frequency of a domain's point in kHz (R410). -/
def freqKhz (d p : Nat) : Nat := (if d = 0 then 93750 else if d = 13 then 78125 else 125000) * (p + 1)

/-- Voltage of a domain's point in mV (R410): 650 to 850, not lower than that of any point below. -/
def pointMv (d p : Nat) : Nat := (List.range (p + 1)).foldl (fun a i => max a (650 + Config.pointFuse d i % 201)) 650

/-- The CLAMP point, 8 to 14 (R410). -/
def clampPoint : Nat := 8 + Config.clampFuse % 7

/-- `n` cycles of a domain at its current point, in 2^-16 ns (R411). -/
def cycleTime (s : State) (d n : Nat) : Nat := n * 65536000000 / freqKhz d (pointOf s d)

/-- Voltage the core rail needs: the highest of any domain's current point, or of the point a change leads to (R410, R411). -/
def neededMv (s : State) : Nat :=
  (List.range 14).foldl (fun a d =>
    let aim := Store.get 0 d s.power.pointTo
    max a (max (pointMv d (pointOf s d)) (if aim = 0 then 0 else pointMv d (aim - 1)))) 0

/-- Ask the regulator for a voltage when it is not the one asked for last. -/
def askMv (mv : Nat) (s : State) : State :=
  if mv = s.power.coreMv then s else emit (.regulator mv) { s with power := { s.power with coreMv := mv } }

/-- Start a change of point: the voltage rises before the frequency does (R411). -/
def setPoint (d k : Nat) (s : State) : State :=
  if pointOf s d = k then { s with power := { s.power with pointTo := Store.set 0 d 0 s.power.pointTo } }
  else
    let s := { s with power := { s.power with pointTo := Store.set 0 d (k + 1) s.power.pointTo } }
    askMv (max s.power.coreMv (neededMv s)) s

/-! ## Admission -/

/-- BUDGET_MW as applied: a budget above CAP_MW is held at it (R423). -/
def budgetMw (s : State) : Nat := min s.power.policy.budgetMw s.power.policy.capMw

/-- The interval budget B in fJ (R415): BUDGET_MW x 0.5 uJ. -/
def budgetFj (s : State) : Nat := budgetMw s * 500000000

/-- Domains 0 to 12 stand at point 0. -/
def atPointZero (s : State) : Bool := (List.range 13).all fun d => Store.get 15 d s.power.points == 0

/-- A limit sets the bulk admission limit to 0: the shed, or the cap once no point is left to give (R421). -/
def bulkOff (s : State) : Bool := s.power.shed || (s.power.cap && atPointZero s)

/-- The bulk admission limit of the interval, in fJ (R416, R421). -/
def bulkLimit (s : State) : Nat :=
  if bulkOff s then 0 else min (budgetFj s * (100 - s.power.policy.reservePct) / 100) (budgetFj s - s.power.r)

/-- A cost times CAL / 100 (R415). -/
def calCost (s : State) (fj : Nat) : Nat := fj * s.power.cost.cal / 100

/-- POWER_OVERRUN, once per interval, when r + n has passed B (R416). -/
def overrunCheck (s : State) : State :=
  if budgetFj s < s.power.r + s.power.n ∧ !s.power.overrun then
    raise 1156 0 { s with power := { s.power with overrun := true } }
  else s

/-- Admit a job of a cost and class, or hold it (R416): false when it is held. `planned` says that the job is a planned
symbol, booked already. -/
def admitJob (cls fj : Nat) (planned : Bool) (s : State) : Bool × State :=
  let c := calCost s fj
  if cls ≤ 2 then
    (true, overrunCheck (wmCheck (if planned then s else { s with power := { s.power with r := s.power.r + c } })))
  else if s.power.n + c ≤ bulkLimit s then (true, wmCheck { s with power := { s.power with n := s.power.n + c } })
  else (false, s)

/-- A packet whose job is held waits for the next interval (R416, R417). -/
def holdJob (p : Packet) (s : State) : State := { s with cis := { s.cis with heldJobs := s.cis.heldJobs ++ [p] } }

/-! ## Wakes -/

/-- Kinds of unit that wake: the index of UNIT_WAKE_COMPLETE's KIND. -/
def wkEngine : Nat := 0
def wkWell : Nat := 1
def wkComb : Nat := 2
def wkAes : Nat := 3
def wkStream : Nat := 4
def wkMgmt : Nat := 5
def wkClay : Nat := 6
def wkTime : Nat := 7

/-- An unplanned wake of a kind is refused (R421): of wells and cipher units during a shed, of every unit during a power cap. -/
def wakeRefused (s : State) (kind : Nat) : Bool := s.power.cap || (s.power.shed && (kind == wkWell || kind == wkAes || kind == wkStream))

/-- Start the wake of a unit that work has been presented to (R409); nothing when it is on its way, or refused. -/
def startWake (kind idx : Nat) (planned : Bool) (s : State) : State :=
  if s.power.waking.any fun (x : Nat × Nat × Nat) => x.1 == kind && x.2.1 == idx then s
  else if !planned && wakeRefused s kind then s
  else { s with power := { s.power with waking := s.power.waking ++ [(kind, idx, s.time.t)] } }

/-- A well is awake: neither clock-gated nor power-gated. -/
def wellAwake (s : State) (w : Nat) : Bool := !s.power.wellCg.getLsbD w && !s.power.wellPg.getLsbD w

/-- A cipher unit is awake. -/
def cipherAwake (s : State) (stream : Bool) (u : Nat) : Bool := if stream then s.cipher.strAwake.getLsbD u else s.cipher.aesAwake.getLsbD u

/-- Packets handed to engines of a well (R212). -/
def packetsAt (s : State) (w : Nat) : Nat := (s.cis.engine.filter fun p => (Store.get (0, 0, 0) p.num s.cis.progs).2.1 == w).length

/-- Engines of a well that are not clock-gated. -/
def enginesAwake (s : State) (w : Nat) : List Nat := ((List.range 8).map (8 * w + ·)).filter fun e => !s.power.engGated.getLsbD e

/-- Wake as many engines of an awake well as its packets ask for, the lowest-numbered first (R408, R409). -/
def wakeEngines (w : Nat) (s : State) : State :=
  if !wellAwake s w then s
  else
    let gated := ((List.range 8).map (8 * w + ·)).filter fun e => s.power.engGated.getLsbD e
    (gated.take (packetsAt s w - (enginesAwake s w).length)).foldl (fun t e => startWake wkEngine e false t) s

end Sys2Proof.Machine
end

