-- ==== Sys2Proof/Machine/Headers.lean ====
section
/-! DEFINITION. Changes to a packet's bytes and slots that actions and the cipher share: insertion and removal (R208), checksums
(R207, R208), the fix-ups of PUSH_TUNNEL (R207), and the move to a buffer of its own (R208, R255). -/

namespace Sys2Proof.Machine

open Sys2Proof

/-- Write `n` bytes of a number in network order at an offset; nothing when they do not fit. -/
def setBe (off n v : Nat) (d : Bytes) : Bytes := if off + n ≤ d.length then patch d off (toBe n (v % 2 ^ (8 * n))) else d

/-- A one's complement sum folded to 16 bits. -/
def fold16 (n : Nat) : Nat :=
  let a := n % 65536 + n / 65536
  a % 65536 + a / 65536

/-- The update of RFC 1624: HC' = ~(~HC + ~m + m'), for the old and new 16-bit words of the changed bytes. -/
def csumUpdate (hc : Nat) (old new : Bytes) : Nat := 65535 - fold16 (65535 - hc + (65535 - onesSum old) + onesSum new)

/-- Bytes inserted at `pos`: every recorded slot at or after it starts later by `n` (R208). -/
def slotsIn (pos n : Nat) (l : Store (Nat × Nat × Nat)) : Store (Nat × Nat × Nat) :=
  l.map fun x => if pos ≤ x.2.1 then (x.1, x.2.1 + n, x.2.2) else x

/-- Bytes `a` to `b - 1` removed: slots inside become unrecorded, later ones start earlier (R208). -/
def slotsOut (a b : Nat) (l : Store (Nat × Nat × Nat)) : Store (Nat × Nat × Nat) :=
  (l.filter fun x => !(decide (a ≤ x.2.1) && decide (x.2.1 < b))).map fun x => if b ≤ x.2.1 then (x.1, x.2.1 - (b - a), x.2.2) else x

/-- Insert bytes into a packet. -/
def insertBytes (pos : Nat) (b d : Bytes) : Bytes := d.take pos ++ b ++ d.drop pos

/-- Remove bytes `a` to `b - 1`. -/
def removeBytes (a b : Nat) (d : Bytes) : Bytes := d.take a ++ d.drop b

/-- The version nibble of a header, 0 beyond the packet. -/
def versionAt (off : Nat) (d : Bytes) : Nat := fldBe d off 1 / 16

/-- Set the total length and header checksum of an IPv4 header, or the payload length of an IPv6 header, to the packet's end
(R207). -/
def fixIp (off : Nat) (d : Bytes) : Bytes :=
  let n := d.length - off
  if versionAt off d = 4 then
    let d := setBe (off + 10) 2 0 (setBe (off + 2) 2 n d)
    setBe (off + 10) 2 (inetChecksum (slice d off (4 * (fldBe d off 1 % 16)))) d
  else if versionAt off d = 6 then setBe (off + 4) 2 (n - 40) d
  else d

/-- Set the UDP length at `l4` and its checksum: 0 under IPv4 or with no IP header named, over the pseudo-header under IPv6
(R207). -/
def fixUdp (l3 : Option Nat) (l4 : Nat) (d : Bytes) : Bytes :=
  let n := d.length - l4
  let d := setBe (l4 + 6) 2 0 (setBe (l4 + 4) 2 n d)
  match l3 with
  | some o =>
    if versionAt o d = 6 then
      let c := inetChecksum (slice d (o + 8) 32 ++ toBe 4 n ++ [0, 0, 0, 17] ++ d.drop l4)
      setBe (l4 + 6) 2 (if c = 0 then 65535 else c) d
    else d
  | none => d

/-- The fix-ups of a PUSH_TUNNEL whose template starts at `f.pos` (R207): `mask` selects which of its FIX bits are made. -/
def fixUps (f : PushFix) (mask hash : Nat) (d : Bytes) : Bytes :=
  let on (i : Nat) : Bool := bit f.fix i && bit mask i
  let l3 := if f.l3 = 0xFF then none else some (f.pos + f.l3)
  let l4 := if f.l4 = 0xFF then none else some (f.pos + f.l4)
  let d := match l4 with
    | some o =>
      let d := if on 3 then setBe (o + 10) 2 (d.length - (o + 16)) d else d
      if on 2 then setBe o 2 (Nat.lor 0xC000 (hash % 0x4000)) d else d
    | none => d
  let d := match l3 with
    | some o => if on 0 then fixIp o d else d
    | none => d
  match l4 with
  | some o => if on 1 then fixUdp l3 o d else d
  | none => d

/-- A packet that is to change, or to grow to `size` bytes, has a buffer of its own that fits (R208, R255): the packet moves
when it shares its buffer or outgrows it. The failure is the allocation's. -/
def ensureBuffer (p : Packet) (size : Nat) (s : State) : Except Nat (Packet × State) :=
  match p.buf.bind (bufAt s) with
  | none => .ok (p, s)
  | some b => if holderCount b ≤ 1 ∧ size ≤ poolSize b.pool then .ok (p, s) else ownBuffer p size b.owner s

end Sys2Proof.Machine
end

