-- ==== Sys2Proof/Machine/Cipher.lean ====
section
/-! DEFINITION. The inline cipher engine (R277 to R294): contexts, the dispatcher, the transforms, sequence numbers and
replay, and the opcodes of class 0x0B (R296). -/

namespace Sys2Proof.Machine

open Sys2Proof

/-! ## Contexts (R284) -/

/-- A security context. -/
def ctxAt (s : State) (n : Nat) : CtxRec := Store.get {} n s.cipher.ctxs

/-- Change a security context. -/
def updCtx (n : Nat) (g : CtxRec → CtxRec) (s : State) : State :=
  { s with cipher := { s.cipher with ctxs := Store.upd {} n g s.cipher.ctxs } }

/-- EXT_SEQ. -/
def CtxRec.extSeq (k : CtxRec) : Bool := bit k.flags 0
/-- TUNNEL. -/
def CtxRec.tunnel (k : CtxRec) : Bool := bit k.flags 1
/-- INT_ONLY. -/
def CtxRec.intOnly (k : CtxRec) : Bool := bit k.flags 3
/-- SCI_TX. -/
def CtxRec.sciTx (k : CtxRec) : Bool := bit k.flags 4
/-- REPLAY. -/
def CtxRec.replayOn (k : CtxRec) : Bool := bit k.flags 5
/-- CHECK. -/
def CtxRec.checkOnly (k : CtxRec) : Bool := bit k.flags 6
/-- CIPH_ALG of a bearer. -/
def CtxRec.ciphAlg (k : CtxRec) : Nat := bits k.spi 8 2
/-- INT_ALG of a bearer. -/
def CtxRec.intAlg (k : CtxRec) : Nat := bits k.spi 12 2
/-- BEARER. -/
def CtxRec.bearer (k : CtxRec) : Nat := bits k.spi 0 5
/-- DIRECTION. -/
def CtxRec.direction (k : CtxRec) : Nat := bits k.spi 5 1
/-- Bytes of the PDCP header, by SN_LEN. -/
def CtxRec.pdcpHdr (k : CtxRec) : Nat := if bit k.spi 6 then 3 else 2
/-- Bits of the PDCP sequence number. -/
def CtxRec.snBits (k : CtxRec) : Nat := if bit k.spi 6 then 18 else 12
/-- The AES key. -/
def CtxRec.aesKey (k : CtxRec) : Bytes := if bit k.flags 2 then k.key else k.key.take 16

/-- The SALT a supplied record holds (R284): 4 bytes for ESP, 12 for MACsec under XPN, otherwise 0. -/
def saltOf (b : Bytes) : Bytes :=
  let n := if fld b 0 1 = 1 then 4 else if fld b 0 1 = 2 ∧ bit (fld b 1 1) 0 then 12 else 0
  slice b 8 n ++ zeros (12 - n)

/-- SPI_SSCI of a supplied record (R284): a bearer's reserved bits 7, 11:10 and 31:14 read 0 (R13). -/
def spiOf (b : Bytes) : Nat := if fld b 0 1 = 3 then fld b 4 4 &&& 0x337F else fld b 4 4

/-- Record bytes 0 to 95 as a record (R284); what the device writes is not taken from them. -/
def readCtx (b : Bytes) : CtxRec :=
  { ty := fld b 0 1, flags := fld b 1 1 % 128, fn := fld b 2 2, spi := spiOf b, salt := saltOf b, sci := fld b 20 8,
    window := fld b 28 4, txSeq := fld b 32 8, rxTop := fld b 40 8, soft := fld b 48 8, hard := fld b 56 8,
    l3Slot := fld b 72 1, espSlot := fld b 73 1 }

/-- The fields of a supplied record are valid (R284, R287). -/
def ctxValid (k : CtxRec) : Bool :=
  decide (1 ≤ k.ty) && decide (k.ty ≤ 3) && decide (k.fn ≤ 1025) && !(k.ty == 3 && bit k.flags 2) &&
  (k.ty != 1 || (decide (32 ≤ k.window) && decide (k.window ≤ 512)))

/-- The 256-byte record as it is read out: KEY, KEY2 and derived state read 0 (R284, R296). -/
def ctxBytes (k : CtxRec) : Bytes :=
  toLe 1 k.ty ++ toLe 1 k.flags ++ toLe 2 k.fn ++ toLe 4 k.spi ++ (k.salt ++ zeros 12).take 12 ++ toLe 8 k.sci ++ toLe 4 k.window ++
  toLe 8 k.txSeq ++ toLe 8 k.rxTop ++ toLe 8 k.soft ++ toLe 8 k.hard ++ toLe 8 k.packets ++ toLe 1 k.l3Slot ++ toLe 1 k.espSlot ++
  zeros 118 ++ toLe 64 k.bitmap.toNat

/-- Contexts charged to a function: loaded, or deleted and not yet freed (R287, R288). -/
def ctxUsed (s : State) (f : Nat) : Nat := (s.cipher.ctxs.filter fun x => x.2.fn == f && (x.2.ty != 0 || x.2.deleting.isSome)).length

/-- Address of a context in Clay for the ECC rules (DESIGN CHOICE, unsafe: log 21). -/
def ctxAddr (n : Nat) : Nat := 2 ^ 39 + 512 * n

/-! ## What a message spans (R277, R281 to R283) -/

/-- IPv6 next headers that are extension headers (RFC 8200), PRESUMED (log 15). -/
def ipv6Ext : List Nat := [0, 43, 44, 60, 135, 139, 140]

/-- Pad bytes before the ESP trailer's last two, to a 4-byte boundary. -/
def espPad (n : Nat) : Nat := (4 - (n + 2) % 4) % 4

/-- Bytes of a SecTAG: with the SCI, or without. -/
def tagLen (sci : Bool) : Nat := if sci then 16 else 8

/-- The header of a transport-mode ESP packet at `h`, `adv` bytes long, is one that R280 supports: IPv4, or IPv6 with no
extension header; `esp` says that its next header is the ESP header itself (50). -/
def transportOk (b : Bytes) (h adv : Nat) (esp : Bool) : Bool :=
  versionAt h b == 4 || (versionAt h b == 6 && adv == 40 &&
    (if esp then fldBe b (h + 6) 1 == 50 else !ipv6Ext.contains (fldBe b (h + 6) 1)))

/-- Bytes of authenticated data and of text of a message, and the packet's length after it; none when the layout is not
supported or a named slot is unrecorded (R291). -/
def cipherSpan (k : CtxRec) (unprotect : Bool) (p : Packet) : Option (Nat × Nat × Nat) :=
  let n := p.bytes.length
  let aad := if k.extSeq then 12 else 8
  if k.ty = 1 then
    match unprotect, slotOf p (if unprotect then k.espSlot else k.l3Slot) with
    | false, some (h, adv, _) =>
      let v := versionAt h p.bytes
      let from_ := if k.tunnel then h else h + adv
      let text := n - from_
      let okLayout := if k.tunnel then v == 4 || v == 6
        else transportOk p.bytes h adv false
      if okLayout && decide (from_ ≤ n) then some (aad, text + espPad text + 2, n + 34 + espPad text) else none
    | true, some (e, _, _) =>
      let l3ok := k.tunnel || (match slotOf p k.l3Slot with
        | some (h, _, _) => decide (h < e) && transportOk p.bytes h (e - h) true
        | none => false)
      if l3ok && decide (e + 34 ≤ n) then some (aad, n - e - 32, n) else none
    | _, none => none
  else if k.ty = 2 then
    if unprotect then
      let sci := bit (fldBe p.bytes 14 1) 5
      if fldBe p.bytes 12 2 ≠ 0x88E5 ∨ n < 12 + tagLen sci + 16 then none
      else
        let sl := fldBe p.bytes 15 1
        let text := if sl = 0 then n - 28 - tagLen sci else sl
        if n < 28 + tagLen sci + text then none
        else if k.intOnly then some (12 + tagLen sci + text, 0, n) else some (12 + tagLen sci, text, n)
    else if n < 12 then none
    else
      let text := n - 12
      let t := tagLen k.sciTx
      if k.intOnly then some (12 + t + text, 0, n + t + 16) else some (12 + t, text, n + t + 16)
  else
    match slotOf p k.l3Slot with
    | none => none
    | some (h, _, _) =>
      let mac := if k.intAlg = 0 then 0 else 4
      if n < h + k.pdcpHdr + (if unprotect then mac else 0) then none
      else
        let body := if unprotect then n - mac else n
        some (if k.intAlg = 0 then 0 else body - h, if k.ciphAlg = 0 then 0 else body - h - k.pdcpHdr + mac, if unprotect then n else n + mac)

/-- A message needs a stream-cipher unit (R277): any bearer but 128-NEA2 alone. -/
def needsStream (k : CtxRec) : Bool := k.ty == 3 && !(k.ciphAlg == 2 && k.intAlg == 0)

/-- Blocks of a message (R277): authenticated data and text, and the lengths block of AES-GCM. -/
def msgBlocks (k : CtxRec) (aad text : Nat) : Nat := (aad + 15) / 16 + (text + 15) / 16 + (if k.ty = 3 then 0 else 1)

/-- Cost of a message in fJ (R415). -/
def msgCost (s : State) (k : CtxRec) (aad text : Nat) : Nat :=
  if needsStream k then ((aad + 3) / 4 + (text + 3) / 4) * s.power.cost.streamPj * 1000 else msgBlocks k aad text * s.power.cost.aesPj * 1000

/-- Blocks of a message that go into its MAC or hash before its text: those of its authenticated data (R277). -/
def macBlocks (aad : Nat) : Nat := (aad + 15) / 16

/-- Cycles of domain 0 that an authenticated block of a message takes in its unit (R277): one in a pipeline; 12 for AES-CMAC
and 4 for the 32 bits a cycle of the other MACs in a stream-cipher unit. -/
def macCycles (m : CipherMsg) : Nat := if m.stream then (if m.ctxRec.intAlg = 2 then 12 else 4) else 1

/-- Cycles that a block of text takes (R277): 32 bits of keystream a cycle in a stream-cipher unit. -/
def textCycles (m : CipherMsg) : Nat := if m.stream then 4 else 1

/-- Cycles of a message's first `n` blocks, its authenticated data first (R277). -/
def feedCycles (m : CipherMsg) (n : Nat) : Nat := min n m.mac * macCycles m + (n - m.mac) * textCycles m

/-- Whole blocks that a message has fed after so many cycles of its own. -/
def blocksIn (m : CipherMsg) (c : Nat) : Nat :=
  if c < m.mac * macCycles m then c / macCycles m else m.mac + (c - m.mac * macCycles m) / textCycles m

/-! ## Failures (R291) -/

/-- How a message fails once it runs. -/
inductive CipherFail where
  | auth | replay | layout
  deriving DecidableEq, Repr

/-- Count a failure against its context. -/
def countCipher (n : Nat) (e : CipherFail) (s : State) : State :=
  updCtx n (fun k => match e with
    | .auth => { k with authFail := k.authFail + 1 }
    | .replay => { k with replay := k.replay + 1 }
    | .layout => { k with layoutBad := k.layoutBad + 1 }) s

/-! ## The dispatcher (R278, R289) -/

/-- Last usable sequence value (R289). -/
def lastSeq (k : CtxRec) : Nat := if k.ty ≠ 3 ∧ k.extSeq then 2 ^ 64 - 1 else 2 ^ 32 - 1

/-- The next sequence value: 0 counts as 1, but for a bearer (R289). -/
def nextSeq (k : CtxRec) : Nat := if k.txSeq = 0 ∧ k.ty ≠ 3 then 1 else k.txSeq

/-- No further message may be made (R289). -/
def ctxExhausted (k : CtxRec) (unprotect : Bool) : Bool :=
  (!unprotect && decide (lastSeq k < nextSeq k)) || (k.hard != 0 && decide (k.hard ≤ k.packets))

/-- CTX_HARD_EXPIRE, once (R289). -/
def hardExpire (n : Nat) (s : State) : State :=
  if (ctxAt s n).hardDone then s else raise 833 n (updCtx n (fun k => { k with hardDone := true }) s)

/-- Messages of a unit. -/
def unitMsgs (s : State) (stream : Bool) (u : Nat) : List CipherMsg := s.cipher.msgs.filter fun m => m.stream == stream && m.unit == u

/-- Blocks that wait at a unit. -/
def blocksWaiting (s : State) (stream : Bool) (u : Nat) : Nat := ((unitMsgs s stream u).filter fun m => m.state == 0).foldl (fun a m => a + m.blocks) 0

/-- The unit a context's next message goes to (R278): the unit that has messages of it, else the awake unit with the fewest
blocks waiting, the lowest-numbered on a tie; with none awake, unit 0, which is woken. -/
def pickUnit (s : State) (n : Nat) (stream : Bool) : Nat :=
  match s.cipher.msgs.find? fun m => m.ctx == n with
  | some m => m.unit
  | none =>
    let awake := (List.range (if stream then 4 else 12)).filter (cipherAwake s stream)
    match awake with
    | [] => 0
    | u :: r => r.foldl (fun b x => if blocksWaiting s stream x < blocksWaiting s stream b then x else b) u

/-- Present a packet to the cipher engine under a CIPHER word (R209, R278, R285, R289, R291): true when the engine has
taken it or it was freed, false when its job is held (R416). -/
def cipherSubmit (p : Packet) (n urgency : Nat) (unprotect : Bool) (s : State) : Bool × State :=
  let k := ctxAt s n
  if poisonedIn s 9 (ctxAddr n) 256 then (true, dropPkt p (poisonConsumed 9 (count (cDev 35) s)))
  else if k.ty = 0 ∨ (k.ty = 3 ∧ k.ciphAlg = 0 ∧ k.intAlg = 0) then (true, dropPkt p (count (cDev 34) s))
  else match cipherSpan k unprotect p with
    | none => (true, dropPkt p (countCipher n .layout s))
    | some (aad, text, _) =>
      if ctxExhausted k unprotect then
        (true, dropPkt p (hardExpire n (updCtx n (fun k => { k with exhausted := k.exhausted + 1 }) s)))
      else
        let (go, s) := admitJob (if 2 ≤ urgency then 2 else 3) (msgCost s k aad text) false s
        if !go then (false, s)
        else
          let stream := needsStream k
          let u := pickUnit s n stream
          if 1024 ≤ ((unitMsgs s stream u).filter fun m => m.state == 0 && m.urgency == urgency).length then
            (true, dropPkt p (count (cDev 33) s))
          else
            let q := nextSeq k
            let s := if unprotect then s else updCtx n (fun k => { k with txSeq := q + 1 }) s
            let m : CipherMsg := { pkt := p, ctx := n, unprotect := unprotect, urgency := urgency, stream := stream, unit := u, seqNo := q,
                                   ctxRec := k, blocks := msgBlocks k aad text, mac := macBlocks aad, order := s.cipher.order }
            let s := { s with cipher := { s.cipher with msgs := s.cipher.msgs ++ [m], order := s.cipher.order + 1 } }
            (true, if cipherAwake s stream u then s else startWake (if stream then wkStream else wkAes) u false s)

/-! ## Running (R292, R293) -/

/-- An earlier message of the same context is unfinished in its unit. -/
def behind (l : List CipherMsg) (m : CipherMsg) : Bool := l.any fun x => x.ctx == m.ctx && decide (x.order < m.order)

/-- The candidate of a unit (R292): highest urgency, then earliest arrival, among waiting and suspended messages with no
unfinished predecessor. -/
def candidate (l : List CipherMsg) : Option CipherMsg :=
  (l.filter fun m => (m.state == 0 || m.state == 2) && !behind l m).foldl (fun b m =>
    match b with
    | none => some m
    | some x => if x.urgency < m.urgency ∨ (x.urgency = m.urgency ∧ m.order < x.order) then some m else some x) none

/-- When a running message has fed its last block. -/
def feedEnd (s : State) (m : CipherMsg) : Nat := m.startAt + cycleTime s 0 (feedCycles m m.blocks - feedCycles m m.fed)

/-- Blocks a running message has fed by now. -/
def fedBy (s : State) (m : CipherMsg) : Nat :=
  min m.blocks (blocksIn m (feedCycles m m.fed + (s.time.t - m.startAt) * freqKhz 0 (pointOf s 0) / 65536000000))

/-- Change one message. -/
def updMsg (num : Nat) (g : CipherMsg → CipherMsg) (s : State) : State :=
  { s with cipher := { s.cipher with msgs := mapWhere (fun m => m.pkt.num == num) g s.cipher.msgs } }

/-- CIPHER_MESSAGE_START: the unit takes its candidate (R292, R293). A running message of lower urgency is suspended at a
block boundary, unless the candidate waits and 8 are suspended; otherwise the candidate starts when the running one has
fed its last block. -/
def execCipherMessageStart (stream : Bool) (unit : Nat) (s : State) : Host.Outcome State Fault Refusal :=
  done (
    let l := unitMsgs s stream unit
    let start (c : CipherMsg) (s : State) : State := updMsg c.pkt.num (fun m => { m with state := 1, startAt := s.time.t }) s
    match (if cipherAwake s stream unit then candidate l else none) with
    | none => s
    | some c =>
      match l.find? fun m => m.state == 1 with
      | none => start c s
      | some r =>
        if s.time.t < feedEnd s r ∧ r.urgency < c.urgency ∧ !(c.state == 0 && decide (8 ≤ (l.filter fun m => m.state == 2).length)) then
          start c (updMsg r.pkt.num (fun m => { m with state := 2, fed := fedBy s m }) s)
        else
          let s := advanceTo (feedEnd s r) s
          start c (updMsg r.pkt.num (fun m => { m with state := 3, fed := m.blocks, startAt := feedEnd s r }) s))

/-! ## Sequence numbers of received messages (R290) -/

/-- The full ESP sequence number of its received low half (RFC 4303 Appendix A). -/
def espSeq (k : CtxRec) (low : Nat) : Nat :=
  if !k.extSeq then low
  else
    let tl := k.rxTop % 2 ^ 32
    let th := k.rxTop / 2 ^ 32
    if k.window - 1 ≤ tl then
      (if tl + 1 - k.window ≤ low then th * 2 ^ 32 + low else (th + 1) * 2 ^ 32 + low)
    else if (2 ^ 32 + tl + 1 - k.window) % 2 ^ 32 ≤ low then (th + 2 ^ 32 - 1) % 2 ^ 32 * 2 ^ 32 + low
    else th * 2 ^ 32 + low

/-- The window check of RFC 4303 section 3.4.3: true when the number is new and not too old. -/
def espFresh (k : CtxRec) (q : Nat) : Bool :=
  decide (k.rxTop < q) || (decide (k.rxTop - q < k.window) && !k.bitmap.getLsbD (k.rxTop - q))

/-- RX_TOP and BITMAP after a number has verified. -/
def espMark (q : Nat) (k : CtxRec) : CtxRec :=
  if k.rxTop < q then { k with rxTop := q, bitmap := (if q - k.rxTop < 512 then k.bitmap <<< (q - k.rxTop) else 0) ||| 1#512 }
  else if k.rxTop - q < 512 then { k with bitmap := k.bitmap ||| (1#512 <<< (k.rxTop - q)) } else k

/-- The full MACsec packet number (IEEE 802.1AE, XPN). -/
def macsecPn (k : CtxRec) (low : Nat) : Nat :=
  if !k.extSeq then low
  else
    let up := k.rxTop / 2 ^ 32
    let nl := k.rxTop % 2 ^ 32
    let up := if low < nl ∧ bit nl 31 ∧ !bit low 31 then up + 1 else up
    up * 2 ^ 32 + low

/-- COUNT recovered from a PDCP SN and RX_TOP (TS 38.323). -/
def pdcpCount (k : CtxRec) (sn : Nat) : Nat :=
  let b := 2 ^ k.snBits
  let w := b / 2
  let hfn := k.rxTop / b
  let top := k.rxTop % b
  let hfn := if sn + w < top then hfn + 1 else if top + w ≤ sn then hfn + 2 ^ 32 / b - 1 else hfn
  hfn % (2 ^ 32 / b) * b + sn

/-! ## The transforms -/

/-- What a message gives: the packet's bytes and slots, the context after it, and whether it was delivered unverified. -/
structure CipherOut where
  bytes : Bytes
  slots : Store (Nat × Nat × Nat)
  ctx : CtxRec
  unverified : Bool := false

/-- ESP protect (R281). Slots at or after the insertion point move by the header and IV (DEDUCED, unsafe: log 24). -/
def espProtect (k live : CtxRec) (q : Nat) (p : Packet) : Except CipherFail CipherOut :=
  match slotOf p k.l3Slot with
  | none => .error .layout
  | some (h, adv, _) =>
    let d := p.bytes
    let v := versionAt h d
    let at_ := if k.tunnel then h else h + adv
    let proto := if v = 4 then h + 9 else h + 6
    let nh := if k.tunnel then (if v = 4 then 4 else 41) else fldBe d proto 1
    let text := d.drop at_
    let pad := espPad text.length
    let plain := text ++ (List.range pad).map (fun i => BitVec.ofNat 8 (i + 1)) ++ toBe 1 pad ++ toBe 1 nh
    let hdr := toBe 4 k.spi ++ toBe 4 (q % 2 ^ 32)
    let iv := toBe 8 q
    let aad := if k.extSeq then toBe 4 k.spi ++ toBe 8 q else hdr
    let (ct, icv) := Config.gcmSeal k.aesKey (k.salt.take 4 ++ iv) aad plain
    let d := (if k.tunnel then d else setBe proto 1 50 d).take at_ ++ hdr ++ iv ++ ct ++ icv
    let d := match p.push with
      | some f => fixUps f 0xB 0 d
      | none => d
    .ok { bytes := d, slots := slotsIn at_ 16 p.slots, ctx := live }

/-- ESP unprotect (R281, R290). -/
def espUnprotect (k live : CtxRec) (p : Packet) : Except CipherFail CipherOut :=
  match slotOf p k.espSlot with
  | none => .error .layout
  | some (e, _, _) =>
    let d := p.bytes
    let q := espSeq live (fldBe d (e + 4) 4)
    if k.replayOn && !espFresh live q then .error .replay
    else
      let aad := if k.extSeq then slice d e 4 ++ toBe 8 q else slice d e 8
      match Config.gcmOpen k.aesKey (k.salt.take 4 ++ slice d (e + 8) 8) aad (slice d (e + 16) (d.length - e - 32)) (d.drop (d.length - 16)) with
      | none => .error .auth
      | some plain =>
        let nh := fldBe plain (plain.length - 1) 1
        let pad := fldBe plain (plain.length - 2) 1
        let body := plain.take (plain.length - 2 - pad)
        let out := d.take e ++ body
        let out := if k.tunnel then out
          else match slotOf p k.l3Slot with
            | some (h, _, _) => fixIp h (setBe (if versionAt h d = 4 then h + 9 else h + 6) 1 nh out)
            | none => out
        .ok { bytes := out, slots := p.slots.filter fun x => decide (x.2.1 < e), ctx := espMark q live }

/-- XOR of two runs of bytes. -/
def xorBytes (a b : Bytes) : Bytes := List.zipWith (· ^^^ ·) a b

/-- The GCM nonce of a MACsec packet number (IEEE 802.1AE). -/
def macsecNonce (k : CtxRec) (pn : Nat) : Bytes :=
  if k.extSeq then xorBytes (toBe 4 k.spi ++ toBe 8 pn) ((k.salt ++ zeros 12).take 12) else toBe 8 k.sci ++ toBe 4 (pn % 2 ^ 32)

/-- MACsec protect (R282). The association number is in no field of the context: `an` is a free value (DESIGN CHOICE, safe: log 10). -/
def macsecProtect (k live : CtxRec) (pn an : Nat) (p : Packet) : Except CipherFail CipherOut :=
  let d := p.bytes
  let text := d.drop 12
  let tci := 0x20 * b2n k.sciTx + (if k.intOnly then 0 else 0x0C) + an % 4
  let tag := toBe 2 0x88E5 ++ toBe 1 tci ++ toBe 1 (if text.length < 48 then text.length else 0) ++ toBe 4 (pn % 2 ^ 32) ++
    (if k.sciTx then toBe 8 k.sci else [])
  let hdr := d.take 12 ++ tag
  let out := if k.intOnly then hdr ++ text ++ (Config.gcmSeal k.aesKey (macsecNonce k pn) (hdr ++ text) []).2
    else
      let (ct, icv) := Config.gcmSeal k.aesKey (macsecNonce k pn) hdr text
      hdr ++ ct ++ icv
  .ok { bytes := out, slots := slotsIn 12 tag.length p.slots, ctx := live }

/-- MACsec unprotect (R282, R290). -/
def macsecUnprotect (k live : CtxRec) (p : Packet) : Except CipherFail CipherOut :=
  let d := p.bytes
  let t := tagLen (bit (fldBe d 14 1) 5)
  let sl := fldBe d 15 1
  let n := if sl = 0 then d.length - 28 - t else sl
  let pn := macsecPn live (fldBe d 16 4)
  if k.replayOn && decide (pn + live.window < live.rxTop) then .error .replay
  else
    let hdr := d.take (12 + t)
    let body := slice d (12 + t) n
    let icv := slice d (12 + t + n) 16
    let nonce := macsecNonce k pn
    let good := if k.intOnly then (Config.gcmOpen k.aesKey nonce (hdr ++ body) [] icv).map (fun _ => body)
      else Config.gcmOpen k.aesKey nonce hdr body icv
    let slots := slotsOut 12 (12 + t) p.slots
    match good with
    | some plain => .ok { bytes := d.take 12 ++ plain, slots := slots, ctx := { live with rxTop := max live.rxTop (pn + 1) } }
    | none =>
      if !k.checkOnly then .error .auth
      -- validateFrames Check: the text is deciphered and delivered unverified
      else .ok { bytes := d.take 12 ++ (if k.intOnly then body else (Config.gcmSeal k.aesKey nonce hdr body).1), slots := slots, ctx := live,
                 unverified := true }

/-- A bearer transform on protect (R283). -/
def bearerProtect (k live : CtxRec) (q : Nat) (p : Packet) : Except CipherFail CipherOut :=
  match slotOf p k.l3Slot with
  | none => .error .layout
  | some (h, _, _) =>
    let hdr := slice p.bytes h k.pdcpHdr
    let data := p.bytes.drop (h + k.pdcpHdr)
    let mac := if k.intAlg = 0 then [] else (Config.pdcpMac k.intAlg k.key2 q k.bearer k.direction (hdr ++ data)).take 4
    let text := data ++ mac
    let text := if k.ciphAlg = 0 then text else Config.pdcpCipher k.ciphAlg (k.key.take 16) q k.bearer k.direction text
    .ok { bytes := p.bytes.take (h + k.pdcpHdr) ++ text, slots := p.slots, ctx := live }

/-- A bearer transform on unprotect (R283, R290). -/
def bearerUnprotect (k live : CtxRec) (p : Packet) : Except CipherFail CipherOut :=
  match slotOf p k.l3Slot with
  | none => .error .layout
  | some (h, _, _) =>
    let hdr := slice p.bytes h k.pdcpHdr
    let q := pdcpCount live (fldBe p.bytes h k.pdcpHdr % 2 ^ k.snBits)
    let text := p.bytes.drop (h + k.pdcpHdr)
    let text := if k.ciphAlg = 0 then text else Config.pdcpCipher k.ciphAlg (k.key.take 16) q k.bearer k.direction text
    let n := text.length - (if k.intAlg = 0 then 0 else 4)
    if k.intAlg ≠ 0 ∧ (Config.pdcpMac k.intAlg k.key2 q k.bearer k.direction (hdr ++ text.take n)).take 4 ≠ text.drop n then .error .auth
    else .ok { bytes := p.bytes.take (h + k.pdcpHdr) ++ text.take n, slots := p.slots, ctx := { live with rxTop := max live.rxTop q } }

/-- Run a message's transform: `k` is the context as accepted, with its key; `live` the record its number checks see. -/
def cipherRun (m : CipherMsg) (live : CtxRec) (an : Nat) : Except CipherFail CipherOut :=
  let k := m.ctxRec
  if k.ty = 1 then (if m.unprotect then espUnprotect k live m.pkt else espProtect k live m.seqNo m.pkt)
  else if k.ty = 2 then (if m.unprotect then macsecUnprotect k live m.pkt else macsecProtect k live m.seqNo an m.pkt)
  else if m.unprotect then bearerUnprotect k live m.pkt else bearerProtect k live m.seqNo m.pkt

/-- The buffer of a message's output (R255, R279): a message that grows takes a new one charged to the cipher, one that shares
its buffer takes one of its own. -/
def cipherBuffer (p : Packet) (size : Nat) (s : State) : Except Nat (Packet × State) :=
  if p.bytes.length < size then ownBuffer p size ownCipher s else ensureBuffer p size s

/-- A message completes under its context: PACKETS counts it and CTX_SOFT_EXPIRE is raised once at SOFT_LIMIT (R284, R289);
a context that waits to be freed counts it too (R296). -/
def ctxCount (n : Nat) (s : State) : State :=
  let s := updCtx n (fun k => { k with packets := k.packets + 1, doneAfter := if k.deleting.isSome then k.doneAfter + 1 else 0 }) s
  let k := ctxAt s n
  if k.soft ≠ 0 ∧ k.soft ≤ k.packets ∧ !k.softDone then raise 832 n (updCtx n (fun k => { k with softDone := true }) s) else s

/-- A message's result is out (R291, R293): the changed packet, or none when it was freed. -/
def cipherFinish (m : CipherMsg) (s : State) : Option Packet × State :=
  let s := { s with cipher := { s.cipher with msgs := s.cipher.msgs.filter fun x => x.pkt.num != m.pkt.num } }
  let (an, s) := if m.ctxRec.ty = 2 ∧ !m.unprotect then drawFree s else (0, s)
  match cipherRun m (ctxAt s m.ctx) an with
  | .error e => (none, ctxFree m.ctx (dropPkt m.pkt (countCipher m.ctx e s)))
  | .ok o =>
    let s := { s with cipher := { s.cipher with ctxs := Store.set {} m.ctx o.ctx s.cipher.ctxs } }
    let s := ctxFree m.ctx (ctxCount m.ctx (if o.unverified then countCipher m.ctx .auth s else s))
    match cipherBuffer m.pkt o.bytes.length s with
    | .error _ => (none, dropPkt m.pkt (count (cDev 36) s))
    | .ok (p, s) => (some { p with bytes := o.bytes, slots := o.slots }, s)

/-! ## Class 0x0B (R296) -/

/-- The largest context number. -/
def maxCtx : Nat := 131071

/-- The data that CTX_LOAD's key wrap is bound to (R286). -/
def wrapInfo (s : State) (n : Nat) : Bytes :=
  [0x43, 0x57, 0x4B, 0x57] ++ toLe 8 Config.serial.toNat ++ toLe 16 (s.cipher.nonce.getD 0).toNat ++ toLe 4 n ++ toLe 4 (ctxAt s n).loadGen

/-- What the shared checks need to know of CTX_LOAD, opcode 0x0B01. -/
def infoCtxLoad : OpInfo :=
  { code := 0x0B01, len := fun c => lenIs 256 c && decide (arg c 0 4 ≤ maxCtx) && ctxValid (readCtx (slice c.payload 8 96)), priv := true, cap := some 1, gated := true }

/-- CTX_LOAD (R286, R287). -/
def execCtxLoad (c : Cmd) (s : State) : Host.Outcome State Fault Refusal :=
  done (runCommand infoCtxLoad
    (answer fun _ c s =>
      let n := arg c 0 4
      let k := readCtx (slice c.payload 8 96)
      let old := ctxAt s n
      if !s.entropyReady then (s, err stNotReady 0)
      else if old.ty ≠ 0 ∨ old.deleting.isSome then (s, err stState 2)
      else if (funcOf s k.fn).cipherCtx ≤ ctxUsed s k.fn then (s, err stQuota 0)
      else if !Config.onCurve (slice c.payload 104 96) then (s, err stDenied 0x11)
      else match Config.unwrapKey (imageId s).1 (imageId s).2 (slice c.payload 104 96) (slice c.payload 200 56) (wrapInfo s n) with
        | none => (s, err stDenied 0x10)
        | some w =>
          let g := (old.loadGen + 1) % 2 ^ 32
          (clearPoison 9 (ctxAddr n) 256 (updCtx n (fun _ => { k with key := w.take 32, key2 := slice w 32 16, loadGen := g }) s), ok g 0)) c s)

/-- What the shared checks need to know of CTX_DELETE, opcode 0x0B02. -/
def infoCtxDelete : OpInfo := { code := 0x0B02, len := fun c => lenIs 8 c && decide (arg c 0 8 ≤ maxCtx), priv := true, cap := some 1, gated := true }

/-- CTX_DELETE (R288, R296). -/
def execCtxDelete (c : Cmd) (s : State) : Host.Outcome State Fault Refusal :=
  done (runCommand infoCtxDelete
    (fun r _ c s =>
      let n := arg c 0 8
      if (ctxAt s n).ty = 0 then (s, some (err stState 1))
      else
        let s := updCtx n (fun k => { k with ty := 0, deleting := some r, doneAfter := 0 }) s
        if s.cipher.msgs.any fun m => m.ctx == n then (s, none)
        else (updCtx n ctxErase s, some (ok 0 0))) c s)

/-- What the shared checks need to know of CTX_READ, opcode 0x0B03. -/
def infoCtxRead : OpInfo := { code := 0x0B03, len := fun c => lenIs 16 c && decide (arg c 0 8 ≤ maxCtx), modes := modesRead, cap := some 1, outOff := some 8 }

/-- CTX_READ (R296). A poisoned record answers INTERNAL (R430). -/
def execCtxRead (c : Cmd) (s : State) : Host.Outcome State Fault Refusal :=
  done (runCommand infoCtxRead
    (answer fun _ c s =>
      let n := arg c 0 8
      if poisonedIn s 9 (ctxAddr n) 256 then (poisonConsumed 9 s, err stInternal (poisonDetail 9))
      else (s, okOut (ctxAt s n).loadGen 0 (arg c 8 8) (ctxBytes (ctxAt s n)))) c s)

/-- What the shared checks need to know of CTX_UPDATE, opcode 0x0B04. -/
def infoCtxUpdate : OpInfo := { code := 0x0B04, len := fun c => lenIs 48 c && decide (arg c 0 4 ≤ maxCtx), priv := true, cap := some 1, gated := true }

/-- CTX_UPDATE (R296): every selected field in one step. -/
def execCtxUpdate (c : Cmd) (s : State) : Host.Outcome State Fault Refusal :=
  done (runCommand infoCtxUpdate
    (answer fun _ c s =>
      let n := arg c 0 4
      let sel (i : Nat) : Bool := bit (arg c 4 1) i
      let k := ctxAt s n
      let win := arg c 24 4
      if sel 2 ∧ k.ty = 1 ∧ (win < 32 ∨ 512 < win) then (s, err stBadLength 0)
      else if k.ty = 0 then (s, err stState 1)
      else if sel 0 ∧ arg c 8 8 ≤ k.txSeq then (s, err stState 3)
      else (updCtx n (fun k => { k with
        txSeq := if sel 0 then arg c 8 8 else k.txSeq
        rxTop := if sel 1 then arg c 16 8 else k.rxTop
        window := if sel 2 then win else k.window
        soft := if sel 3 then arg c 32 8 else k.soft
        hard := if sel 4 then arg c 40 8 else k.hard }) s, ok 0 0)) c s)

/-- What the shared checks need to know of CIPHER_STATUS, opcode 0x0B05. -/
def infoCipherStatus : OpInfo := { code := 0x0B05, len := lenIs 8, modes := modesRead, cap := some 1, outOff := some 0 }

/-- CIPHER_STATUS (R296). -/
def execCipherStatus (c : Cmd) (s : State) : Host.Outcome State Fault Refusal :=
  done (runCommand infoCipherStatus
    (readBody fun _ c s =>
      let susp (stream : Bool) (u : Nat) : Bytes := toLe 1 ((unitMsgs s stream u).filter fun m => m.state == 2).length
      let out := toLe 16 (s.cipher.nonce.getD 0).toNat ++ ((List.range 12).map (susp false)).flatten ++ ((List.range 4).map (susp true)).flatten ++ zeros 32
      okOut (s.cipher.aesAwake.toNat + 4096 * s.cipher.strAwake.toNat) 0 (arg c 0 8) out) c s)

end Sys2Proof.Machine
end

