-- ==== Sys2Proof/Machine/Time.lean ====
section
/-! DEFINITION. Device time and its states (R333 to R339), the 1PPS pins (R343, R344), synchronous Ethernet (R345) and the opcodes
of class 0x0C (R346 to R348). -/

namespace Sys2Proof.Machine

open Sys2Proof

/-! ## Time states (R337) -/

/-- The clocks of the main part run. -/
def timeRuns (s : State) : Bool := s.mode != .dry && !s.wh.clocksStopped

/-- A carrier is suspended (R355). -/
def suspended (s : State) (c : Nat) : Bool := Store.get false c s.fh.suspended

/-- Suspend a carrier: FH_SUSPEND is raised on entry (R355). -/
def suspendCarrier (c : Nat) (s : State) : State :=
  if suspended s c then s else raise (960 + c) 0 { s with fh := { s.fh with suspended := Store.set false c true s.fh.suspended } }

/-- While UNLOCKED is 1, every enabled carrier that may not run unlocked is suspended (R355). -/
def suspendAll (s : State) : State :=
  if unlocked s then (s.fh.carriers.filter fun x => x.2.enable && !x.2.runUnlocked).foldl (fun t x => suspendCarrier x.1 t) s else s

/-- Move to a time state and raise its event. -/
def moveTState (st : TState) (s : State) : State :=
  let s := { s with time := { s.time with state := st, good := 0, bad := 0, holdSince := if st = .holdover then s.time.t else s.time.holdSince } }
  let s := match st with
    | .locked => raise 896 0 s
    | .holdover => raise 897 0 s
    | .free => raise 898 0 s
    | .acquiring => s
  suspendAll s

/-- Enter a time state (R337): a HOLDOVER of HOLDOVER_S 0 falls to FREE at once. -/
def enterTState (st : TState) (s : State) : State :=
  if s.time.state = st then s
  else if st = .holdover ∧ s.time.cfg.holdoverS = 0 then moveTState .free (moveTState .holdover s)
  else moveTState st s

/-! ## Correction (R338) -/

/-- A step of device time by a signed amount in 2^-16 ns: STEPS saturates, TIME_STEP is raised. -/
def stepTime (d : Int) (s : State) : State :=
  raise 899 0 { s with time := { s.time with t := ((s.time.t : Int) + d).toNat, steps := min 0xFFFF (s.time.steps + 1) } }

/-- A reference measurement under SOURCE 2 or 3, its offset in 2^-16 ns (R337 to R339). Firmware steps above STEP_NS; otherwise it
corrects the frequency by an amount the spec leaves to it: a free value within 500 ppm (DESIGN CHOICE, safe: log 10). -/
def measure (off : Int) (s : State) : State :=
  let c := s.time.cfg
  let mag := off.natAbs
  let s := { s with time := { s.time with lastOffset := off / 65536, lastMeas := s.time.t } }
  let big := decide (c.stepNs * 65536 < mag)
  let s := match s.time.state with
    | .free => enterTState .acquiring s
    | .acquiring =>
      let n := if mag ≤ c.lockNs * 65536 then s.time.good + 1 else 0
      if c.lockCount ≤ n then enterTState .locked s else { s with time := { s.time with good := n } }
    | .locked =>
      let n := if c.unlockNs * 65536 < mag then s.time.bad + 1 else 0
      if big || decide (c.unlockCount ≤ n) then enterTState .acquiring s else { s with time := { s.time with bad := n } }
    | .holdover => if mag ≤ c.lockNs * 65536 ∧ !big then enterTState .locked s else enterTState .acquiring s
  if big then
    let s := if unlocked s then s else enterTState .acquiring s
    stepTime (-off) s
  else
    let (v, s) := drawFree s
    { s with time := { s.time with freqPpt := (v % 1000000001 : Nat) - (500000000 : Int) } }

/-! ## Timestamps (R333, R335, R341) -/

/-- A ball time corrected by a delay in ps and cut to 0.25 ns. -/
def stampAt (t : Nat) (ps : Int) : Nat := ((t : Int) + ps * 65536 / 1000).toNat / 16384 * 16384

/-- The timestamp of a frame that port `p` receives now. -/
def stampRx (s : State) (p : Nat) : Nat := stampAt s.time.t (-(portAt s p).ptp.rxDelay)

/-- The timestamp of a frame whose start-of-frame delimiter left port `p` at an instant. -/
def stampTx (s : State) (p at_ : Nat) : Nat := stampAt at_ (portAt s p).ptp.txDelay

/-- The bytes of a TIMESTAMP word's stamp: FORMAT 1 is the 10-byte IEEE 1588 form; the 64-bit form is written in network order,
as the fields of a packet are read (R192, R333, R341). -/
def stampBytes (t format : Nat) : Bytes :=
  let ns := t / 65536
  if format = 1 then toBe 6 (ns / 1000000000) ++ toBe 4 (ns % 1000000000) else toBe 8 ns

/-! ## Loss of a source (R337) -/

/-- SYNC_LOSS: no measurement for SYNC_LOSS_MS in LOCKED, under SOURCE 2 or 3. -/
def execSyncLoss (s : State) : Host.Outcome State Fault Refusal :=
  done (if timeRuns s && s.time.state == .locked && decide (2 ≤ s.time.cfg.source) then
      enterTState .holdover (advanceTo (s.time.lastMeas + s.time.cfg.syncLossMs * 1000000 * 65536) s)
    else s)

/-- HOLDOVER_EXPIRY: HOLDOVER_S seconds in HOLDOVER. -/
def execHoldoverExpiry (s : State) : Host.Outcome State Fault Refusal :=
  done (if timeRuns s && s.time.state == .holdover then
      enterTState .free (advanceTo (s.time.holdSince + s.time.cfg.holdoverS * 1000000000 * 65536) s)
    else s)

/-! ## The 1PPS pins (R343, R344) -/

/-- The next instant at or after now where (NS - PPS_OUT_OFFSET) mod 10^9 is 0, in ns. -/
def ppsNext (s : State) : Nat :=
  let now : Int := if s.time.t % 65536 = 0 then nowNs s else nowNs s + 1
  let r := (now - s.time.cfg.ppsOffset) % 1000000000
  (now + (1000000000 - r) % 1000000000).toNat

/-- PPS_OUT_RISE (R343). -/
def execPpsOutRise (s : State) : Host.Outcome State Fault Refusal :=
  done (if !s.time.cfg.ppsOutEn || !modeTalks s then s
    else
      let s := advanceNs (ppsNext s) s
      if s.time.ppsOut || (s.time.cfg.ppsGate && unlocked s) then s
      else emit (.pinLevel .ppsOut true) { s with time := { s.time with ppsOut := true, ppsRose := s.time.t } })

/-- PPS_OUT_FALL (R343). -/
def execPpsOutFall (s : State) : Host.Outcome State Fault Refusal :=
  done (if !s.time.ppsOut then s
    else
      let s := advanceTo (s.time.ppsRose + s.time.cfg.ppsWidthMs * 1000000 * 65536) s
      emit (.pinLevel .ppsOut false) { s with time := { s.time with ppsOut := false } })

/-- Offset of an instant from the nearest whole second of device time, in 2^-16 ns (R339). -/
def secondOffset (t : Nat) : Int :=
  let sec : Int := 1000000000 * 65536
  let r : Int := (t : Int) % sec
  if 2 * r ≤ sec then r else r - sec

/-- PPS_IN_EDGE (R339, R344): at 0.25 ns resolution, into a FIFO of 16. -/
def execPpsInEdge (s : State) : Host.Outcome State Fault Refusal :=
  done (if !timeRuns s then s
    else
      let t := stampAt s.time.t 0
      let short := match s.time.ppsLast with
        | some x => decide (t - x < 500000000 * 65536)
        | none => false
      let e : PpsEdge := { t := t, short := short, unlocked := unlocked s }
      let s := { s with time := { s.time with ppsLast := some t } }
      let u := if s.time.ppsFifo.length < 16 then { s with time := { s.time with ppsFifo := s.time.ppsFifo ++ [e] } }
        else count (cDev 41) { s with time := { s.time with ppsLost := s.time.ppsLost + 1 } }
      if s.time.cfg.source = 3 ∧ !short then measure (secondOffset t) u else u)

/-! ## Synchronous Ethernet (R345) -/

/-- The pin of a SyncE output. -/
def syncePin (k : Nat) : Pin := if k = 0 then .syncE0 else .syncE1

/-- A line lane has signal and lock: it belongs to a port that is up (R167). -/
def laneLocked (s : State) (lane : Nat) : Bool :=
  s.ports.any fun x => x.2.cfg.mode != 0 && x.2.up && decide (x.1 ≤ lane) && decide (lane < x.1 + x.2.cfg.lanes)

/-- A SyncE pin. -/
def synceAt (s : State) (k : Nat) : SynceSt := Store.get {} k s.time.synce

/-- Set a SyncE pin low or let its clock run. -/
def synceDrive (k : Nat) (low : Bool) (s : State) : State :=
  emit (.pinLevel (syncePin k) (!low)) { s with time := { s.time with synce := Store.upd {} k (fun r => { r with low := low }) s.time.synce } }

/-- SYNCE_LANE_LOSS (R345). -/
def execSynceLaneLoss (pin : Nat) (s : State) : Host.Outcome State Fault Refusal :=
  done (let r := synceAt s pin
    if r.enable && !r.low then raise (900 + pin) 0 (synceDrive pin true s) else s)

/-- SYNCE_CLOCK_RETURN (R345). -/
def execSynceClockReturn (pin : Nat) (s : State) : Host.Outcome State Fault Refusal :=
  done (let r := synceAt s pin
    if r.enable && r.low then synceDrive pin false s else s)

/-! ## Class 0x0C (R346 to R348) -/

/-- The value that 0 selects. -/
def orDefault (v d : Nat) : Nat := if v = 0 then d else v

/-- TIME_CONFIG's fields from the payload (R346). -/
def readTimeCfg (b : Bytes) : TimeCfg :=
  let lock := orDefault (fld b 4 2) 30
  { source := fld b 0 1, ppsOutEn := bit (fld b 1 1) 0, ppsGate := bit (fld b 1 1) 1, lockCount := orDefault (fld b 2 1) 16,
    unlockCount := orDefault (fld b 3 1) 4, lockNs := lock, unlockNs := orDefault (fld b 6 2) (max 100 lock),
    stepNs := orDefault (fld b 8 4) 1000, holdoverS := fld b 12 4, ppsWidthMs := orDefault (fld b 16 2) 100,
    ppsOffset := signed 32 (fld b 20 4), syncLossMs := orDefault (fld b 24 4) 3000 }

/-- The ranges of R346. -/
def timeCfgOk (c : TimeCfg) : Bool :=
  decide (c.source ≤ 3) && decide (c.lockNs ≤ 1000) && decide (c.lockNs ≤ c.unlockNs) && decide (c.unlockNs ≤ 10000) &&
  decide (100 ≤ c.stepNs) && decide (c.stepNs ≤ 1000000000) && decide (c.holdoverS ≤ 86400) && decide (c.ppsWidthMs ≤ 500) &&
  decide (-1000000 ≤ c.ppsOffset) && decide (c.ppsOffset ≤ 1000000) && decide (100 ≤ c.syncLossMs) && decide (c.syncLossMs ≤ 60000)

/-- Put a TIME_CONFIG into force (R337, R339). -/
def applyTimeCfg (c : TimeCfg) (s : State) : State :=
  let old := s.time.cfg.source
  let s := { s with time := { s.time with cfg := c } }
  if c.source = 0 then enterTState .free { s with time := { s.time with freqPpt := 0 } }
  else if c.source ≠ old then
    let s := { s with time := { s.time with good := 0, bad := 0, lastMeas := s.time.t } }
    if s.time.state = .locked then enterTState .acquiring s else s
  else s

/-- What the shared checks need to know of TIME_CONFIG, opcode 0x0C01. -/
def infoTimeConfig : OpInfo := { code := 0x0C01, len := lenIs 48, priv := true }

/-- TIME_CONFIG. -/
def execTimeConfig (c : Cmd) (s : State) : Host.Outcome State Fault Refusal :=
  done (runCommand infoTimeConfig
    (answer fun _ c s =>
      let k := readTimeCfg c.payload
      if timeCfgOk k then (applyTimeCfg k s, ok 0 0) else (s, err stBadLength 0)) c s)

/-- The STATE field of a time state (R336). -/
def TState.code : TState → Nat
  | .free => 0
  | .acquiring => 1
  | .locked => 2
  | .holdover => 3

/-- What the shared checks need to know of TIME_GET, opcode 0x0C02. -/
def infoTimeGet : OpInfo := { code := 0x0C02, modes := modesRead }

/-- TIME_GET. -/
def execTimeGet (c : Cmd) (s : State) : Host.Outcome State Fault Refusal :=
  done (runCommand infoTimeGet
    (readBody fun _ _ s => ok (nowNs s) (s.time.t % 65536 + 2 ^ 16 * s.time.state.code + 2 ^ 18 * b2n (unlocked s) +
      2 ^ 32 * unsigned 32 s.time.lastOffset)) c s)

/-- The state that a state flag of TIME_ADJUST leads to, none when R337 lists no such transition. -/
def flagMove (flags : Nat) (st : TState) : Option TState :=
  if bit flags 2 then (if st = .acquiring ∨ st = .holdover then some .locked else none)
  else if bit flags 3 then (if st = .locked ∨ st = .holdover then some .acquiring else none)
  else if bit flags 4 then (if st = .locked then some .holdover else none)
  else some st

/-- TIME_ADJUST's checks and its parts: FREQ, STEP, the move out of FREE under SOURCE 1, then the state flag (R339, R348). -/
def timeAdjust (flags : Nat) (step freq : Int) (s : State) : State × Answer :=
  let src := s.time.cfg.source
  let has (i : Nat) : Bool := bit flags i
  let nflags := b2n (has 2) + b2n (has 3) + b2n (has 4)
  let st := if src = 1 ∧ s.time.state = .free then .acquiring else s.time.state
  let t' : Int := (s.time.t : Int) + step * 65536
  if 1 < nflags ∨ freq < -500000000 ∨ 500000000 < freq then (s, err stBadLength 0)
  else if src = 2 ∨ (src ≠ 1 ∧ (has 1 ∨ 0 < nflags)) then (s, err stState 1)
  else if has 0 ∧ !(st == .free || st == .acquiring) then (s, err stState 2)
  else if has 0 ∧ (t' < 0 ∨ (2 ^ 80 : Int) ≤ t') then (s, err stState 4)
  else match flagMove flags st with
    | none => (s, err stState 3)
    | some target =>
      let s := if has 1 then { s with time := { s.time with freqPpt := freq } } else s
      let s := if has 0 then stepTime (step * 65536) s else s
      let s := enterTState st s
      let s := enterTState target s
      (s, ok (nowNs s) 0)

/-- What the shared checks need to know of TIME_ADJUST, opcode 0x0C03. -/
def infoTimeAdjust : OpInfo := { code := 0x0C03, len := lenIs 24, priv := true }

/-- TIME_ADJUST. -/
def execTimeAdjust (c : Cmd) (s : State) : Host.Outcome State Fault Refusal :=
  done (runCommand infoTimeAdjust
    (answer fun _ c s => timeAdjust (arg c 0 1) (signed 64 (arg c 8 8)) (signed 32 (arg c 16 4)) s) c s)

/-- TIME_PORT_SET's fields from the payload (R347); what the clock has learned of the port starts afresh. -/
def readPtpPort (b : Bytes) : PtpPort :=
  { role := fld b 1 1, profile := fld b 2 1, domain := fld b 3 1, oneStep := bit (fld b 4 1) 0, prio := bits (fld b 4 1) 1 3,
    logSync := signed 8 (fld b 5 1), rxDelay := signed 32 (fld b 8 4), txDelay := signed 32 (fld b 12 4), peer := slice b 16 16 }

/-- The ranges of R347; PROFILE and DOMAIN are looked at when the port takes part (R340). -/
def ptpPortOk (r : PtpPort) : Bool :=
  decide (r.role ≤ 2) && decide (-7 ≤ r.logSync) && decide (r.logSync ≤ 0) &&
  decide (r.rxDelay.natAbs ≤ 1000000) && decide (r.txDelay.natAbs ≤ 1000000) &&
  (r.role == 0 || (r.profile == 1 && decide (24 ≤ r.domain) && decide (r.domain ≤ 43)) ||
    (r.profile == 2 && decide (44 ≤ r.domain) && decide (r.domain ≤ 63)))

/-- What the shared checks need to know of TIME_PORT_SET, opcode 0x0C04. -/
def infoTimePortSet : OpInfo := { code := 0x0C04, len := lenIs 32, priv := true }

/-- TIME_PORT_SET. -/
def execTimePortSet (c : Cmd) (s : State) : Host.Outcome State Fault Refusal :=
  done (runCommand infoTimePortSet
    (answer fun _ c s =>
      let p := arg c 0 1
      let r := readPtpPort c.payload
      if 15 < p ∨ !ptpPortOk r then (s, err stBadLength 0)
      else if laneCount s ≤ p then (s, err stNoUnit 0)
      else
        let s := updPort p (fun x => { x with ptp := r }) s
        let s := if s.time.bestPort = some p then { s with time := { s.time with bestPort := none } } else s
        (s, ok 0 0)) c s)

/-- The 16-byte record of an edge (R348). -/
def edgeBytes (e : PpsEdge) : Bytes := toLe 8 (e.t / 65536) ++ toLe 2 (e.t % 65536) ++ toLe 1 (b2n e.short + 2 * b2n e.unlocked) ++ zeros 5

/-- What the shared checks need to know of PPS_IN_READ, opcode 0x0C05. -/
def infoPpsInRead : OpInfo := { code := 0x0C05, len := lenIs 16, modes := modesRead, outOff := some 0 }

/-- PPS_IN_READ. -/
def execPpsInRead (c : Cmd) (s : State) : Host.Outcome State Fault Refusal :=
  done (runCommand infoPpsInRead
    (answer fun _ c s =>
      let n := arg c 8 8
      if n = 0 ∨ 16 < n then (s, err stBadLength 0)
      else
        let l := s.time.ppsFifo.take n
        ({ s with time := { s.time with ppsFifo := s.time.ppsFifo.drop n } }, okOut l.length s.time.ppsLost (arg c 0 8) (l.map edgeBytes).flatten)) c s)

/-- What the shared checks need to know of SYNCE_SET, opcode 0x0C06. -/
def infoSynceSet : OpInfo := { code := 0x0C06, len := lenIs 8, priv := true }

/-- SYNCE_SET (R345, R348): the clock runs while the lane is locked. -/
def execSynceSet (c : Cmd) (s : State) : Host.Outcome State Fault Refusal :=
  done (runCommand infoSynceSet
    (answer fun _ c s =>
      let k := arg c 0 1
      let lane := arg c 1 1
      if 1 < k ∨ 15 < lane ∨ 7 < arg c 2 1 then (s, err stBadLength 0)
      else if laneCount s ≤ lane then (s, err stNoUnit 0)
      else
        let on := bit (arg c 3 1) 0
        let s := { s with time := { s.time with synce := Store.upd {} k (fun r => { r with enable := on, lane := lane, div := arg c 2 1 }) s.time.synce } }
        (synceDrive k (!(on && laneLocked s lane)) s, ok 0 0)) c s)

end Sys2Proof.Machine
end

