-- ==== Sys2Proof/Machine/Fronthaul.lean ====
section
/-! DEFINITION. The fronthaul unit: the slot grid (R349 to R351, R355), eCPRI frames (R352, R354, R359), receive windows (R356, R357),
launch times (R358), compression (R360) and the opcodes of class 0x0D (R361). Frame formats the spec names without
laying out are PRESUMED from eCPRI 2.0 and O-RAN WG4 (PRESUMED, unsafe: log 15). -/

namespace Sys2Proof.Machine

open Sys2Proof

/-! ## The slot grid (R349) -/

/-- A carrier record in effect. -/
def carrierAt (s : State) (c : Nat) : Carrier := Store.get {} c s.fh.carriers

/-- The record of a carrier for what starts at an instant: the one that waits from its effective instant on, the one in effect before, and before
the last change the one that it replaced (R351, R382). -/
def carrierFrom (s : State) (c : Nat) (t : Int) : Carrier :=
  let next := Store.get ({} : PendCarrier) c s.fh.pending
  let old := Store.get ({} : PendCarrier) c s.fh.olds
  if next.effAt ≠ 0 ∧ (next.effAt : Int) ≤ t then next.record
  else if t < (old.effAt : Int) then old.record else carrierAt s c

/-- Start of a symbol in 2^-16 ns. -/
def symStart (c : Carrier) (frame : Int) (sub slot sym : Nat) : Int :=
  let n := 14 * slot + sym
  let half := 7 * 2 ^ c.mu
  let l := n % half
  let tc := l * (140288 / 2 ^ c.mu) + (if 0 < l then 1024 else 0)
  (c.gridOffset + frame * 10000000 + (sub * 1000000 + n / half * 500000 : Nat)) * 65536 + (tc * 3125 * 4 / 6144 * 16384 : Nat)

/-- The absolute frame that holds an instant in 2^-16 ns. -/
def frameOf (c : Carrier) (t : Int) : Int := (t / 65536 - c.gridOffset) / 10000000

/-- Pattern slot of a slot of a frame, none without a pattern (R350). -/
def patternSlot (c : Carrier) (frame : Int) (sub slot : Nat) : Nat :=
  ((frame * (10 * 2 ^ c.mu : Nat) + (sub * 2 ^ c.mu + slot : Nat)) % (c.dirs.length : Int)).toNat

/-- Direction of a symbol: 0 guard, 1 downlink, 2 uplink (R350). -/
def symDir (c : Carrier) (frame : Int) (sub slot sym : Nat) : Nat := bits (c.dirs.getD (patternSlot c frame sub slot) 0) (2 * sym) 2

/-- Frame, subframe and slot of absolute slot number `k`. -/
def slotParts (c : Carrier) (k : Int) : Int × Nat × Nat :=
  let per : Int := (10 * 2 ^ c.mu : Nat)
  let r := (k % per).toNat
  (k / per, r / 2 ^ c.mu, r % 2 ^ c.mu)

/-- Start of absolute slot `k`. -/
def slotStart (c : Carrier) (k : Int) : Int :=
  let (f, d, s) := slotParts c k
  symStart c f d s 0

/-- The absolute slot that holds an instant. -/
def slotAtTime (c : Carrier) (t : Int) : Int :=
  let k := (t / 65536 - c.gridOffset) * (2 ^ c.mu : Nat) / 1000000
  if t < slotStart c k then k - 1 else if slotStart c (k + 1) ≤ t then k + 1 else k

/-- The first slot boundary at or after an instant whose slot number is a multiple of `p`. -/
def boundaryFrom (c : Carrier) (p : Nat) (t : Int) : Int :=
  let k := slotAtTime c t / p * p
  if t ≤ slotStart c k then slotStart c k else slotStart c (k + p)

/-- The grid instance of a symbol nearest an instant, the earlier one when two are equally near (R356): its frame and start. -/
def nearestInstance (c : Carrier) (t : Int) (frameId sub slot sym : Nat) : Int × Int :=
  let f := frameOf c t
  let base := f - (f - frameId) % 256
  let pick (a b : Int) : Int :=
    let x := (t - symStart c a sub slot sym).natAbs
    let y := (t - symStart c b sub slot sym).natAbs
    if y < x then b else a
  let g := pick (pick (base - 256) base) (base + 256)
  (g, symStart c g sub slot sym)

/-- The first grid instance of a symbol that starts at or after an instant (R358). -/
def nextInstance (c : Carrier) (t : Int) (frameId sub slot sym : Nat) : Int :=
  let f := frameOf c t
  let base := f - (f - frameId) % 256
  let a := symStart c base sub slot sym
  if t ≤ a then a else symStart c (base + 256) sub slot sym

/-! ## eCPRI frames (R352, R354) -/

/-- Where the eCPRI header lies: Ethertype 0xAEFE behind none, one or two VLAN tags. -/
def ecpriAt (d : Bytes) : Option Nat :=
  let tag (o : Nat) : Bool := fldBe d o 2 == 0x8100 || fldBe d o 2 == 0x88A8
  let o := if tag 12 then (if tag 16 then 20 else 16) else 12
  if fldBe d o 2 = 0xAEFE then some (o + 2) else none

/-- An eCPRI frame of message type 0 or 2: its header, eAxC ID and plane. -/
def ecpriKind (d : Bytes) : Option (Nat × Nat × Bool) :=
  match ecpriAt d with
  | none => none
  | some o =>
    let ty := fldBe d (o + 1) 1
    if d.length < o + 6 ∨ (ty ≠ 0 ∧ ty ≠ 2) then none else some (o, fldBe d (o + 4) 2, ty == 2)

/-- frameId, subframeId, slotId and symbol of an eCPRI frame. -/
def ecpriTime (d : Bytes) (o : Nat) : Nat × Nat × Nat × Nat :=
  let w := fldBe d (o + 10) 2
  (fldBe d (o + 9) 1, bits w 12 4, bits w 6 6, bits w 0 6)

/-- A U-plane section: first PRB, PRBs, method, width, where its data lies. -/
structure USection where
  start : Nat
  num : Nat
  every : Nat
  meth : Nat
  width : Nat
  off : Nat

/-- Bytes of one PRB (R359). -/
def prbBytes (meth width : Nat) : Nat := if meth = 0 then 48 else 1 + 3 * width

/-- Method and width of a udCompHdr, none when R352 does not support them. -/
def compHdr (b : Nat) : Option (Nat × Nat) :=
  let w := if b / 16 = 0 then 16 else b / 16
  if b % 16 = 0 then (if w = 16 then some (0, 16) else none)
  else if b % 16 = 1 then (if [8, 9, 10, 12, 14, 16].contains w then some (1, w) else none)
  else none

/-- The sections of a U-plane frame from `pos` to `stop`; none when they are malformed. `fuel` bounds them at 8 (R352). -/
def uSections (d : Bytes) (prbs : Nat) (hdr : Bool) (meth width : Nat) : Nat → Nat → Nat → Option (List USection)
  | 0, pos, stop => if pos = stop then some [] else none
  | fuel + 1, pos, stop =>
    if pos = stop then some []
    else
      let w := fldBe d pos 4
      let num := if bits w 0 8 = 0 then prbs else bits w 0 8
      let comp := if hdr then compHdr (fldBe d (pos + 4) 1) else some (meth, width)
      match comp with
      | none => none
      | some (m, k) =>
        let off := pos + (if hdr then 6 else 4)
        let fin := off + num * prbBytes m k
        if stop < fin then none
        else (uSections d prbs hdr meth width fuel fin stop).map fun l =>
          { start := bits w 8 10, num := num, every := 1 + bits w 19 1, meth := m, width := k, off := off } :: l

/-- Step 1 of R354 for a frame of a flow of a carrier: its sections, none when the frame is malformed. -/
def ecpriCheck (d : Bytes) (o : Nat) (c : Carrier) (f : Flow) : Option (List USection) :=
  let b := fldBe d o 1
  let stop := o + 4 + fldBe d (o + 2) 2
  let (_, sub, slot, sym) := ecpriTime d o
  if b / 16 ≠ 1 ∨ b % 2 = 1 ∨ d.length < stop ∨ stop < o + 12 ∨ 9 < sub ∨ 2 ^ c.mu ≤ slot ∨ 14 ≤ sym then none
  else if f.cplane then (if stop < o + 14 ∨ 8 < fldBe d (o + 12) 1 then none else some [])
  else uSections d c.prbs f.compHdr f.meth f.width 8 (o + 12) stop

/-! ## Compression (R359, R360) -/

/-- A value saturated to `w` bits signed. -/
def saturate (w : Nat) (v : Int) : Int := max (-(2 ^ (w - 1) : Nat)) (min v ((2 ^ (w - 1) : Nat) - 1))

/-- Nearest integer to `v / 2^e`, ties away from zero. -/
def roundShift (v : Int) (e : Nat) : Int :=
  let q : Int := ((2 * v.natAbs + 2 ^ e) / (2 * 2 ^ e) : Nat)
  if v < 0 then -q else q

/-- The 12 samples of a PRB. -/
def readPrb (d : Bytes) (off meth width : Nat) : List (Int × Int) :=
  if meth = 0 then (List.range 12).map fun i => (signed 16 (fldBe d (off + 4 * i) 2), signed 16 (fldBe d (off + 4 * i + 2) 2))
  else
    let e := fldBe d off 1 % 16
    let m (i : Nat) : Int := saturate 16 (signed width (netField d (8 * (off + 1) + i * width) width) * (2 ^ e : Nat))
    (List.range 12).map fun i => (m (2 * i), m (2 * i + 1))

/-- Every component, rounded by `e`, fits in `w` bits signed. -/
def fitsAt (w e : Nat) (l : List Int) : Bool := l.all fun x => decide (saturate w (roundShift x e) = roundShift x e)

/-- The bytes of a PRB of 12 samples under a method and width. -/
def writePrb (meth width : Nat) (l : List (Int × Int)) : Bytes :=
  let xs := (l.map fun x => [x.1, x.2]).flatten
  if meth = 0 then (xs.map fun x => toBe 2 (unsigned 16 (saturate 16 x))).flatten
  else
    let e := ((List.range 16).find? fun e => fitsAt width e xs).getD 15
    let v := xs.foldl (fun a x => a * 2 ^ width + unsigned width (saturate width (roundShift x e))) 0
    toBe 1 e ++ toBe (3 * width) v

/-! ## Flows (R353, R356) -/

/-- A flow record. -/
def flowAt (s : State) (n : Nat) : Flow := Store.get {} n s.fh.flows

/-- Change a flow's counters. -/
def updFlowCnt (n : Nat) (g : FlowCnt → FlowCnt) (s : State) : State := { s with fh := { s.fh with cnt := Store.upd {} n g s.fh.cnt } }

/-- The enabled flow of a port, eAxC ID, plane and direction. -/
def flowFor (s : State) (port eaxc : Nat) (cplane tx : Bool) : Option (Nat × Flow) :=
  s.fh.flows.find? fun (x : Nat × Flow) => x.2.enable && x.2.port == port && x.2.eaxc == eaxc && x.2.cplane == cplane && x.2.tx == tx

/-- The carrier runs: enabled and not suspended. -/
def carrierRuns (s : State) (c : Nat) : Bool := (carrierAt s c).enable && !suspended s c

/-- The verdict of an offset in 2^-16 ns (R356). -/
def verdictOf (f : Flow) (off : Int) : Nat := if off < f.winA * 65536 then 0 else if off ≤ f.winB * 65536 then 1 else 2

/-- Feed a flow's monitor, when that monitor takes fronthaul arrivals (R353, R449). -/
def feedFlow (f : Flow) (off : Int) (s : State) : State :=
  if f.monitor < 255 ∧ (Store.get ({} : Monitor) f.monitor s.monitors).kind = 1 then feedMon f.monitor off s else s

/-- A received eCPRI frame meets the fronthaul unit (R354 to R357): it passes, with a verdict when a flow matched it, or was freed. -/
def fhReceive (p : Packet) (s : State) : Option Packet × State :=
  match p.port, ecpriKind p.bytes with
  | some port, some (o, eaxc, cp) =>
    match flowFor s port eaxc cp false with
    | none => (some p, s)
    | some (n, f) =>
      let c := carrierAt s f.carrier
      if pktPoisoned s p then (none, dropPkt p (poisonConsumed 1 (count (cOwnerPoison (ownPort port)) s)))
      else if (ecpriCheck p.bytes o c f).isNone then (none, dropPkt p (count (cPort port 13) s))
      else if !carrierRuns s f.carrier then (none, dropPkt p (count (cCarrier f.carrier) s))
      else
        let (fr, sub, slot, sym) := ecpriTime p.bytes o
        let (g, t) := nearestInstance c p.ts fr sub slot sym
        if f.dirCheck && symDir c g sub slot sym != 2 then (none, dropPkt p (updFlowCnt n (fun k => { k with dirMis := k.dirMis + 1 }) s))
        else
          let off := (p.ts : Int) - t
          let v := verdictOf f off
          let s := feedFlow f (off / 65536) (updFlowCnt n (fun k => { k with
            early := k.early + b2n (v == 0), onTime := k.onTime + b2n (v == 1), late := k.late + b2n (v == 2), lastOff := off / 65536 }) s)
          if (v = 0 ∧ f.earlyDrop) ∨ (v = 2 ∧ f.lateDrop) then (none, dropPkt p s)
          else (some { p with verdict := some { flow := n, kind := v, tSym := t.toNat, cplane := cp } }, s)
  | _, _ => (some p, s)

/-! ## Launch (R358) -/

/-- A packet joins a network egress queue: the fronthaul unit takes the eCPRI frames of an enabled transmit flow of its port, then
the queue admits it (R260, R358). -/
def joinNet (q : Nat) (p : Packet) (s : State) : State :=
  match portOfQueue (bankFor s p.epoch) q, (if erroredPkt p then none else ecpriKind p.bytes) with
  | some port, some (o, eaxc, cp) =>
    match flowFor s port eaxc cp true with
    | none => enqueueNet q p s
    | some (n, f) =>
      let c := carrierAt s f.carrier
      if pktPoisoned s p then dropPkt p (poisonConsumed 1 (count (cOwnerPoison (((p.buf.bind (bufAt s)).map (·.owner)).getD ownFh)) s))
      else if (ecpriCheck p.bytes o c f).isNone then endPkt p qMalformed 0x70 none (count (cPort port 13) s)
      else if !carrierRuns s f.carrier then endPkt p qLate 1 none (count (cCarrier f.carrier) s)
      else
        let (fr, sub, slot, sym) := ecpriTime p.bytes o
        let nq := f.queue % 16384
        let s := if (netRec (bankFor s p.epoch) nq).timed then s else updFlowCnt n (fun k => { k with notTimed := k.notTimed + 1 }) s
        let t := nextInstance c s.time.t fr sub slot sym
        let p := if p.fromDesc then p else { p with launch := some (t / 65536 - f.winA).toNat }
        enqueueNet nq p s
  | _, _ => enqueueNet q p s

/-! ## Carriers (R350, R351, R355) -/

/-- A carrier record from its bytes. -/
def readCarrier (b : Bytes) : Carrier :=
  { mu := fld b 1 1, prbs := fld b 2 2, enable := bit (fld b 6 1) 0, runUnlocked := bit (fld b 6 1) 1, gridOffset := signed 64 (fld b 8 8),
    dirs := (List.range (fld b 4 2)).map fun k => fld b (16 + 4 * k) 4 % 2 ^ 28 }

/-- A carrier record is refused (R350). -/
def carrierBad (b : Bytes) : Bool :=
  let c := readCarrier b
  let n := c.dirs.length
  decide (31 < fld b 0 1) || decide (3 < c.mu) || c.prbs == 0 || decide (275 < c.prbs) || n == 0 || decide (160 < n) || decide (20 * 2 ^ c.mu % n ≠ 0) ||
  c.dirs.any fun d => (List.range 14).any fun l => bits d (2 * l) 2 == 3

/-- PRBS of the enabled carriers with one record replaced; a record that waits counts in place of the one it replaces. -/
def prbsTotal (s : State) (n : Nat) (c : Carrier) : Nat :=
  ((List.range 32).map fun k =>
    let r := if k = n then c else
      let w := Store.get ({} : PendCarrier) k s.fh.pending
      if w.effAt = 0 then carrierAt s k else w.record
    if r.enable then r.prbs else 0).sum

/-- The instant a record takes effect (R351): the first boundary of the old pattern period at least 1 ms ahead; of the new one for a
carrier that is being enabled, or that had no pattern. -/
def effectiveAt (s : State) (n : Nat) (c : Carrier) : Nat :=
  let old := carrierAt s n
  let k := if (!old.enable && c.enable) || old.dirs.isEmpty then c else old
  (boundaryFrom k k.dirs.length (s.time.t + 1000000 * 65536)).toNat

/-- Accept a carrier record: the failure, or the state in which it waits (R350, R351). -/
def setCarrier (ref : Option CmdRef) (b : Bytes) (s : State) : Except Answer State :=
  let n := fld b 0 1
  let c := readCarrier b
  if carrierBad b then .error (err stBadLength 0)
  else if 3300 < prbsTotal s n c then .error (err stNoResource 0)
  else if (Store.get ({} : PendCarrier) n s.fh.pending).effAt ≠ 0 then .error (err stBusy 0)
  else .ok { s with fh := { s.fh with pending := Store.set {} n { ref := ref, record := c, effAt := effectiveAt s n c } s.fh.pending } }

/-- What the shared checks need to know of FH_CARRIER_SET, opcode 0x0D01. -/
def infoFhCarrierSet : OpInfo :=
  { code := 0x0D01, len := fun c => decide (16 ≤ c.payloadLen) && c.payloadLen == 16 + 4 * arg c 4 2, priv := true, gated := true }

/-- FH_CARRIER_SET (R350, R351): the reply comes when the record takes effect. -/
def execFhCarrierSet (c : Cmd) (s : State) : Host.Outcome State Fault Refusal :=
  done (runCommand infoFhCarrierSet
    (fun r _ c s =>
      match setCarrier (some r) c.payload s with
      | .error a => (s, some a)
      | .ok s => (s, none)) c s)

/-- Armed weight switches of a carrier whose record changes before S are computed again on the new pattern (R369). -/
def rearmSwitches (carrier : Nat) (s : State) : State :=
  let g (x : CombSet) : CombSet :=
    if x.carrier = carrier ∧ x.armed.isSome ∧ s.time.t ≤ x.switchAt then
      { x with switchAt := (boundaryFrom (carrierAt s carrier) 1 (max x.armedAt s.time.t)).toNat }
    else x
  { s with comb := { s.comb with sets := (s.comb.sets.map (·.1)).foldl (fun st n => Store.upd {} n g st) s.comb.sets } }

/-- The gate of the time and fronthaul unit follows the carriers (R34, R355, R408): with none enabled it closes, and the first that is
enabled wakes the unit. -/
def timeGate (s : State) : State :=
  let on := (List.range 32).any fun k => (carrierAt s k).enable
  if !on then { s with power := { s.power with timeCg := true } }
  else if s.power.timeCg then startWake wkTime 0 true s else s

/-- CARRIER_RECORD_EFFECTIVE (R351, R355): a carrier that may not run while UNLOCKED is suspended at once; one that is disabled or may
run is not. -/
def execCarrierRecordEffective (carrier : Nat) (s : State) : Host.Outcome State Fault Refusal :=
  done (
    let w := Store.get ({} : PendCarrier) carrier s.fh.pending
    if w.effAt = 0 ∨ !timeRuns s then s
    else
      let s := advanceTo w.effAt s
      let old : PendCarrier := { record := carrierAt s carrier, effAt := w.effAt }
      let s := { s with fh := { s.fh with
        pending := Store.set {} carrier {} s.fh.pending
        carriers := Store.set {} carrier w.record s.fh.carriers
        olds := Store.set {} carrier old s.fh.olds } }
      let s := rearmSwitches carrier s
      let s := if w.record.enable && !w.record.runUnlocked then s else { s with fh := { s.fh with suspended := Store.set false carrier false s.fh.suspended } }
      let s := timeGate (suspendAll s)
      match w.ref with
      | some r => replyIfRunning r (ok (w.effAt / 65536) 0) s
      | none => s)

/-- CARRIER_RESUME (R355): at the first slot boundary after UNLOCKED has cleared. -/
def execCarrierResume (carrier : Nat) (s : State) : Host.Outcome State Fault Refusal :=
  done (if suspended s carrier && !unlocked s && timeRuns s then
      let s := advanceTo (boundaryFrom (carrierAt s carrier) 1 s.time.t).toNat s
      raise (992 + carrier) 0 { s with fh := { s.fh with suspended := Store.set false carrier false s.fh.suspended } }
    else s)

/-! ## Class 0x0D (R361) -/

/-- A flow record from its bytes. -/
def readFlow (b : Bytes) : Flow :=
  let f := fld b 4 1
  { eaxc := fld b 0 2, port := fld b 2 1, carrier := fld b 3 1, enable := bit f 0, tx := bit f 1, cplane := bit f 2, earlyDrop := bit f 3,
    lateDrop := bit f 4, dirCheck := bit f 5, compHdr := bit f 6, meth := fld b 5 1, width := fld b 6 1, monitor := fld b 7 1,
    queue := fld b 8 2, winA := signed 32 (fld b 12 4), winB := signed 32 (fld b 16 4) }

/-- Method and width of a record are supported (R353, R363). -/
def compOk (meth width : Nat) : Bool := (meth == 0 && width == 16) || (meth == 1 && [8, 9, 10, 12, 14, 16].contains width)

/-- A flow record is refused for its own fields (R353, R204). -/
def flowBad (f : Flow) : Bool :=
  decide (15 < f.port) || decide (31 < f.carrier) || !compOk f.meth f.width || handleBad f.queue || (f.tx && f.queue / 16384 != 1) ||
  (!f.tx && decide (f.winB < f.winA))

/-- Two enabled flows clash (R353). -/
def flowClash (a b : Flow) : Bool :=
  a.enable && b.enable && a.port == b.port && a.eaxc == b.eaxc && a.cplane == b.cplane && a.tx == b.tx

/-- Write flow records from `first`: the index of the first refused, or the state. -/
def writeFlows : Writer := fun t first l s =>
  let recs := l.map readFlow
  let kept := s.fh.flows.filter fun x => decide (x.1 < first) || decide (first + l.length ≤ x.1)
  let bad (i : Nat) : Bool :=
    let f := recs.getD i {}
    flowBad f || (kept.any fun x => flowClash f x.2) || ((recs.take i).any (flowClash f))
  if t ≠ 0 ∨ 4096 < first + l.length then .error 0
  else match (List.range l.length).find? bad with
    | some i => .error i
    | none => .ok { s with fh := { s.fh with flows := Store.setMany {} first recs s.fh.flows } }

/-- What the shared checks need to know of FH_FLOW_SET, opcode 0x0D02. -/
def infoFhFlowSet : OpInfo := { code := 0x0D02, len := lenWrite 32, priv := true, gated := true }

/-- FH_FLOW_SET. -/
def execFhFlowSet (c : Cmd) (s : State) : Host.Outcome State Fault Refusal :=
  done (runCommand infoFhFlowSet
    (answer fun _ c s =>
      let n := arg c 8 4
      let l := records 32 n (c.payload.drop 16)
      match writeFlows (arg c 0 2) (arg c 4 4) l s with
      | .error i => (s, err stBadLength i)
      | .ok s' => if l.any fun b => decide (laneCount s ≤ (readFlow b).port) then (s, err stNoUnit 4) else (s', ok n 0)) c s)

/-- The 64-byte record of a flow's counters (R361). -/
def flowCntBytes (k : FlowCnt) : Bytes :=
  toLe 8 k.onTime ++ toLe 8 k.early ++ toLe 8 k.late ++ toLe 8 k.dirMis ++ toLe 8 k.lateComb ++ toLe 8 k.notTimed ++ toLe 8 (unsigned 64 k.lastOff) ++ zeros 8

/-- What the shared checks need to know of FH_FLOW_STATUS, opcode 0x0D03. -/
def infoFhFlowStatus : OpInfo := { code := 0x0D03, len := lenIs 16, modes := modesRead, outOff := some 8 }

/-- FH_FLOW_STATUS; CLEAR zeroes the counters and leaves the last offset. -/
def execFhFlowStatus (c : Cmd) (s : State) : Host.Outcome State Fault Refusal :=
  done (runCommand infoFhFlowStatus
    (answer fun _ c s =>
      let f := arg c 0 4
      let n := arg c 4 2
      if n = 0 ∨ 4096 < n ∨ 4096 < f + n then (s, err stBadLength 0)
      else
        let out := ((Store.run {} f n s.fh.cnt).map flowCntBytes).flatten
        let s := if bit (arg c 6 1) 0 then
            (List.range n).foldl (fun t i => if (Store.get ({} : FlowCnt) (f + i) t.fh.cnt) = {} then t
              else updFlowCnt (f + i) (fun k => { lastOff := k.lastOff }) t) s
          else s
        (s, okOut n 0 (arg c 8 8) out)) c s)

/-- What the shared checks need to know of FH_GRID_QUERY, opcode 0x0D04. -/
def infoFhGridQuery : OpInfo := { code := 0x0D04, len := lenIs 16, modes := modesRead }

/-- FH_GRID_QUERY. -/
def execFhGridQuery (c : Cmd) (s : State) : Host.Outcome State Fault Refusal :=
  done (runCommand infoFhGridQuery
    (readBody fun _ c s =>
      let n := arg c 0 8
      let k := carrierAt s n
      if 31 < n ∨ !k.enable then err stBadLength 0
      else
        let t : Int := (arg c 8 8 * 65536 : Nat)
        let (f, d, sl) := slotParts k (slotAtTime k t)
        let sym := ((List.range 14).filter fun i => decide (symStart k f d sl i ≤ t)).getLastD 0
        ok (unsigned 64 (symStart k f d sl sym / 65536))
          ((f % 256).toNat + 2 ^ 8 * d + 2 ^ 12 * sl + 2 ^ 16 * sym + 2 ^ 20 * symDir k f d sl sym + 2 ^ 22 * b2n (suspended s n))) c s)

end Sys2Proof.Machine
end

