-- ==== Sys2Proof/Machine/Combiner.lean ====
section
/-! DEFINITION. The antenna Combiner (R362 to R382): sets and flows, weight banks and their switch, uplink and downlink symbols, lane
groups, and the opcodes of class 0x0E (R383). -/

namespace Sys2Proof.Machine

open Sys2Proof

/-! ## Sets and flows (R362, R363) -/

/-- A set's record. -/
def combSet (s : State) (n : Nat) : CombSet := Store.get {} n s.comb.sets

/-- Change a set's record. -/
def updSet (n : Nat) (g : CombSet → CombSet) (s : State) : State := { s with comb := { s.comb with sets := Store.upd {} n g s.comb.sets } }

/-- A combiner flow. -/
def cflowAt (s : State) (n : Nat) : Cflow := Store.get {} n s.comb.cflows

/-- Add to counter `i` of a set, in the order of COMB_STATUS. -/
def combCount (set i k : Nat) (s : State) : State :=
  { s with comb := { s.comb with cnts := Store.upd {} set (fun c => { c with cnt := Store.upd 0 i (fun v => (v + k) % 2 ^ 64) c.cnt }) s.comb.cnts } }

/-- Outputs of a set: layers in the uplink, antennas in the downlink (R367). -/
def combOut (x : CombSet) : Nat := if x.dir = 0 then x.layers else x.antennas
/-- Inputs of a set. -/
def combIn (x : CombSet) : Nat := if x.dir = 0 then x.antennas else x.layers
/-- PRB groups of a set (R362). -/
def combNg (x : CombSet) : Nat := (x.numPrb + x.prbGroup - 1) / x.prbGroup
/-- Bytes of a weight bank (R367). -/
def bankBytes (x : CombSet) : Nat := 16 + 16 * ((combOut x + 15) / 16) + combNg x * x.layers * x.antennas * 4
/-- MACs of one symbol (R379). -/
def combWork (x : CombSet) : Nat := x.antennas * x.layers * x.numPrb * 12
/-- A set's demand in MACs per second (R380). -/
def combDemand (s : State) (x : CombSet) : Nat := combWork x * 14000 * 2 ^ (carrierAt s x.carrier).mu
/-- Lane groups a symbol of a set needs (R381). -/
def combGroups (s : State) (x : CombSet) : Nat := (combDemand s x + 319999999999) / 320000000000
/-- Accumulators of a set (R380). -/
def combAccs (x : CombSet) : Nat := if x.dir = 0 then x.layers * x.numPrb * 12 * x.contexts else 0
/-- Cost of one symbol of a set in fJ (R415). -/
def symbolFj (s : State) (x : CombSet) : Nat := combWork x * s.power.cost.macFj
/-- Close of an uplink symbol in 2^-16 ns (R372). -/
def closeInstant (x : CombSet) (tSym : Nat) : Nat := tSym + (x.closeNs + 2000) * 65536

/-- The places of a set's banks and accumulators in the ECC words of memory 0x07 or 0x09, as the model numbers them (DESIGN CHOICE, unsafe: log 21). -/
def combMem (set half : Nat) : Nat := 4294967296 * (set + 64) + 1073741824 * half

/-- The memory that holds a set's banks (R370, R426). -/
def weightMem (x : CombSet) : Nat := if x.inClay then 9 else 7

/-- Enabled sets. -/
def setsOn (s : State) : List (Nat × CombSet) := s.comb.sets.filter fun (p : Nat × CombSet) => p.2.enable

/-- The bank that a symbol whose slot starts at an instant uses (R369). -/
def bankOfSlot (x : CombSet) (slotAt : Nat) : Option WBank :=
  if x.armed.isSome ∧ x.switchAt ≤ slotAt then x.spare else if x.lastS ≤ slotAt then x.bank else x.oldBank

/-! ## Symbols that the slot tables plan (R381, R416) -/

/-- A symbol is marked in a set's direction. -/
def markedFor (k : Carrier) (x : CombSet) (f : Int) (d sl l : Nat) : Bool := symDir k f d sl l == (if x.dir = 0 then 2 else 1)

/-- Starts of the symbols in the set's direction that start from `lo` up to but not at `hi`, in 2^-16 ns. `n` bounds the slots looked at. -/
def markedFrom (k : Carrier) (x : CombSet) (lo hi : Int) : Nat → Int → List Int
  | 0, _ => []
  | n + 1, a =>
    let (f, d, sl) := slotParts k a
    let l := ((List.range 14).filter fun i => markedFor k x f d sl i).map fun i => symStart k f d sl i
    (l.filter fun t => decide (lo ≤ t) && decide (t < hi)) ++ (if hi ≤ slotStart k (a + 1) then [] else markedFrom k x lo hi n (a + 1))

/-- The symbols of a set that its running carrier marks within a span. -/
def marked (s : State) (x : CombSet) (lo hi : Int) : List Int :=
  let k := carrierAt s x.carrier
  if !x.enable || !carrierRuns s x.carrier || k.dirs.isEmpty then [] else markedFrom k x lo hi 256 (slotAtTime k lo)

/-- Cost of every planned symbol of the interval that starts at an instant in ns (R416). -/
def plannedFj (s : State) (ns : Nat) : Nat :=
  ((setsOn s).map fun p => (marked s p.2 (ns * 65536 : Nat) ((ns + 500000) * 65536 : Nat)).length * calCost s (symbolFj s p.2)).sum

/-- A symbol was booked at the start of the interval its T_sym falls in: its set was enabled then, and the pattern marks it. -/
def plannedSym (s : State) (x : CombSet) (tSym : Nat) : Bool :=
  decide (x.enabledAt ≤ tSym / (500000 * 65536) * (500000 * 65536)) && (marked s x tSym (tSym + 1)).length == 1

/-- The least WIN_A of the receive flows that feed a set's carrier, in ns. -/
def leastWinA (s : State) (x : CombSet) : Int :=
  match s.fh.flows.filter fun (p : Nat × Flow) => p.2.enable && !p.2.tx && p.2.carrier == x.carrier with
  | [] => 0
  | p :: r => r.foldl (fun m q => min m q.2.winA) p.2.winA

/-- When work on a symbol begins (R420). -/
def workStart (s : State) (x : CombSet) (t : Int) : Int := if x.dir = 0 then t + leastWinA s x * 65536 else t - (x.dlLead * 65536 : Nat)

/-- When the slot tables count a symbol as over. -/
def workStop (x : CombSet) (t : Int) : Int := if x.dir = 0 then t + ((x.closeNs + 2000) * 65536 : Nat) else t

/-- Lane groups that the symbols in work, or due within LEAD_US, need (R381, R420). -/
def groupsDue (s : State) : Nat :=
  let now : Int := s.time.t
  let lead : Int := (s.power.policy.leadUs * 1000 * 65536 : Nat)
  let span : Int := (3200000 * 65536 : Nat)
  min 16 (((setsOn s).map fun p =>
    if (marked s p.2 (now - span) (now + span)).any fun t => decide (workStart s p.2 t - lead ≤ now) && decide (now < workStop p.2 t)
    then combGroups s p.2 else 0).sum)

/-- Lane groups awake. -/
def groupsAwake (s : State) : Nat := popcount s.comb.awake.toNat 16

/-- Wake the lowest-numbered gated groups until `n` are awake or waking (R381, R409). -/
def wakeGroups (n : Nat) (s : State) : State :=
  let asleep := (List.range 16).filter fun g => !s.comb.awake.getLsbD g && !(s.power.waking.any fun (w : Nat × Nat × Nat) => w.1 == wkComb && w.2.1 == g)
  (asleep.take (n - (16 - asleep.length))).foldl (fun t g => startWake wkComb g true t) s

/-! ## Input (R364, R371, R376) -/

/-- An open or closing symbol of a set. -/
def symOf (s : State) (set tSym : Nat) : Option SymCtx := s.comb.syms.find? fun (c : SymCtx) => c.set == set && c.tSym == tSym

/-- Change one symbol. -/
def updSym (set tSym : Nat) (g : SymCtx → SymCtx) (s : State) : State :=
  { s with comb := { s.comb with syms := mapWhere (fun (c : SymCtx) => c.set == set && c.tSym == tSym) g s.comb.syms } }

/-- A symbol has ended: a frame that names it later finds it closed. Entries more than 2 s old are dropped. -/
def noteEnded (set tSym : Nat) (s : State) : State :=
  { s with comb := { s.comb with ended := (set, tSym) :: s.comb.ended.filter fun (e : Nat × Nat) => decide (s.time.t ≤ e.2 + 2000000000 * 65536) } }

/-- PRBs of the set's range that an input has supplied to a symbol. -/
def gotOf (c : SymCtx) (i : Nat) : Nat := (c.got.filter fun (g : Nat × Nat × List (Int × Int)) => g.1 == i).length

/-- Every layer of a downlink symbol has supplied every PRB. -/
def dlComplete (x : CombSet) (c : SymCtx) : Bool := (List.range x.layers).all fun l => gotOf c l == x.numPrb

/-- The symbol is already closed (R364, R372, R376). -/
def symClosed (s : State) (x : CombSet) (set tSym : Nat) : Bool :=
  (s.comb.ended.contains (set, tSym)) ||
  (match symOf s set tSym with
   | some c => c.closed || (x.dir == 1 && dlComplete x c)
   | none => false) ||
  (if x.dir = 0 then decide (closeInstant x tSym ≤ s.time.t) else decide (tSym ≤ s.time.t + x.dlLead * 65536))

/-- The PRBs of the sections of a frame: index and samples. -/
def framePrbs (d : Bytes) (l : List USection) : List (Nat × List (Int × Int)) :=
  (l.map fun u => (List.range u.num).map fun i => (u.start + i * u.every, readPrb d (u.off + i * prbBytes u.meth u.width) u.meth u.width)).flatten

/-- Give a symbol one PRB: outside the range, a repeat, or new. -/
def takePrb (set tSym : Nat) (x : CombSet) (i : Nat) (v : Nat × List (Int × Int)) (s : State) : State :=
  if v.1 < x.startPrb ∨ x.startPrb + x.numPrb ≤ v.1 then combCount set 5 1 s
  else match symOf s set tSym with
    | none => s
    | some c =>
      if c.got.any fun (g : Nat × Nat × List (Int × Int)) => g.1 == i && g.2.1 == v.1 then combCount set 6 1 s
      else updSym set tSym (fun c => { c with got := c.got ++ [(i, v.1, v.2)] }) s

/-- What a frame names: T_sym, the start of its slot, and its time fields. -/
def frameSym (k : Carrier) (tSym : Nat) (w : Nat × Nat × Nat × Nat) : SymCtx :=
  { tSym := tSym, slotAt := ((tSym : Int) - (symStart k 0 w.2.1 w.2.2.1 w.2.2.2 - symStart k 0 w.2.1 w.2.2.1 0)).toNat,
    frame := w.1, sub := w.2.1, slot := w.2.2.1, sym := w.2.2.2, mu := k.mu }

/-- Open a symbol's context: its accumulators are written afresh, and its work is admitted (R371, R416). -/
def openSym (set : Nat) (x : CombSet) (c : SymCtx) (s : State) : State :=
  let s := clearPoison 7 (combMem set 2) 1073741824 s
  let s := wakeGroups (combGroups s x) s
  let (_, s) := admitJob 2 (symbolFj s x) (plannedSym s x c.tSym) s
  { s with comb := { s.comb with syms := s.comb.syms ++ [{ c with set := set }] } }

/-- No new symbol of a set opens: the set is being disabled, and the boundary has come (R382). -/
def noOpening (s : State) (x : CombSet) : Bool := x.disabling.isSome && decide (x.stopAt ≤ s.time.t)

/-- Take the samples of a frame for input `i` of a set: `c` names its symbol (R364, R371). -/
def takeSamples (set i : Nat) (x : CombSet) (c : SymCtx) (l : List USection) (p : Packet) (s : State) : State :=
  if (bankOfSlot x c.slotAt).isNone || ((symOf s set c.tSym).isNone && noOpening s x) then dropPkt p (combCount set 1 1 s)
  else if symClosed s x set c.tSym then dropPkt p (combCount set 4 1 s)
  else
    let fresh := (symOf s set c.tSym).isNone
    let busy := (s.comb.syms.filter fun (y : SymCtx) => y.set == set && !y.closed).length
    if fresh && (suspended s x.carrier || (x.dir == 0 && decide (x.contexts ≤ busy))) then dropPkt p (combCount set 7 1 s)
    else
      let s := if fresh then openSym set x c s else s
      let (q, s) := leaveEpoch p s
      let s := updSym set c.tSym (fun y => { y with claims := y.claims ++ [q] }) s
      (framePrbs p.bytes l).foldl (fun t v => takePrb set c.tSym x i v t) s

/-- The carrier record for a downlink frame: the one in effect, or the one that waits when the frame's symbol starts at or after its instant
(R376, R382). -/
def dlCarrier (s : State) (c : Nat) (d : Bytes) : Carrier :=
  let k := carrierAt s c
  match ecpriAt d with
  | none => k
  | some o =>
    let t := ecpriTime d o
    carrierFrom s c (nextInstance k s.time.t t.1 t.2.1 t.2.2.1 0)

/-- A TO_COMBINER word hands a packet to the Combiner, which takes it or frees it (R364). -/
def combTake (cf : Nat) (p : Packet) (s : State) : State :=
  let w := cflowAt s cf
  let set := w.set
  let x := combSet s set
  let bad (i : Nat) : State := dropPkt p (combCount set i 1 s)
  let lim := if w.role = 1 then x.antennas else x.layers
  if (w.role ≠ 1 ∧ w.role ≠ 2) ∨ lim ≤ w.index then bad 0
  else if !x.enable || (x.bank.isNone && x.armed.isNone && x.oldBank.isNone) then bad 1
  else if w.role = 1 then
    match p.verdict with
    | none => bad 0
    | some v =>
      if v.cplane then bad 0
      else if v.kind = 2 then dropPkt p (updFlowCnt v.flow (fun k => { k with lateComb := k.lateComb + 1 }) s)
      else
        let f := flowAt s v.flow
        let k := carrierFrom s f.carrier (v.tSym : Nat)
        match (ecpriKind p.bytes).bind fun e => (ecpriCheck p.bytes e.1 k f).map fun l => (e.1, l) with
        | none => bad 2
        | some (o, l) => takeSamples set w.index x (frameSym k v.tSym (ecpriTime p.bytes o)) l p s
  else
    let k := dlCarrier s x.carrier p.bytes
    let f : Flow := { compHdr := w.compHdr, meth := w.meth, width := w.width }
    match (match ecpriKind p.bytes with
      | some (o, _, false) => (ecpriCheck p.bytes o k f).map fun l => (o, l)
      | _ => none) with
    | none => bad 2
    | some (o, l) =>
      let t := ecpriTime p.bytes o
      let tSym := nextInstance k s.time.t t.1 t.2.1 t.2.2.1 t.2.2.2
      if !carrierRuns s x.carrier || symDir k (frameOf k tSym) t.2.1 t.2.2.1 t.2.2.2 != 1 then bad 3
      else takeSamples set w.index x (frameSym k tSym.toNat t) l p s

/-! ## Arithmetic (R365, R366) -/

/-- The exact product of a weight and a sample. -/
def cmul (w x : Int × Int) : Int × Int := (w.1 * x.1 - w.2 * x.2, w.1 * x.2 + w.2 * x.1)

/-- A 40-bit accumulator (R365). -/
def acc40 (v : Int) : Int := signed 40 (unsigned 40 v)

/-- Index of a weight (R367). -/
def weightIx (x : CombSet) (g o i : Nat) : Nat :=
  if x.dir = 0 then (g * x.layers + o) * x.antennas + i else (g * x.antennas + o) * x.layers + i

/-- The accumulator of output `o` at resource element `k` of PRB `prb`: absent inputs contribute 0. -/
def combAcc (x : CombSet) (b : WBank) (c : SymCtx) (o prb k : Nat) : Int × Int :=
  let g := (prb - x.startPrb) / x.prbGroup
  let sum := (c.got.filter fun (y : Nat × Nat × List (Int × Int)) => y.2.1 == prb).foldl
    (fun (a : Int × Int) (y : Nat × Nat × List (Int × Int)) =>
      let m := cmul (b.weights.getD (weightIx x g o y.1) (0, 0)) (y.2.2.getD k (0, 0))
      (a.1 + m.1, a.2 + m.2)) (0, 0)
  (acc40 sum.1, acc40 sum.2)

/-- An output part before saturation, under the output's SHIFT (R366). -/
def combPart (b : WBank) (o : Nat) (v : Int) : Int := roundShift v (b.shifts.getD o 0)

/-- The samples of one output over a run of PRBs, and how many parts saturated. -/
def combRow (x : CombSet) (b : WBank) (c : SymCtx) (o first n : Nat) : List (List (Int × Int)) × Nat :=
  let raw := (List.range n).map fun j => (List.range 12).map fun k =>
    let a := combAcc x b c o (first + j) k
    (combPart b o a.1, combPart b o a.2)
  let sat (v : Int) : Nat := b2n (saturate 16 v != v)
  (raw.map fun l => l.map fun v => (saturate 16 v.1, saturate 16 v.2), ((raw.flatten).map fun v => sat v.1 + sat v.2).sum)

/-- A weight the symbol reads, or one of its accumulators, is poisoned (R430). -/
def symPoisoned (s : State) (x : CombSet) (set : Nat) (b : WBank) : Option Nat :=
  if poisonedIn s 7 (combMem set 2) 1073741824 then some 7
  else if poisonedIn s (weightMem x) (combMem set b.half) 1073741824 then some (weightMem x) else none

/-- Release a symbol's claims (R372, R376). -/
def releaseClaims (c : SymCtx) (s : State) : State := c.claims.foldl (fun t p => dropPkt p t) s

/-- A symbol is gone. -/
def removeSym (set tSym : Nat) (s : State) : State :=
  { s with comb := { s.comb with syms := s.comb.syms.filter fun (c : SymCtx) => !(c.set == set && c.tSym == tSym) } }

/-- The first symbol of a set, in order of T_sym, that `ok` holds of. -/
def firstSym (s : State) (set : Nat) (ok : SymCtx → Bool) : Option SymCtx :=
  (s.comb.syms.filter fun (c : SymCtx) => c.set == set && ok c).foldl (fun (b : Option SymCtx) (c : SymCtx) =>
    match b with
    | some d => if c.tSym < d.tSym then some c else b
    | none => some c) none

/-- The Combiner works: present, its time running, in service. -/
def combRuns (s : State) : Bool := hasCombiner s && timeRuns s && inService s

/-! ## Uplink (R372 to R375) -/

/-- Antennas that have not supplied every PRB (R373). -/
def missingOf (x : CombSet) (c : SymCtx) : List Nat := (List.range x.antennas).filter fun a => decide (gotOf c a < x.numPrb)

/-- UPLINK_SYMBOL_CLOSE (R372, R373): the next open uplink symbol of a set closes at T_sym + CLOSE_NS + 2,000 ns. -/
def execUplinkSymbolClose (set : Nat) (s : State) : Host.Outcome State Fault Refusal :=
  done (
    let x := combSet s set
    match if combRuns s && x.dir == 0 then firstSym s set (fun c => !c.closed) else none with
    | none => s
    | some c =>
      let at_ := closeInstant x c.tSym
      let s := advanceTo at_ s
      let m := (missingOf x c).length
      let s := noteEnded set c.tSym (combCount set 8 m s)
      let s := if m = 0 then s else raise (1056 + set) 0 (combCount set 9 1 s)
      let s := releaseClaims c s
      updSym set c.tSym (fun c => { c with closed := true, closeAt := at_, unlocked := unlocked s, claims := [] }) s)

/-- The output record of a layer (R374). -/
def uplinkRecord (set l : Nat) (x : CombSet) (b : WBank) (c : SymCtx) (behind : Bool) (rows : List (List (Int × Int))) (sat : Bool) : Bytes :=
  let miss := missingOf x c
  let mask := miss.foldl (fun a i => a + 2 ^ i) 0
  toLe 1 set ++ toLe 1 l ++ toLe 1 c.frame ++ toLe 1 (c.sub % 16 + 16 * c.slot) ++ toLe 1 c.sym ++ toLe 1 (b.shifts.getD l 0) ++
    toLe 2 miss.length ++ toLe 2 x.startPrb ++ toLe 2 x.numPrb ++ toLe 2 b.wepoch ++
    toLe 2 (b2n sat + 2 * b2n c.unlocked + 4 * b2n behind) ++ toLe 8 (c.tSym / 65536) ++ zeros 8 ++ toLe 64 mask ++ zeros 32 ++
    (rows.flatten.map fun v => toLe 2 (unsigned 16 v.1) ++ toLe 2 (unsigned 16 v.2)).flatten

/-- Write one layer's record and place it on its queue pair (R374, R375): without a buffer it is freed and NO_BUF counts (R254). -/
def writeLayer (set : Nat) (x : CombSet) (b : WBank) (c : SymCtx) (behind : Bool) (s : State) (l : Nat) : State :=
  let (rows, sat) := combRow x b c l x.startPrb x.numPrb
  let s := combCount set 10 sat s
  let s := if behind then raise (1024 + set) 0 (combCount set 13 1 s) else s
  let d := uplinkRecord set l x b c behind rows (sat != 0)
  let (n, s) := newPktNum s
  match allocBuf d.length ownComb n false s with
  | .error _ => count (cDev 37) s
  | .ok (k, s) =>
    rxDeliver { num := n, bytes := d, buf := some k, epoch := s.tables.epoch, ts := c.closeAt, tsUnlocked := c.unlocked, stamped := true, hash := l }
      (x.outQueue + l) s

/-- UPLINK_RECORD_WRITE (R374, R375, R379, R430): the arithmetic of the closed symbol with the lowest T_sym finishes. -/
def execUplinkRecordWrite (set : Nat) (s : State) : Host.Outcome State Fault Refusal :=
  done (
    let x := combSet s set
    match if combRuns s && x.dir == 0 then firstSym s set (·.closed) else none with
    | none => s
    | some c =>
      let s := removeSym set c.tSym s
      match bankOfSlot x c.slotAt with
      | none => s
      | some b =>
        match symPoisoned s x set b with
        | some m => poisonConsumed m (count (cOwnerPoison ownComb) s)
        | none =>
          let behind := decide (1000000000 * 65536 < (s.time.t - c.closeAt) * 14000 * 2 ^ c.mu)
          (List.range x.layers).foldl (writeLayer set x b c behind) s)

/-! ## Downlink (R376 to R378) -/

/-- The downlink antenna output of a set and antenna. -/
def dlFlow (s : State) (set a : Nat) : Option (Nat × Cflow) :=
  s.comb.cflows.find? fun (f : Nat × Cflow) => f.2.role == 3 && f.2.set == set && f.2.index == a

/-- Antennas whose frames are still to come. -/
def dlPending (s : State) (set : Nat) (x : CombSet) (c : SymCtx) : List Nat :=
  (List.range x.antennas).filter fun a => (dlFlow s set a).isSome && !c.doneAnt.contains a

/-- A combined downlink symbol whose antennas are all out has ended: its layer buffers are released (R376). -/
def endDl (set tSym : Nat) (x : CombSet) (s : State) : State :=
  match symOf s set tSym with
  | none => s
  | some c => if c.closed && (dlPending s set x c).isEmpty then releaseClaims c (removeSym set tSym s) else s

/-- DOWNLINK_COMBINE (R376): at once for a symbol whose layers are complete, else at T_sym - DL_LEAD of the next one. -/
def execDownlinkCombine (set : Nat) (s : State) : Host.Outcome State Fault Refusal :=
  done (
    let x := combSet s set
    if !combRuns s || x.dir != 1 then s
    else
      let full := firstSym s set (fun c => !c.closed && dlComplete x c)
      match (match full with
        | some c => some c
        | none => firstSym s set (fun c => !c.closed)) with
      | none => s
      | some c =>
        let s := if full.isSome then s else advanceTo (c.tSym - x.dlLead * 65536) s
        let s := combCount set 11 ((List.range x.layers).filter fun l => decide (gotOf c l < x.numPrb)).length s
        let s := noteEnded set c.tSym s
        match bankOfSlot x c.slotAt with
        | none => releaseClaims c (removeSym set c.tSym s)
        | some b =>
          match symPoisoned s x set b with
          | some m => releaseClaims c (removeSym set c.tSym (poisonConsumed m (count (cOwnerPoison ownComb) s)))
          | none =>
            let sat := ((List.range x.antennas).map fun a => (combRow x b c a x.startPrb x.numPrb).2).sum
            endDl set c.tSym x (updSym set c.tSym (fun c => { c with closed := true, closeAt := s.time.t }) (combCount set 10 sat s)))

/-- One downlink frame: its index within the symbol, first PRB, PRBs (R377). Numbers of PRBs above 255 have no code but 0 (PRESUMED, unsafe: log 15). -/
def dlFrame (f : Cflow) (t : Flow) (c : SymCtx) (seqId ix first n : Nat) (rows : List (List (Int × Int))) : Bytes :=
  let eth := f.dmac ++ f.smac ++ (if f.vlanEn then toBe 2 0x8100 ++ toBe 2 f.vlanTci else []) ++ toBe 2 0xAEFE
  let body := toBe 2 t.eaxc ++ toBe 1 seqId ++ toBe 1 0x80 ++
    toBe 1 0x90 ++ toBe 1 c.frame ++ toBe 2 (c.sub * 4096 + c.slot * 64 + c.sym) ++
    toBe 4 (ix * 2 ^ 20 + first % 1024 * 256 + (if n ≤ 255 then n else 0)) ++ (rows.map fun r => writePrb t.meth t.width r).flatten
  eth ++ toBe 1 0x10 ++ toBe 1 0 ++ toBe 2 body.length ++ body

/-- Send one frame of an antenna, or free it when T_sym has come (R377, R378). -/
def sendDl (set cf : Nat) (t : Flow) (c : SymCtx) (d : Bytes) (s : State) : State :=
  let s := { s with comb := { s.comb with cflows := Store.upd {} cf (fun f => { f with seqId := (f.seqId + 1) % 256 }) s.comb.cflows } }
  if c.tSym ≤ s.time.t then combCount set 12 1 s
  else
    let (n, s) := newPktNum s
    match allocBuf d.length ownComb n false s with
    | .error _ => count (cDev 37) s
    | .ok (k, s) => joinNet (t.queue % 16384) { num := n, bytes := d, buf := some k, epoch := s.tables.epoch } s

/-- The frames of one antenna of a combined symbol, in ascending PRB order. -/
def sendAntenna (set a : Nat) (x : CombSet) (b : WBank) (c : SymCtx) (s : State) : State :=
  match dlFlow s set a with
  | none => s
  | some (cf, f) =>
    let t := flowAt s f.txFlow
    let per := max 1 f.prbPerFrame
    if !t.enable || !t.tx then combCount set 0 1 s
    else
      (List.range ((x.numPrb + per - 1) / per)).foldl (fun u i =>
        let first := x.startPrb + i * per
        let n := min per (x.numPrb - i * per)
        sendDl set cf t c (dlFrame (cflowAt u cf) t c (cflowAt u cf).seqId i first n (combRow x b c a first n).1) u) s

/-- DL_FRAME_READY (R377, R378): the frames of an antenna, for the first combined symbol that still owes them. -/
def execDlFrameReady (set antenna : Nat) (s : State) : Host.Outcome State Fault Refusal :=
  done (
    let x := combSet s set
    match if combRuns s && x.dir == 1 then firstSym s set (fun c => c.closed && (dlPending s set x c).contains antenna) else none with
    | none => s
    | some c =>
      let s := match bankOfSlot x c.slotAt with
        | some b => sendAntenna set antenna x b c s
        | none => s
      endDl set c.tSym x (updSym set c.tSym (fun c => { c with doneAnt := antenna :: c.doneAnt }) s))

/-! ## Weight banks (R367 to R370) -/

/-- A weight bank from its bytes. -/
def readBank (x : CombSet) (half : Nat) (b : Bytes) : WBank :=
  let w := 16 + 16 * ((combOut x + 15) / 16)
  { wepoch := fld b 2 2, half := half, shifts := (List.range (combOut x)).map fun o => fld b (16 + o) 1
    weights := (records 4 (combNg x * x.layers * x.antennas) (b.drop w)).map fun r => (signed 16 (fld r 0 2), signed 16 (fld r 2 2)) }

/-- The place that the inactive bank lies in. -/
def spareHalf (x : CombSet) : Nat :=
  match x.bank with
  | some b => 1 - b.half
  | none => 0

/-- The function whose requester ID reads host memory for a command: PF0 for the sideband transport (R435). -/
def readerOf (s : State) (ch : Chan) : Nat := (chanFn s ch).getD 0

/-- An open symbol of a set uses the inactive bank (R368). -/
def inactiveBusy (s : State) (set : Nat) (x : CombSet) : Bool :=
  x.oldBank.isSome && s.comb.syms.any fun (c : SymCtx) => c.set == set && decide (c.slotAt < x.lastS)

/-- What the shared checks need to know of COMB_WEIGHTS, opcode 0x0E03. -/
def infoCombWeights : OpInfo := { code := 0x0E03, len := fun c => lenIs 24 c && decide (arg c 0 2 ≤ 31), priv := true, cap := some 0, gated := true }

/-- COMB_WEIGHTS (R368, R383): the reply comes when the bank has been read. -/
def execCombWeights (c : Cmd) (s : State) : Host.Outcome State Fault Refusal :=
  done (runCommand infoCombWeights
    (fun r _ c s =>
      let n := arg c 0 2
      let x := combSet s n
      if !x.enable then (s, some (err stState 2))
      else if x.armed.isSome || x.loading.isSome || inactiveBusy s n x then (s, some (err stBusy 0))
      else if arg c 16 4 ≠ bankBytes x then (s, some (err stBadLength 0))
      else
        let f := readerOf s c.chan
        let v := updSet n (fun x => { x with spare := none, oldBank := none }) s
        if sidebandCut s c.chan then (v, some (err stRetry 0x20))
        else (hostRead f (.weights n) (arg c 8 8) (arg c 16 4) (updSet n (fun x => { x with loading := some r, loadLen := arg c 16 4 }) v), none)) c s)

/-- WEIGHT_BANK_LOADED (R368): the bank is loaded, or left empty on a fault, a wrong SET or a SHIFT above 24. -/
def execWeightBankLoaded (set : Nat) (data : HostData) (s : State) : Host.Outcome State Fault Refusal :=
  done (
    let x := combSet s set
    match x.loading with
    | none => s
    | some r =>
      let s := endReads (.weights set) (updSet set (fun x => { x with loading := none, loadLen := 0 }) s)
      let short := decide (data.data.length < x.loadLen) || (match data.badAt with
        | some k => decide (k < x.loadLen)
        | none => false)
      let b := readBank x (spareHalf x) data.data
      if short then replyIfRunning r (err stRetry 0x20) s
      else if !x.enable then replyIfRunning r (err stState 2) s
      else if fld data.data 0 1 ≠ set ∨ b.shifts.any (fun v => decide (24 < v)) then replyIfRunning r (err stBadLength 0) s
      else
        replyIfRunning r (ok x.loadLen 0)
          (clearPoison (weightMem x) (combMem set b.half) 1073741824 (updSet set (fun x => { x with spare := some b }) s)))

/-- What the shared checks need to know of COMB_SWITCH, opcode 0x0E04. -/
def infoCombSwitch : OpInfo :=
  { code := 0x0E04, len := fun c => lenIs 16 c && decide (arg c 0 8 ≤ 31), modes := [.proving, .flowing], priv := true, cap := some 0, gated := true }

/-- COMB_SWITCH (R369, R383): armed at the first slot boundary at or after the later of AT_TIME and now + 100 us. -/
def execCombSwitch (c : Cmd) (s : State) : Host.Outcome State Fault Refusal :=
  done (runCommand infoCombSwitch
    (fun r _ c s =>
      let n := arg c 0 8
      let x := combSet s n
      if x.armed.isSome then (s, some (err stBusy 0))
      else if x.spare.isNone then (s, some (err stState 1))
      else
        let t := max (arg c 8 8 * 65536) (s.time.t + 100000 * 65536)
        (updSet n (fun x => { x with armed := some r, armedAt := t, switchAt := (boundaryFrom (carrierAt s x.carrier) 1 t).toNat }) s, none)) c s)

/-- The banks of a set switch at S (R369). -/
def switchBank (set : Nat) (s : State) : State :=
  updSet set (fun x => { x with armed := none, oldBank := x.bank, bank := x.spare, spare := none, lastS := x.switchAt }) (advanceTo (combSet s set).switchAt s)

/-- COMB_BANK_SWITCH (R369): S arrives. -/
def execCombBankSwitch (set : Nat) (s : State) : Host.Outcome State Fault Refusal :=
  done (
    let x := combSet s set
    match if combRuns s then x.armed else none with
    | none => s
    | some r =>
      let s := switchBank set s
      replyIfRunning r (ok (x.switchAt / 65536) ((x.spare.map (·.wepoch)).getD 0)) s)

/-- Disarm a set's switch; its command is answered when `a` gives an answer. -/
def disarmSwitch (set : Nat) (a : Option Answer) (s : State) : State :=
  match (combSet s set).armed with
  | none => s
  | some r =>
    let s := updSet set (fun x => { x with armed := none, switchAt := 0, armedAt := 0 }) s
    match a with
    | some a => replyIfRunning r a s
    | none => s

/-- A change to PRIMING or DORMANT abandons every open symbol with no output and disarms every switch (R382). -/
def combAbandon (s : State) : State :=
  let l := s.comb.syms
  let s := { s with comb := { s.comb with syms := [], ended := [] } }
  let s := l.foldl (fun t c => releaseClaims c t) s
  (s.comb.sets.map (·.1)).foldl (fun t n => disarmSwitch n (some (err stAborted 0)) t) s

/-! ## Sets (R362, R370, R380, R382) -/

/-- A set record from its bytes. -/
def readSet (b : Bytes) : CombSet :=
  { dir := fld b 1 1, carrier := fld b 2 1, enable := bit (fld b 3 1) 0, antennas := fld b 4 2, layers := fld b 6 1, prbGroup := fld b 7 1,
    startPrb := fld b 8 2, numPrb := fld b 10 2, contexts := fld b 12 1, outQueue := fld b 14 2, closeNs := fld b 16 4, dlLead := fld b 20 4 }

/-- A set record breaks the ranges of R362. -/
def setBad (s : State) (x : CombSet) : Bool :=
  decide (1 < x.dir) || decide (31 < x.carrier) || x.antennas == 0 || decide (512 < x.antennas) || x.layers == 0 || decide (64 < x.layers) ||
  x.prbGroup == 0 || decide (16 < x.prbGroup) || x.numPrb == 0 || decide (275 < x.numPrb) || decide ((carrierAt s x.carrier).prbs < x.startPrb + x.numPrb) ||
  (if x.dir = 0 then decide (x.contexts < 2) || decide (16 < x.contexts) || handleBad x.outQueue || decide (16383 < x.outQueue + x.layers - 1) || decide (1000000 < x.closeNs)
   else decide (x.dlLead < 10000) || decide (1000000 < x.dlLead))

/-- Bytes of the weight store, and of Clay (R370, 01_architecture.md). -/
def weightStore : Nat := 16777216
def clayBytes : Nat := 25769803776

/-- Bytes of the banks of the enabled sets placed in Clay, or on the die. -/
def placed (s : State) (clay : Bool) : Nat := (((setsOn s).filter fun p => p.2.inClay == clay).map fun p => 2 * bankBytes p.2).sum

/-- The demand of the enabled sets. -/
def totalDemand (s : State) : Nat := ((setsOn s).map fun p => combDemand s p.2).sum

/-- Admit a set that is being enabled: where its banks go, or why not (R370, R380). -/
def admitSet (s : State) (x : CombSet) : Except Nat Bool :=
  if 5120000000000 < totalDemand s + combDemand s x then .error 1
  else if 1048576 < ((setsOn s).map fun p => combAccs p.2).sum + combAccs x then .error 2
  else if placed s false + 2 * bankBytes x ≤ weightStore then .ok false
  else if placed s true + 2 * bankBytes x ≤ clayBytes then .ok true
  else .error 3

/-- The answer of COMB_SET_WRITE (R383). -/
def setAnswer (s : State) (n : Nat) : Answer := ok (b2n (combSet s n).inClay + 2 ^ 32 * (totalDemand s / 1000000000)) 0

/-- Domain 13 runs at point 15 while any set is enabled, at the CLAMP point under a clamp (R411, R421). -/
def combPoint (s : State) : State :=
  if (setsOn s).isEmpty then s else setPoint 13 (if s.power.clamp then clampPoint else 15) s

/-- What the shared checks need to know of COMB_SET_WRITE, opcode 0x0E01. -/
def infoCombSetWrite : OpInfo := { code := 0x0E01, len := fun c => lenIs 64 c && decide (arg c 0 1 ≤ 31), priv := true, cap := some 0, gated := true }

/-- COMB_SET_WRITE (R362, R380, R382). -/
def execCombSetWrite (c : Cmd) (s : State) : Host.Outcome State Fault Refusal :=
  done (runCommand infoCombSetWrite
    (fun r _ c s =>
      let n := arg c 0 1
      let x := readSet c.payload
      let old := combSet s n
      if setBad s x then (s, some (err stBadLength 0))
      else if old.enable && (x.enable || old.disabling.isSome) then (s, some (err stState 1))
      else if old.enable then
        let k := carrierAt s old.carrier
        let t := if k.dirs.isEmpty then s.time.t else (boundaryFrom k 1 s.time.t).toNat
        (updSet n (fun y => { y with disabling := some r, stopAt := t, nextRec := c.payload }) s, none)
      else if !x.enable then (let s := updSet n (fun _ => x) s; (s, some (setAnswer s n)))
      else match admitSet s x with
        | .error d => (s, some (err stNoResource d))
        | .ok clay =>
          let s := combPoint (updSet n (fun _ => { x with inClay := clay, enabledAt := s.time.t }) s)
          (s, some (setAnswer s n))) c s)

/-- COMB_SET_DISABLE_DONE (R382): once the boundary has come and the last symbol has ended. -/
def execCombSetDisableDone (set : Nat) (s : State) : Host.Outcome State Fault Refusal :=
  done (
    let x := combSet s set
    match x.disabling with
    | none => s
    | some r =>
      if s.comb.syms.any (fun (c : SymCtx) => c.set == set) || !timeRuns s then s
      else
        let s := disarmSwitch set (some (err stAborted 0)) (advanceTo x.stopAt s)
        let s := updSet set (fun y => { readSet x.nextRec with loading := y.loading, loadLen := y.loadLen }) s
        replyIfRunning r (setAnswer s set) s)

/-- A CFLOW record from its bytes. -/
def readCflow (b : Bytes) : Cflow :=
  { role := fld b 0 1, set := fld b 1 1, index := fld b 2 2, txFlow := fld b 4 2, meth := fld b 6 1, width := fld b 7 1, dmac := slice b 8 6,
    smac := slice b 14 6, vlanTci := fld b 20 2, vlanEn := bit (fld b 22 1) 0, compHdr := bit (fld b 22 1) 1, prbPerFrame := fld b 24 2 }

/-- A CFLOW record is refused for its own fields (R363). -/
def cflowBad (f : Cflow) : Bool :=
  decide (3 < f.role) || decide (31 < f.set) || (f.role == 2 && !compOk f.meth f.width) ||
  (f.role == 3 && (decide (4095 < f.txFlow) || f.prbPerFrame == 0 || decide (275 < f.prbPerFrame)))

/-- Two CFLOWs of the same ROLE, SET and INDEX. -/
def cflowClash (a b : Cflow) : Bool := a.role != 0 && a.role == b.role && a.set == b.set && a.index == b.index

/-- Write CFLOW records from `first`: the index of the first refused, or the state. A transmit flow keeps its sequence number (R377). -/
def writeCflows : Writer := fun t first l s =>
  let recs := l.map readCflow
  let kept := s.comb.cflows.filter fun (x : Nat × Cflow) => decide (x.1 < first) || decide (first + l.length ≤ x.1)
  let bad (i : Nat) : Bool :=
    let f := recs.getD i {}
    cflowBad f || (kept.any fun x => cflowClash f x.2) || ((recs.take i).any (cflowClash f))
  if t ≠ 0 ∨ 4096 < first + l.length then .error 0
  else match (List.range l.length).find? bad with
    | some i => .error i
    | none =>
      let new := (List.range l.length).map fun i => { recs.getD i ({} : Cflow) with seqId := (cflowAt s (first + i)).seqId }
      .ok { s with comb := { s.comb with cflows := Store.setMany {} first new s.comb.cflows } }

/-- What the shared checks need to know of COMB_CFLOW_WRITE, opcode 0x0E02. -/
def infoCombCflowWrite : OpInfo := { code := 0x0E02, len := lenWrite 32, priv := true, cap := some 0, gated := true }

/-- COMB_CFLOW_WRITE (R363, R383). -/
def execCombCflowWrite (c : Cmd) (s : State) : Host.Outcome State Fault Refusal :=
  done (runCommand infoCombCflowWrite
    (answer fun _ c s =>
      let n := arg c 8 4
      match writeCflows (arg c 0 2) (arg c 4 4) (records 32 n (c.payload.drop 16)) s with
      | .error i => (s, err stBadLength i)
      | .ok s => (s, ok n 0)) c s)

/-- What the shared checks need to know of COMB_STATUS, opcode 0x0E05. -/
def infoCombStatus : OpInfo :=
  { code := 0x0E05, len := fun c => lenIs 16 c && decide (arg c 0 1 ≤ 31), modes := modesRead, cap := some 0, outOff := some 8 }

/-- COMB_STATUS (R383). -/
def execCombStatus (c : Cmd) (s : State) : Host.Outcome State Fault Refusal :=
  done (runCommand infoCombStatus
    (answer fun _ c s =>
      let n := arg c 0 1
      let x := combSet s n
      let k := Store.get ({} : CombCnt) n s.comb.cnts
      let busy := (s.comb.syms.filter fun (y : SymCtx) => y.set == n && !y.closed).length
      let out := ((List.range 14).map fun i => toLe 8 (Store.get 0 i k.cnt)).flatten ++ toLe 2 ((x.bank.map (·.wepoch)).getD 0) ++ toLe 1 busy ++
        toLe 1 (b2n x.armed.isSome) ++ zeros 12
      let a := okOut (groupsAwake s) 0 (arg c 8 8) out
      (if bit (arg c 1 1) 0 then { s with comb := { s.comb with cnts := Store.set {} n {} s.comb.cnts } } else s, a)) c s)

/-- COMBINER_GROUP_GATE (R381, R408): no symbol work is open or due, beyond the floor. -/
def execCombinerGroupGate (group : Nat) (s : State) : Host.Outcome State Fault Refusal :=
  done (
    if !hasCombiner s || s.mode == .dry || !s.comb.awake.getLsbD group || !s.comb.syms.isEmpty || decide (16 ≤ group) then s
    else if groupsAwake s ≤ max s.power.policy.combFloor (groupsDue s) then s
    else { s with comb := { s.comb with awake := s.comb.awake &&& ~~~(1#16 <<< group) } })

end Sys2Proof.Machine
end

