-- ==== Sys2Proof/Machine/Actions.lean ====
section
/-! DEFINITION. The action stage (R204 to R209), the engine hand-off (R212 to R214) and the LEARN wait (R228), and the rows by which a
packet comes back to the stage. -/

namespace Sys2Proof.Machine

open Sys2Proof

/-! ## The end of a packet's actions (R204) -/

/-- A packet goes where its queue handle says: a host receive queue pair, a network egress queue, or a spread within a function. -/
def placePkt (p : Packet) (s : State) : State :=
  let k := p.queue / 16384
  if k = 0 then rxDeliver p (p.queue % 16384) s
  else if k = 1 then joinNet (p.queue % 4096) p s
  else if k = 2 then
    match spreadQueue (p.queue % 2048) p s with
    | (some n, p, s) => rxDeliver p n s
    | (none, p, s) => dropPkt p (count (cDev 22) s)
  else dropPkt p (if p.copies = 0 then count (cDev 21) s else s)

/-- A departure stamp still named by slot: slot x 65,536 + byte, while the list runs (R341). -/
def stampKey (slot byte : Nat) : Nat := slot * 65536 + byte

/-- Departure stamps by their place in the packet as its slots now stand. -/
def resolveStamps (p : Packet) : List (Nat × Nat) :=
  p.stamps.filterMap fun x => (slotOf p (x.1 / 65536)).map fun y => (y.1 + x.1 % 65536, x.2)

/-- A packet at the end of its list: its stamps have their places, and it goes to its queue. -/
def endList (p : Packet) (s : State) : State := placePkt { p with stamps := resolveStamps p } s

/-- Copies made so far go to their queues. -/
def placeCopies (l : List Packet) (s : State) : State := l.foldl (fun t c => placePkt c t) s

/-! ## Copies (R208, R255) -/

/-- Make a copy for a queue: none for NONE, and none beyond 32 of the packet or 64 holders of the buffer. A truncated copy shares the
buffer, since no byte of it changes. -/
def copyPkt (p : Packet) (q trunc : Nat) (s : State) : List Packet × Packet × State :=
  if q = 0xFFFF then ([], p, s)
  else if 32 ≤ p.copies then ([], p, count (cDev 19) s)
  else
    let (n, s) := newPktNum s
    let (ok, s) := match p.buf with
      | some b => claimBuf b n s
      | none => (true, s)
    if !ok then ([], p, s)
    else
      let d := if trunc = 0 then p.bytes else p.bytes.take trunc
      ([{ p with num := n, bytes := d, tx := none, queue := q, copies := 0, ptp := 0, stamps := resolveStamps p }], { p with copies := p.copies + 1 }, s)

/-- The copies of a FLOOD: each port but the ingress port at a priority, then the host queue; the packet's own queue becomes NONE. -/
def floodPkt (p : Packet) (ports prio host : Nat) (s : State) : List Packet × Packet × State :=
  let qs := ((setBits ports 16).filter fun x => !(p.port == some x)).map fun x => 0x4000 + 8 * x + prio
  let (l, p, s) := (qs ++ [host]).foldl (fun (a : List Packet × Packet × State) q =>
    let (c, p, s) := copyPkt a.2.1 q 0 a.2.2
    (a.1 ++ c, p, s)) ([], p, s)
  (l, { p with queue := 0xFFFF }, s)

/-! ## Words that change bytes (R207, R208) -/

/-- What running a word comes to: the packet goes on, or it is gone (freed, or with another unit). -/
inductive WordEnd where
  | go (copies : List Packet) (p : Packet) (s : State)
  | stop (copies : List Packet) (s : State)

/-- A word that names no recorded slot, or a byte beyond its header, is skipped (R208). -/
def skipWord (l : List Packet) (p : Packet) (s : State) : WordEnd := .go l p (count (cDev 17) s)

/-- Change a packet's bytes in a buffer of its own that holds `size` (R208, R254, R255, R430): poison in them frees the packet. -/
def changePkt (l : List Packet) (p : Packet) (size : Nat) (s : State) (k : Packet → State → WordEnd) : WordEnd :=
  if pktPoisoned s p then
    let o := ((p.buf.bind (bufAt s)).map (·.owner)).getD ownFw
    .stop l (dropPkt p (poisonConsumed 1 (count (cOwnerPoison o) s)))
  else match ensureBuffer p size s with
    | .error _ => .stop l (dropPkt p (count (cDev 45) s))
    | .ok (p, s) => k p s

/-- PUSH_TUNNEL with the template words that follow it. -/
def runPush (w : Nat) (tmpl : List Nat) (l : List Packet) (p : Packet) (s : State) : WordEnd :=
  let n := bits w 48 8
  let at_ := bits w 40 8
  match (if at_ = 0xFF then some 0 else (slotOf p at_).map (·.1)) with
  | none => skipWord l p s
  | some pos =>
    changePkt l p (p.bytes.length + n) s fun p s =>
      let b := ((tmpl.map fun x => toLe 8 x).flatten).take n
      let f : PushFix := { pos := pos, l3 := bits w 32 8, l4 := bits w 24 8, fix := bits w 16 5 }
      let (h, p, s) := if bit f.fix 2 then queueHash p s else (0, p, s)
      .go l { p with bytes := fixUps f 0xF h (insertBytes pos b p.bytes), slots := slotsIn pos n p.slots, push := some f } s

/-- Where the last PUSH_TUNNEL's template stands after bytes `a` to `b - 1` have gone: none when it went with them. -/
def pushOut (a b : Nat) (f : Option PushFix) : Option PushFix :=
  f.bind fun f => if f.pos < a then some f else if b ≤ f.pos then some { f with pos := f.pos - (b - a) } else none

/-- POP_TUNNEL. -/
def runPop (w : Nat) (l : List Packet) (p : Packet) (s : State) : WordEnd :=
  let fr := bits w 40 8
  match (if fr = 0xFF then some 0 else (slotOf p fr).map (·.1)), (slotOf p (bits w 32 8)).map (·.1) with
  | some a, some b =>
    if b ≤ a then skipWord l p s
    else changePkt l p p.bytes.length s fun p s =>
      .go l { p with bytes := removeBytes a b p.bytes, slots := slotsOut a b p.slots, push := pushOut a b p.push } s
  | _, _ => skipWord l p s

/-- Update the L4 checksum of the header in a slot for changed bytes: UDP by its advance of 8, a UDP checksum of 0 stays (R208). -/
def l4Update (h : Nat × Nat × Nat) (old new : Bytes) (d : Bytes) : Bytes :=
  let c := h.1 + (if h.2.1 = 8 then 6 else 16)
  let v := fldBe d c 2
  if h.2.1 = 8 ∧ v = 0 then d
  else
    let u := csumUpdate v old new
    setBe c 2 (if h.2.1 = 8 ∧ u = 0 then 65535 else u) d

/-- SET_FIELD. -/
def runSetField (w : Nat) (l : List Packet) (p : Packet) (s : State) : WordEnd :=
  let byte := bits w 44 8
  let n := 2 ^ bits w 42 2
  match slotOf p (bits w 52 4) with
  | none => skipWord l p s
  | some (start, adv, _) =>
    let l4 := slotOf p (bits w 36 4)
    if adv < byte + n ∨ (bit w 40 ∧ l4.isNone) then skipWord l p s
    else changePkt l p p.bytes.length s fun p s =>
      let lo := start + byte / 2 * 2
      let len := (byte + n + 1) / 2 * 2 - byte / 2 * 2
      let old := slice p.bytes lo len
      let d := setBe (start + byte) n (bits w 0 32) p.bytes
      let new := slice d lo len
      let d := if bit w 41 then setBe (start + 10) 2 (csumUpdate (fldBe d (start + 10) 2) old new) d else d
      let d := match (if bit w 40 then l4 else none) with
        | some h => l4Update h old new d
        | none => d
      .go l { p with bytes := d } s

/-- TIMESTAMP: arrival is written at once, departure as the frame leaves (R341). A packet that no port received is stamped here. -/
def runTimestamp (w : Nat) (l : List Packet) (p : Packet) (s : State) : WordEnd :=
  let byte := bits w 44 8
  let fmt := bits w 42 2
  match slotOf p (bits w 52 4) with
  | none => skipWord l p s
  | some (start, adv, _) =>
    let n := if fmt = 1 then 10 else 8
    if adv < byte + n then skipWord l p s
    else if bit w 41 then .go l { p with stamps := p.stamps ++ [(stampKey (bits w 52 4) byte, fmt)] } s
    else changePkt l p p.bytes.length s fun p s =>
      .go l { p with bytes := patch p.bytes (start + byte) (stampBytes (if p.port.isSome then p.ts else s.time.t) fmt) } s

/-! ## Hand-offs (R209, R212) -/

/-- The job of a packet handed to a program: its cost in fJ and its class (R415, R419). -/
def engineJob (s : State) (prog : Nat) : Nat × Nat :=
  let x := Store.get (40, 3) prog s.power.cost.progs
  (x.1 * 1000000, x.2)

/-- The well TO_ENGINE chooses (R212): the (hash mod n)-th of the wells its mask names and the part has. -/
def pickWell (s : State) (mask hash : Nat) : Nat :=
  let l := setBits mask (wellCount s)
  l.getD (hash % max 1 l.length) 0

/-- Hand a packet off, at most four times (R209). -/
def handOff (l : List Packet) (p : Packet) (s : State) (k : Packet → State → State) : WordEnd :=
  if 4 ≤ p.handoffs then .stop l (dropPkt p (count (cDev 20) s))
  else .stop l (k { p with handoffs := p.handoffs + 1 } s)

/-- TO_ENGINE: the job is admitted or held, and the well is woken when it sleeps (R212, R409, R416). -/
def runToEngine (w : Nat) (p q : Packet) (s : State) : State :=
  let prog := bits w 40 8
  let (cost, cls) := engineJob s prog
  let (ok, s) := admitJob cls cost false s
  if !ok then holdJob p s
  else
    let (h, q, s) := queueHash q s
    let well := pickWell s (bits w 28 12) h
    let s := { s with cis := { s.cis with
      engine := s.cis.engine ++ [{ q with hash := h }]
      progs := Store.set (0, 0, 0) q.num (prog, well, bits w 0 16 + 1) s.cis.progs } }
    if wellAwake s well then wakeEngines well s else startWake wkWell well false s

/-- CIPHER: the engine takes the packet, or its job is held. `p` stands at the word, `q` beyond it. -/
def runCipher (w : Nat) (p q : Packet) (s : State) : State :=
  match cipherSubmit q (bits w 0 17) (bits w 54 2) (bit w 53) s with
  | (true, s) => s
  | (false, s) => holdJob p s

/-! ## The list (R208) -/

/-- Count flow counter `n` (R215). -/
def countFlow (n pkts bytes : Nat) (s : State) : State :=
  { s with tables := { s.tables with flowCnt := Store.upd (0, 0) n (fun x => ((x.1 + pkts) % 2 ^ 64, (x.2 + bytes) % 2 ^ 64)) s.tables.flowCnt } }

/-- DROP: the packet and every copy not yet queued are freed. -/
def runDrop (l : List Packet) (p : Packet) (s : State) : WordEnd :=
  .stop [] (dropPkt p (count (cDev 18) (l.foldl (fun t c => freePkt c t) s)))

/-- Run one action word on a packet that stands at it; `q` is the packet beyond the word and its template words. -/
def runWord (w : Nat) (tmpl : List Nat) (l : List Packet) (p q : Packet) (s : State) : WordEnd :=
  match wordOp w with
  | 0x01 => runPush w tmpl l q s
  | 0x02 => runPop w l q s
  | 0x03 => runSetField w l q s
  | 0x04 => handOff l q s fun q s => runCipher w p q s
  | 0x05 =>
    (match police (bits w 0 14) q s with
     | (some c, s) => .go l { q with colour := c } s
     | (none, s) => .stop l (dropPkt q s))
  | 0x06 => .go l q (countFlow (bits w 0 16) 1 q.bytes.length s)
  | 0x07 => let (c, q, s) := copyPkt q (bits w 32 16) (bits w 0 16) s; .go (l ++ c) q s
  | 0x08 => runTimestamp w l q s
  | 0x09 => handOff l q s fun q s => combTake (bits w 0 12) q s
  | 0x0A => handOff l q s fun q s => runToEngine w p q s
  | 0x0B => .stop l { s with cis := { s.cis with learning := s.cis.learning ++ [p] } }
  | 0x0C => .go l { q with queue := 0x4000 + 8 * bits w 0 4 + bits w 8 3 } s
  | 0x0D => let (c, q, s) := floodPkt q (bits w 0 16) (bits w 16 3) (bits w 32 16) s; .go (l ++ c) q s
  | 0x0E => runDrop l q s
  | _ => .go l q s

/-- The class record of a packet. -/
def classOf (s : State) (p : Packet) : ClassRec := Store.get {} p.cls (bankFor s p.epoch).classes

/-- Word `i` of a packet's list. -/
def listWord (s : State) (p : Packet) (i : Nat) : Nat := (Store.get 0 ((classOf s p).alist + i) (bankFor s p.epoch).words).toNat

/-- A word of a packet's list is poisoned. -/
def wordPoisoned (s : State) (p : Packet) (i : Nat) : Bool := tablePoisoned s 0x0013 0 ((classOf s p).alist + i) (readsInactive s p)

/-- Run a packet's list from the word it stands at; copies go to their queues when it ends or the packet is handed on (R208). `fuel`
bounds the words at the 16 a list can hold. -/
def runWords : Nat → List Packet → Packet → State → State
  | 0, l, p, s => endList p (placeCopies l s)
  | fuel + 1, l, p, s =>
    let i := p.next
    if (classOf s p).len ≤ i then endList p (placeCopies l s)
    else if wordPoisoned s p i then placeCopies l (tablePoison 2 p s)
    else
      let w := listWord s p i
      let k := if wordOp w = 1 then templateWords w else 0
      let tmpl := (List.range k).map fun j => listWord s p (i + 1 + j)
      match runWord w tmpl l p { p with next := i + 1 + k } s with
      | .go l p s => runWords fuel l p s
      | .stop l s => placeCopies l s

/-- The action stage runs a packet from the word it stands at. -/
def runActions (p : Packet) (s : State) : State :=
  if tablePoisoned s 0x0012 0 p.cls (readsInactive s p) then tablePoison 2 p s else runWords 17 [] p s

/-- A packet enters the pipeline: classification, then its actions; an errored one runs no words (R172). -/
def pipeline (p : Packet) (s : State) : State :=
  match classify p s with
  | (none, s) => s
  | (some p, s) => if erroredPkt p then placePkt p s else runActions p s

/-- A packet whose job was held runs again from its word, in arrival order (R416). -/
def retryHeld (s : State) : State :=
  let l := s.cis.heldJobs
  l.foldl (fun t p => runActions p t) { s with cis := { s.cis with heldJobs := [] } }

/-! ## LEARN (R228) -/

/-- The LEARN insertion of a key: true when it stands. A present key that is STATIC only has HIT set. -/
def learnKey (t : Nat) (k : Bytes) (rule : Nat) (s : State) : Bool × State :=
  match emFind (emAt s t) k with
  | some i =>
    let e := Store.get {} i (emAt s t).entries
    (true, emWrite t i { e with hit := true, rule := if e.static then e.rule else rule } s)
  | none => if emDefined s t then emPut t { key := k, rule := rule, learned := true } s else (false, s)

/-- A failed LEARN is counted and its event raised at most once per NOTICE_MS. -/
def learnFail (t : Nat) (s : State) : State :=
  let s := count (cEm t 0) s
  let r := emAt s t
  let due := match r.lastNotice with
    | some n => decide (n + r.noticeMs * 1000000 * 65536 ≤ s.time.t)
    | none => true
  if due then raise (576 + t) 0 (if emDefined s t then updEm t (fun x => { x with lastNotice := some s.time.t }) s else s) else s

/-- LEARN_COMPLETE (R228): the insertion of a waiting packet ends, and its list goes on; a failure acts as a FLOOD word. -/
def execLearnComplete (pkt : Nat) (s : State) : Host.Outcome State Fault Refusal :=
  done (match s.cis.learning.find? fun p => p.num == pkt with
    | none => s
    | some p =>
      let s := { s with cis := { s.cis with learning := s.cis.learning.filter fun p => p.num != pkt } }
      let w := listWord s p p.next
      let t := bits w 48 6
      let set := Store.get ({} : TreeSet) (bindOf (bankFor s p.epoch) p).treeSet (bankFor s p.epoch).treeSets
      let k := emKey (emAt s t) (selectKey (keyFields p set) (bits w 40 8) (emAt s t).keyLen)
      let rule := (bits w 24 16 + (if bit w 23 then p.port.getD 16 else 0)) % 65536
      if emDefined s t && emPoisoned s t k then tablePoison 9 p s
      else
        let (ok, s) := learnKey t k rule s
        let q := { p with next := p.next + 1 }
        if ok then runActions q s
        else
          let (l, q, s) := floodPkt q (bits w 0 16) 0 0xFFFF (learnFail t s)
          runWords 17 l q s)

/-! ## Engines (R209, R213, R214) -/

/-- The packet an engine holds. -/
def enginePkt (s : State) (pkt : Nat) : Option Packet := s.cis.engine.find? fun p => p.num == pkt

/-- Program, well and ARG + 1 of a packet an engine holds. -/
def engineUse (s : State) (pkt : Nat) : Nat × Nat × Nat := Store.get (0, 0, 0) pkt s.cis.progs

/-- An earlier packet of the same program and hash is still out: returns keep hand-off order (R212). -/
def earlierOut (s : State) (p : Packet) : Bool :=
  (s.cis.engine.takeWhile fun (q : Packet) => q.num != p.num).any fun q => q.hash == p.hash && (engineUse s q.num).1 == (engineUse s p.num).1

/-- A packet leaves its engine: the packet and its well, when a program can have run on it: the device is in service and its well awake. -/
def takeEngine (pkt : Nat) (s : State) : Option (Packet × Nat × State) :=
  match enginePkt s pkt with
  | none => none
  | some p =>
    let w := (engineUse s pkt).2.1
    if !inService s || !wellAwake s w || (enginesAwake s w).isEmpty then none
    else
      let s := { s with cis := { s.cis with engine := s.cis.engine.filter (fun q => q.num != pkt), progs := Store.set (0, 0, 0) pkt (0, 0, 0) s.cis.progs } }
      some ({ p with hash := 0 }, w, s)

/-- What a program returned keeps the bounds of R213. -/
def engineOk (p : Packet) (r : EngineResult) : Bool :=
  let tail : Int := (r.data.length : Int) - p.bytes.length - r.head
  decide (r.head.natAbs ≤ 256) && decide (tail.natAbs ≤ 256) && decide (r.copies.length ≤ 4) && decide (r.colour ≤ 2) && !handleBad r.queue &&
  decide (r.data.length ≤ 65536) && decide (0 < r.data.length) &&
  r.copies.all fun c => decide (c.1 ≤ 2) && !handleBad c.2.1 && decide (0 < c.2.2.length) && decide (c.2.2.length ≤ 65536)

/-- Slots after a program has added `n` bytes at the head, or removed them. -/
def slotsHead (n : Int) (l : Store (Nat × Nat × Nat)) : Store (Nat × Nat × Nat) :=
  if 0 ≤ n then slotsIn 0 n.toNat l else slotsOut 0 n.natAbs l

/-- The record by which a program changes a table (R213, R225). -/
def engineEmRecord (e : EngineEm) : Bytes :=
  toLe 1 (if e.insert then 1 else 2) ++ [0] ++ toLe 2 e.rule ++ toLe 4 e.user.toNat ++ zeros 8 ++ (e.key ++ zeros 64).take 64

/-- What a program changed lies in the tables and flow counters that it declares (R213). -/
def engineDeclared (prog : Nat) (r : EngineResult) : Bool :=
  (r.ems.all fun e => Config.programTable prog e.table) && r.flows.all fun f => Config.programCounter prog f.1

/-- A program's change of a table stands, or fails and leaves it. -/
def engineEm (e : EngineEm) (s : State) : State :=
  if !emDefined s e.table then s
  else (emRecord e.table (engineEmRecord e) s).2

/-- A copy an engine made: it shares the buffer while its bytes are the packet's, else it takes one of its own charged to the well
(R254, R255). -/
def engineCopy (well : Nat) (c : Nat × Nat × Bytes) (a : List Packet × Packet × State) : List Packet × Packet × State :=
  match copyPkt a.2.1 c.2.1 0 a.2.2 with
  | ([k], p, s) =>
    if c.2.2.isPrefixOf p.bytes then (a.1 ++ [{ k with bytes := c.2.2, colour := c.1 }], p, s)
    else match ownBuffer k c.2.2.length (ownWell well) s with
      | .ok (k, s) => (a.1 ++ [{ k with bytes := c.2.2, colour := c.1 }], p, s)
      | .error _ => (a.1, p, freePkt k (count (cDev 26) s))
  | (_, p, s) => (a.1, p, s)

/-- ENGINE_RETURN (R209, R213): copies, table changes and flow counters take effect, and the packet's list goes on. A result beyond R213's
bounds has failed a firmware check, and one that reaches past what its program declares is an access fault (R214). -/
def execEngineReturn (pkt : Nat) (r : EngineResult) (s : State) : Host.Outcome State Fault Refusal :=
  let prog := (engineUse s pkt).1
  done (match (enginePkt s pkt).bind fun p => if earlierOut s p then none else takeEngine pkt s with
    | none => s
    | some (p, well, s) =>
      if !p.live then dropPkt p s
      else if pktPoisoned s p then dropPkt p (poisonConsumed 1 (count (cOwnerPoison (ownWell well)) s))
      else if !engineDeclared prog r then raise 512 0 (dropPkt p (count (cDev 24) s))
      else if !engineOk p r then raise 512 0 (dropPkt p (count (cDev 25) s))
      else
        let s := r.flows.foldl (fun t f => countFlow f.1 f.2.1 f.2.2 t) (r.ems.foldl (fun t e => engineEm e t) s)
        let (l, p, s) := r.copies.foldl (fun a c => engineCopy well c a) ([], p, s)
        if r.drop then placeCopies l (dropPkt p s)
        else
          let got := if r.data = p.bytes then .ok (p, s) else ensureBuffer p r.data.length s
          match got with
          | .error _ => placeCopies l (dropPkt p (count (cDev 26) s))
          | .ok (p, s) =>
            runWords 17 l { p with bytes := r.data, slots := slotsHead r.head p.slots, colour := r.colour, queue := r.queue } s)

/-- A program fault frees its packet, counts, and raises ENGINE_FAULT; nothing is reset (R214). -/
def engineFail (pkt i : Nat) (s : State) : State :=
  match takeEngine pkt s with
  | none => s
  | some (p, _, s) => raise 512 0 (dropPkt p (count (cDev i) s))

/-- ENGINE_BUDGET_EXCEEDED (R214). -/
def execEngineBudgetExceeded (pkt : Nat) (s : State) : Host.Outcome State Fault Refusal := done (engineFail pkt 23 s)

/-- ENGINE_FAULT (R214): an access outside what the program may reach, or a failed firmware check. -/
def execEngineFault (pkt : Nat) (check : Bool) (s : State) : Host.Outcome State Fault Refusal := done (engineFail pkt (if check then 25 else 24) s)

/-! ## The cipher's return (R291 to R293) -/

/-- CIPHER_RESULT (R293): a message that has been fed gives its result, 30 cycles after its last block in an AES pipeline, and its packet's
list goes on. -/
def execCipherResult (pkt : Nat) (s : State) : Host.Outcome State Fault Refusal :=
  done (match s.cipher.msgs.find? fun m => m.pkt.num == pkt && (m.state == 1 || m.state == 3) with
    | none => s
    | some m =>
      match cipherFinish m (advanceTo (feedEnd s m + (if m.stream then 0 else cycleTime s 0 30)) s) with
      | (none, s) => s
      | (some p, s) => runActions p s)

end Sys2Proof.Machine
end

