-- ==== Sys2Proof/Machine/Receive.lean ====
section
/-! DEFINITION. Frames that enter the pipelines: host frames behind the spoof checks (R162 to R165), frames a line port receives (R33, R169 to
R173, R180), the test generator's checker (R183), the firmware PTP clock (R339, R340), and the close of a receive window (R357). -/

namespace Sys2Proof.Machine

open Sys2Proof

/-! ## Spoof checks (R162 to R165) -/

/-- Where the Ethertype stands behind none, one or two VLAN tags. -/
def typeAt (d : Bytes) : Nat :=
  let tag (o : Nat) : Bool := fldBe d o 2 == 0x8100 || fldBe d o 2 == 0x88A8
  if tag 12 then (if tag 16 then 20 else 16) else 12

/-- The tag control of a frame's outer VLAN tag, 0 without one. -/
def outerTci (d : Bytes) : Nat := if typeAt d = 12 then 0 else fldBe d 14 2

/-- An address of `n` bytes lies in a prefix whose length follows the address in the entry. -/
def inPrefix (n : Nat) (addr entry : Bytes) : Bool :=
  let w := 8 * n - min (8 * n) (fld entry n 1)
  addr.length == n && be addr / 2 ^ w == be (entry.take n) / 2 ^ w

/-- The IPv4 source or ARP sender protocol address of a frame, none in a frame with neither. -/
def ipv4Of (d : Bytes) : Option Bytes :=
  let o := typeAt d
  if fldBe d o 2 = 0x0800 then some (slice d (o + 14) 4) else if fldBe d o 2 = 0x0806 then some (slice d (o + 16) 4) else none

/-- The outer IPv6 source address of a frame. -/
def ipv6Of (d : Bytes) : Option Bytes := if fldBe d (typeAt d) 2 = 0x86DD then some (slice d (typeAt d + 10) 16) else none

/-- A frame passes allow list `l` of its entries (R163). -/
def spoofPass (l : Nat) (d : Bytes) (entries : List Bytes) : Bool :=
  match l with
  | 0 => entries.any fun e => e.take 6 == slice d 6 6
  | 1 => entries.any fun e => fld e 0 2 % 4096 == outerTci d % 4096
  | 2 => (match ipv4Of d with
    | none => true
    | some a => entries.any (inPrefix 4 a))
  | 3 => (match ipv6Of d with
    | none => true
    | some a => entries.any (inPrefix 16 a))
  | _ => (match ecpriAt d with
    | none => true
    | some o => decide (o + 6 ≤ d.length) && entries.any fun e => Nat.land (Nat.xor (fld e 0 2) (fldBe d (o + 4) 2)) (fld e 2 2) == 0)

/-- The first check of R163 that a function's frame fails. Physical functions are not checked. -/
def spoofFail (s : State) (f : Nat) (d : Bytes) : Option Nat :=
  if !isVf f then none
  else (List.range 5).find? fun l =>
    let r := Store.get ({} : Spoof) l (funcOf s f).spoof
    r.enable && !spoofPass l d r.entries

/-- A host frame's data stands in its buffer: it is checked, counted and sent to the host-transmit pipeline (R163, R164, R169, R241). -/
def hostFrame (f : Nat) (t : TxFrame) (d : Bytes) (s : State) : State :=
  let (n, s) := newPktNum s
  let s := match t.buf with
    | some b => updBuf b (fun b => { b with loHolder := some n }) s
    | none => s
  let p : Packet := { num := n, bytes := d, buf := t.buf, fn := some f, tx := some t.tx,
                      launch := if t.timed then some t.launch else none, fromDesc := t.timed, ts := s.time.t, tsUnlocked := unlocked s }
  match spoofFail s f d with
  | some l => endPkt p qSpoof (l + 1) none (count (cFn f (4 + l)) s)
  | none => pipeline p (countBy (cFn f 3) d.length (count (cFn f 2) s))

/-- TX_DATA_READ_COMPLETE (R163, R301): the frame of a queue pair whose first descriptor had TAG `frame` has its data, or its read failed. -/
def execTxDataReadComplete (qp frame : Nat) (data : Bytes) (bad : Bool) (s : State) : Host.Outcome State Fault Refusal :=
  done (match (qpAt s qp).frames.find? (fun (f : TxFrame) => f.reading && f.tx.tag == frame) with
    | none => s
    | some f =>
      if !fnUp s (qpAt s qp).fn || !inService s then s
      else if bad || decide (data.length < f.tx.len) then failTxRead qp frame qDmaFault 3 s
      else match takeRead qp frame s with
        | none => s
        | some (f, s) => hostFrame (qpAt s qp).fn f (data.take f.tx.len) s)

/-! ## The pipelines (R33) -/

/-- Time a pipeline takes for a packet: two cycles of domain 0, 4/3 ns at 1,500 MHz, in 2^-16 ns. -/
def pipePeriod (s : State) : Nat :=
  cycleTime s 0 2

/-- Packets that may stand before a quad's pipeline: at least one of each of its four lanes, since frames of 114 bytes are forwarded
at full line rate on all of them (R33). -/
def pipeSlots : Nat := max 4 Config.pipeDepth

/-- A quad's pipeline takes a packet now: false when it overruns. -/
def pipeToken (quad : Nat) (s : State) : Bool × State :=
  let due := max s.time.t (portAt s (4 * quad)).overNext
  if due - s.time.t ≤ pipeSlots * pipePeriod s then
    (true, updPort (4 * quad) (fun p => { p with overNext := due + pipePeriod s }) s)
  else (false, s)

/-- A received packet enters its quad's ingress pipeline (R33, R169, R254, R271, R354): `n` are the bytes it stores, `lost` counts a frame
that cannot be taken by its port counter. -/
def ingress (port : Nat) (p : Packet) (n : Nat) (lost : Nat → Nat) (s : State) : State :=
  let (ok, s) := pipeToken (quadOf port) s
  if !ok then count (cPort port (lost 8)) s
  else
    let (k, s) := newPktNum s
    match allocBuf n (ownPort port) k false s with
    | .error e => count (cPort port (lost (if e = stQuota then 10 else 9))) s
    | .ok (b, s) =>
      let prio := outerTci p.bytes / 8192
      let p := { p with num := k, buf := some b, port := some port, prio := prio }
      let s := pauseCheck (updBuf b (fun b => { b with ingress := some (port, prio) }) s)
      match (if erroredPkt p then (some p, s) else fhReceive p s) with
      | (none, s) => s
      | (some p, s) => pipeline p s

/-! ## The checker (R183) -/

/-- Bits of the PRBS-31 sequence x^31 + x^28 + 1, taken from the last stage of a register that starts all ones (DEDUCED, unsafe: log 26). -/
def prbsBits : Nat → Nat → List Bool
  | 0, _ => []
  | n + 1, r =>
    let b := xor (r.testBit 30) (r.testBit 27)
    r.testBit 30 :: prbsBits n ((2 * r + b2n b) % 2 ^ 31)

/-- Bytes of bits taken most significant bit first. -/
def packBits : Nat → List Bool → Bytes
  | 0, _ => []
  | n + 1, l => BitVec.ofNat 8 ((l.take 8).foldl (fun a b => 2 * a + b2n b) 0) :: packBits n (l.drop 8)

/-- The `n` payload bytes of a generator's pattern (R182). -/
def patternBytes (g : TestGen) (n : Nat) : Bytes :=
  if g.pattern = 0 then packBits n (prbsBits (8 * n) (2 ^ 31 - 1))
  else if g.pattern = 1 then List.replicate n g.fill
  else (List.range n).map fun i => BitVec.ofNat 8 i

/-- MAGIC of a test frame. -/
def testMagic : Nat := 0x4C595347

/-- A test generator. -/
def genAt (s : State) (q : Nat) : TestGen := Store.get {} q s.gens

/-- Change a test generator. -/
def updGen (q : Nat) (f : TestGen → TestGen) (s : State) : State := { s with gens := Store.upd {} q f s.gens }

/-- The checker takes a matched frame that arrived at `ts` (R183). -/
def checkFrame (d : Bytes) (ts : Nat) (g : TestGen) : TestGen :=
  let h := g.hdr.length
  let seq := fldBe d (h + 8) 8
  let lat : Int := (ts / 65536 : Nat) - (fldBe d (h + 16) 8 : Int)
  let pay := d.drop (h + 24)
  { g with
    checked := (g.checked + 1) % 2 ^ 64
    seqGap := (match g.lastSeq with
      | some l => if l + 1 < seq then g.seqGap + (seq - l - 1) else g.seqGap
      | none => g.seqGap) % 2 ^ 64
    seqOoo := (match g.lastSeq with
      | some l => if seq ≤ l then g.seqOoo + 1 else g.seqOoo
      | none => g.seqOoo) % 2 ^ 64
    payErr := (if pay = patternBytes g pay.length then g.payErr else g.payErr + 1) % 2 ^ 64
    lastSeq := some seq
    latMin := min g.latMin lat
    latMax := max g.latMax lat
    latSum := signed 64 (unsigned 64 (g.latSum + lat)) }

/-- A frame matches a generator's signature: MAGIC at HDR_LEN and then its number (R183). -/
def matchesGen (q : Nat) (g : TestGen) (d : Bytes) : Bool :=
  decide (g.hdr.length + 5 ≤ d.length) && fldBe d g.hdr.length 4 == testMagic && fldBe d (g.hdr.length + 4) 1 == q

/-- The bytes of a matched frame with its whole signature: bytes that a frame cut short before its end lacks are free (DESIGN CHOICE, safe:
log 10). -/
def wholeSignature (h : Nat) (d : Bytes) (s : State) : Bytes × State :=
  if h + 24 ≤ d.length then (d, s)
  else
    let (x, s) := drawFree s
    (d ++ toLe (h + 24 - d.length) x, s)

/-- The quad's checker looks at an error-free frame of its port: true when the frame is consumed. -/
def checker (port : Nat) (d : Bytes) (ts : Nat) (s : State) : Bool × State :=
  let q := quadOf port
  let g := genAt s q
  if g.check && g.port == port && matchesGen q g d then
    let (d, s) := wholeSignature g.hdr.length d s
    (g.consume, updGen q (checkFrame d ts) s)
  else (false, s)

/-! ## The firmware PTP clock (R339, R340) -/

/-- PTP message types. -/
def mSync : Nat := 0
def mDelayReq : Nat := 1
def mFollowUp : Nat := 8
def mDelayResp : Nat := 9
def mAnnounce : Nat := 0xB
def mSignaling : Nat := 0xC

/-- Where a UDP datagram's payload starts, for PTP's ports 319 and 320 over IPv4 without options or IPv6. -/
def udpPtpAt (d : Bytes) : Option Nat :=
  let o := typeAt d + 2
  let u := if fldBe d (o - 2) 2 = 0x0800 ∧ fldBe d o 1 % 16 = 5 ∧ fldBe d (o + 9) 1 = 17 then some (o + 20)
    else if fldBe d (o - 2) 2 = 0x86DD ∧ fldBe d (o + 6) 1 = 17 then some (o + 40) else none
  u.bind fun u => if fldBe d (u + 2) 2 = 319 ∨ fldBe d (u + 2) 2 = 320 then some (u + 8) else none

/-- Where the PTP message of a frame starts that a port's profile reads (R340). -/
def ptpAt (r : PtpPort) (d : Bytes) : Option Nat :=
  let at_ := if r.profile = 1 then
      (if fldBe d 12 2 = 0x88F7 ∧ (fldBe d 0 6 = 0x011B19000000 ∨ fldBe d 0 6 = 0x0180C200000E) then some 14 else none)
    else udpPtpAt d
  at_.bind fun o => if o + 44 ≤ d.length ∧ fldBe d (o + 1) 1 % 16 = 2 ∧ fldBe d (o + 4) 1 = r.domain then some o else none

/-- The clock's own port identity. -/
def ptpIdentity (port : Nat) : Bytes := toBe 8 Config.serial.toNat ++ toBe 2 (port + 1)

/-- The message that the clock uses from a frame: its type and place (R340). -/
def ptpUse (s : State) (port : Nat) (d : Bytes) : Option (Nat × Nat) :=
  let r := (portAt s port).ptp
  if s.time.cfg.source ≠ 2 ∨ r.role = 0 then none
  else (ptpAt r d).bind fun o =>
    let t := fldBe d o 1 % 16
    let best := s.time.bestPort = some port
    if (t = mSync ∨ t = mFollowUp ∨ t = mDelayResp) ∧ best then some (t, o)
    else if t = mDelayReq ∧ !best then some (t, o)
    else if t = mAnnounce ∧ r.role = 1 ∧ o + 64 ≤ d.length then some (t, o)
    else if t = mSignaling ∧ r.profile = 2 then some (t, o)
    else none

/-- A 10-byte IEEE 1588 time of a message, in 2^-16 ns. -/
def ptpTime (d : Bytes) (o : Nat) : Int := ((fldBe d o 6 * 1000000000 + fldBe d (o + 6) 4) * 65536 : Nat)

/-- The correction field of a message, in 2^-16 ns. -/
def ptpCorr (d : Bytes) (o : Nat) : Int := signed 64 (fldBe d (o + 8) 8)

/-- Change what the clock knows of a port. -/
def updPtp (port : Nat) (f : PtpPort → PtpPort) (s : State) : State := updPort port (fun p => { p with ptp := f p.ptp }) s

/-- The header of a PTP message the clock sends (IEEE 1588, PRESUMED, unsafe: log 15). -/
def ptpHeader (r : PtpPort) (port ty flags len seq : Nat) : Bytes :=
  toBe 1 ty ++ toBe 1 2 ++ toBe 2 len ++ toBe 1 r.domain ++ [0] ++ toBe 2 flags ++ zeros 8 ++ zeros 4 ++ ptpIdentity port ++ toBe 2 seq ++ [0] ++
  toBe 1 (unsigned 8 r.logSync)

/-- Send a PTP message on queue 8p + PRIO of its port (R340): its Cistern buffer is firmware's, and without one nothing is sent. `stamp`
says that the origin time is written as the frame leaves. -/
def ptpSend (port ty flags seq : Nat) (body answered : Bytes) (stamp : Bool) (report : Nat) (s : State) : State :=
  let r := (portAt s port).ptp
  let m := ptpHeader r port ty flags (34 + body.length) seq ++ body
  let pre := if r.profile = 1 then toBe 6 0x011B19000000 ++ toBe 6 (Config.portMac port).toNat ++ toBe 2 0x88F7
    else Config.ptpUdp port answered m.length
  let b := pre ++ m
  let (k, s) := newPktNum s
  match allocBuf b.length ownFw k true s with
  | .error _ => s
  | .ok (n, s) =>
    joinNet (8 * port + r.prio) { num := k, bytes := b, buf := some n, epoch := s.tables.epoch, ptp := report,
                                  stamps := if stamp then [(pre.length + 34, 1)] else [] } s

/-- The measurement of a Sync on the chosen port: its origin time against its arrival (R339). -/
def ptpMeasure (port : Nat) (t1 : Int) (t2 : Nat) (s : State) : State :=
  measure ((t2 : Int) - t1 - (portAt s port).ptp.meanDelay) (updPtp port (fun r => { r with t1 := some t1, t2 := some t2 }) s)

/-- The port that the alternate BMCA chooses: the best data set heard among the ports of ROLE 1, the lowest port of equals. -/
def bmca (s : State) : Option Nat :=
  ((List.range 16).foldl (fun (a : Option (Nat × Nat)) p =>
    let r := (portAt s p).ptp
    match (if r.role = 1 then r.announce else none), a with
    | none, a => a
    | some x, none => some (x, p)
    | some x, some y => if x < y.1 then some (x, p) else some y) none).map (·.2)

/-- The first unicast negotiation TLV of a Signaling message: its type and data. -/
def ptpTlv (d : Bytes) (o : Nat) : Nat × Bytes := (fldBe d (o + 44) 2, slice d (o + 48) (fldBe d (o + 46) 2))

/-- The clock takes a message that arrived at timestamp `t2` (R339, R340). -/
def ptpTake (port ty o : Nat) (d : Bytes) (t2 : Nat) (s : State) : State :=
  let r := (portAt s port).ptp
  if ty = mSync then
    if bit (fldBe d (o + 6) 1) 1 then updPtp port (fun r => { r with t1 := some (ptpCorr d o), t2 := some t2 }) s
    else ptpMeasure port (ptpTime d (o + 34) + ptpCorr d o) t2 s
  else if ty = mFollowUp then
    match r.t1, r.t2 with
    | some c, some t => ptpMeasure port (ptpTime d (o + 34) + ptpCorr d o + c) t s
    | _, _ => s
  else if ty = mDelayReq then
    ptpSend port mDelayResp 0 (fldBe d (o + 30) 2) (stampBytes t2 1 ++ slice d (o + 20) 10) d false 0 s
  else if ty = mDelayResp then
    match r.t1, r.t2, r.t3 with
    | some t1, some t2, some t3 =>
      if slice d (o + 44) 10 = ptpIdentity port then
        let t4 := ptpTime d (o + 34) - ptpCorr d o
        updPtp port (fun r => { r with meanDelay := (((t2 : Int) - t1) + (t4 - t3)) / 2, t3 := none }) s
      else s
    | _, _, _ => s
  else if ty = mAnnounce then
    let s := updPtp port (fun r => { r with announce := some (fldBe d (o + 48) 15) }) s
    { s with time := { s.time with bestPort := bmca s } }
  else
    let (k, v) := ptpTlv d o
    if k = 4 then
      ptpSend port mSignaling 0 (fldBe d (o + 30) 2) (slice d (o + 20) 10 ++ toBe 2 5 ++ toBe 2 8 ++ v.take 6 ++ [0, 1]) d false 0
        (updPtp port (fun r => { r with granted := true }) s)
    else if k = 5 then updPtp port (fun r => { r with granted := true }) s
    else if k = 6 then
      ptpSend port mSignaling 0 (fldBe d (o + 30) 2) (slice d (o + 20) 10 ++ toBe 2 7 ++ toBe 2 2 ++ v.take 2) d false 0
        (updPtp port (fun r => { r with granted := false }) s)
    else s

/-! ## A frame arrives on a line port (R169 to R173, R180, R183) -/

/-- Error flags of a received frame (R171). -/
def macFlags (port : Nat) (f : RxFrame) (s : State) : Nat :=
  let n := f.data.length + 4
  let max_ := (portAt s port).cfg.maxFrame
  b2n f.symErr + 2 * b2n (decide (fcs32 f.data ≠ f.fcs.toNat)) + 4 * b2n (decide (n < 64)) + (if max_ < n then 24 else 0)

/-- Count a received frame, and an errored one under its first matching row (R171). -/
def countArrival (port len flags : Nat) (s : State) : State :=
  let s := countRx port len s
  match (List.range 4).find? (fun i => bit flags i) with
  | some i => count (cPort port (4 + i)) s
  | none => s

/-- A change out of service keeps new packets out (R26); the MAC takes control frames as before. -/
def admits (s : State) : Bool :=
  match s.transit with
  | some x => x.target != .priming && x.target != .dormant && x.target != .shutIn
  | none => true

/-- A frame whose start-of-frame delimiter came at `sfd` has arrived at a port's receiver. -/
def arrive (port : Nat) (f : RxFrame) (sfd : Nat) (s : State) : State :=
  let flags := macFlags port f s
  let n := f.data.length + 4
  let stored := if bit flags 4 then (f.data ++ toLe 4 f.fcs.toNat).take (portAt s port).cfg.maxFrame else f.data
  let ts := stampAt sfd (-(portAt s port).ptp.rxDelay)
  let s := countArrival port f.data.length flags s
  if n < 14 then s
  else
    let (eaten, s) := if flags = 0 then checker port f.data ts s else (false, s)
    if isPauseFrame f.data then (if flags = 0 then pauseHonour port f.data s else count (cPort port 24) s)
    else if !admits s || eaten then s
    else match (if flags = 0 then ptpUse s port f.data else none) with
      | some (ty, o) => ptpTake port ty o f.data ts s
      | none =>
        ingress port { bytes := stored, ts := ts, tsUnlocked := unlocked s, macErr := flags } (min n (portAt s port).cfg.maxFrame) id s

/-- A frame comes from the wire of a line port, as its loopback mode has it (R180). In remote loopback the checker sees it too, and a frame
that it consumes is freed and not sent back (R183; DEDUCED, unsafe: log 43). -/
def lineReceive (port : Nat) (f : RxFrame) (s : State) : State :=
  if !lineUp s port then s
  else
    let lb := (portAt s port).lb
    if lb = 1 ∨ lb = 2 then s
    else if lb = 3 then
      let flags := macFlags port f s
      let s := countArrival port f.data.length flags s
      let (eaten, s) := if flags = 0 then checker port f.data (stampAt s.time.t (-(portAt s port).ptp.rxDelay)) s else (true, s)
      if eaten then s else emit (.lineFrame port f.data false) (countTx port f.data.length s)
    else arrive port f s.time.t s

/-- LINE_FRAME_RECEIVE (R171). -/
def execLineFrameReceive (port : Nat) (f : RxFrame) (s : State) : Host.Outcome State Fault Refusal := done (lineReceive port f s)

/-- PAUSE_FRAME_RECEIVE (R173): a pause or PFC frame arrives with a good FCS. -/
def execPauseFrameReceive (port : Nat) (data : Bytes) (s : State) : Host.Outcome State Fault Refusal :=
  done (lineReceive port { data := data, fcs := BitVec.ofNat 32 (fcs32 data) } s)

/-- PTP_SYNC (R339): the frame arrives on its port. -/
def execPtpSync (port : Nat) (f : RxFrame) (s : State) : Host.Outcome State Fault Refusal := done (lineReceive port f s)

/-- FOLLOW_UP (R340). -/
def execFollowUp (port : Nat) (f : RxFrame) (s : State) : Host.Outcome State Fault Refusal := done (lineReceive port f s)

/-- DELAY_REQ (R340). -/
def execDelayReq (port : Nat) (f : RxFrame) (s : State) : Host.Outcome State Fault Refusal := done (lineReceive port f s)

/-- DELAY_RESP (R340). -/
def execDelayResp (port : Nat) (f : RxFrame) (s : State) : Host.Outcome State Fault Refusal := done (lineReceive port f s)

/-- ANNOUNCE (R340). -/
def execAnnounce (port : Nat) (f : RxFrame) (s : State) : Host.Outcome State Fault Refusal := done (lineReceive port f s)

/-- SIGNALING (R340). -/
def execSignaling (port : Nat) (f : RxFrame) (s : State) : Host.Outcome State Fault Refusal := done (lineReceive port f s)

/-- PTP_TRANSMIT (R340): a Sync or an Announce of a master port, a Delay_Req of the chosen port, or a Signaling request under G.8275.2. -/
def execPtpTransmit (port kind : Nat) (s : State) : Host.Outcome State Fault Refusal :=
  done (
    let r := (portAt s port).ptp
    let best := decide (s.time.bestPort = some port)
    if s.time.cfg.source ≠ 2 ∨ r.role = 0 ∨ !lineUp s port then s
    else
      let next := updPtp port (fun r => { r with seqNo := (r.seqNo + 1) % 65536 }) s
      if kind = mSync ∧ !best then
        (if r.oneStep then ptpSend port mSync 0 r.seqNo (zeros 10) [] true 0 next else ptpSend port mSync 0x0200 r.seqNo (zeros 10) [] false 2 next)
      else if kind = mDelayReq ∧ best then ptpSend port mDelayReq 0 r.seqNo (zeros 10) [] false 1 next
      else if kind = mAnnounce ∧ !best then
        ptpSend port mAnnounce 0 r.seqNo
          (Config.announceBody port ((s.time.bestPort.bind fun b => (portAt s b).ptp.announce).getD 0)) [] false 0 next
      else if kind = mSignaling ∧ r.profile = 2 then
        ptpSend port mSignaling 0 r.seqNo (List.replicate 10 0xFF ++ toBe 2 4 ++ toBe 2 6 ++ toBe 1 0 ++ toBe 1 (unsigned 8 r.logSync) ++ toBe 4 300) [] false 0 next
      else s)

/-! ## The close of a receive window (R357) -/

/-- The next symbol of a flow's grid whose receive window closes: its T_sym in 2^-16 ns. -/
def nextClose (s : State) (n : Nat) (f : Flow) : Option Int :=
  let c := carrierAt s f.carrier
  let from_ : Int := (s.time.t : Int) - f.winB * 65536
  let last : Int := (Store.get 0 n s.fh.closed : Nat)
  let k := slotAtTime c (max from_ (last - 1))
  let syms (k : Int) : List Int :=
    let (g, sub, sl) := slotParts c k
    (List.range 14).map fun i => symStart c g sub sl i
  (syms k ++ syms (k + 1)).find? fun t => decide (from_ ≤ t) && decide (last ≤ t)

/-- FH_WINDOW_CLOSE (R357): the next window of a receive flow closes at T_sym + WIN_B. -/
def execFhWindowClose (flow : Nat) (s : State) : Host.Outcome State Fault Refusal :=
  done (
    let f := flowAt s flow
    if !f.enable || f.tx || !carrierRuns s f.carrier || !timeRuns s then s
    else match nextClose s flow f with
      | none => s
      | some t =>
        { (advanceTo (t + f.winB * 65536).toNat s) with fh := { s.fh with closed := Store.set 0 flow (t.toNat + 1) s.fh.closed } })

end Sys2Proof.Machine
end

