-- ==== Sys2Proof/Machine/Egress.lean ====
section
/-! DEFINITION. Egress: the scheduler's dequeue (R264 to R268), the timed band (R269, R270), frames leaving a line port (R170, R241, R309, R341,
R430) or a stitch port (R386), low-power idle (R175), and the test generator's frames (R182). -/

namespace Sys2Proof.Machine

open Sys2Proof

/-- Length of frame `n` of a run, FCS included. -/
def testLen (g : TestGen) (n : Nat) : Nat := g.lenMin + n % (g.lenMax - g.lenMin + 1)

/-- A running generator of the port has a frame to send now, which would be off the wire before the port's next L (R182). -/
def genDue (s : State) (port : Nat) : Bool :=
  lineUp s port && s.gens.any fun x =>
    x.2.run && x.2.port == port && decide (x.2.nextAt ≤ s.time.t) && beforeTimed s port (testLen x.2 x.2.sent + 20)

/-- A port has nothing to send: no frame on the wire, none in a queue that drains to it, and none due of a generator. -/
def portIdle (s : State) (port : Nat) : Bool :=
  (portAt s port).onWire.isNone && !genDue s port &&
  !(s.cis.queues.any fun (x : Nat × List Packet) => !x.2.isEmpty && portOfQueue s.tables.active x.1 == some port)

/-- Wake time of a port's PHY type in 2^-16 ns; 0 says that the type defines no low-power idle (R175). -/
def phyWake (s : State) (port : Nat) : Nat :=
  let c := (portAt s port).cfg
  Config.phyWakeNs c.lanes c.rate * 65536

/-- The earliest instant at which a port's transmitter can start a frame now: the wire is free, and awake (R175). -/
def txReady (s : State) (port : Nat) : Nat :=
  let p := portAt s port
  max (s.time.t + (if p.lpiOn then phyWake s port else 0)) p.txFree

/-- Put a packet on a port's wire from an instant on. -/
def startFrame (port at_ : Nat) (p : Packet) (s : State) : State :=
  let s := advanceTo at_ s
  updPort port (fun x => { x with onWire := some p, sfd := s.time.t, lpiOn := false }) s

/-- Take the head of a network egress queue. -/
def popQueue (q : Nat) (s : State) : State := wmCheck (updQueue q (·.drop 1) s)

/-- A host-sent frame is longer than its port's MAX_FRAME, FCS included (R170). -/
def tooLong (s : State) (port : Nat) (p : Packet) : Bool :=
  p.tx.isSome && decide ((portAt s port).cfg.maxFrame < p.bytes.length + 4)

/-- Metadata of a packet that crosses a stitch link, 16 bytes (R385; the layout is DESIGN CHOICE, unsafe: log 25). -/
def pktMeta (p : Packet) : Bytes :=
  toLe 2 p.cls ++ toLe 1 p.colour ++ [0] ++ toLe 2 p.queue ++ toLe 2 p.epoch ++ toLe 8 (p.ts / 65536)

/-- Frame bytes that a PKT frame can carry (R385). -/
def pktMax : Nat := 9724

/-- A stitch link can take a packet now: credits and room for it, nothing waiting before it (R388, R389). -/
def stitchTakes (s : State) (port : Nat) (p : Packet) : Bool :=
  let u := stitchAt s port
  u.waiting.isEmpty && creditOk u uPkt (p.bytes.length + 16) && retryRoom u uPkt (p.bytes.length + 16)

/-- A packet that starts on a port is sent. -/
def goesOut (s : State) (port : Nat) (p : Packet) : Bool :=
  !tooLong s port p && ((portAt s port).cfg.mode != 2 || (!pktPoisoned s p && decide (p.bytes.length ≤ pktMax)))

/-- A packet that starts on a port: sent, or freed before a byte of it leaves (R170, R385, R430). -/
def launchPkt (port : Nat) (p : Packet) (s : State) : State :=
  if tooLong s port p then endPkt p qMalformed 0x50 none s
  else if (portAt s port).cfg.mode = 2 then
    if pktPoisoned s p then dropPkt p (poisonConsumed 1 (count (cPort port 12) s))
    else if pktMax < p.bytes.length then dropPkt p s
    else startFrame port s.time.t p s
  else startFrame port s.time.t p s

/-- A port root picks its next packet (R264 to R268): the state in which it starts. A test generator's frame goes ahead of the queues (R182). A
stitch port whose link cannot take the packet waits. -/
def portDequeue (port : Nat) (s0 : State) : State :=
  let s := advanceTo (txReady s0 port) s0
  match if genDue s port then none else rootPick port (fun _ _ => true) s with
  | none => s0
  | some (g, q, size, s) =>
    match Store.get [] q s.cis.queues with
    | [] => s0
    | p :: _ =>
      if (portAt s port).cfg.mode = 2 ∧ !stitchTakes s port p then s0
      else
        let s := sample 2 q (((s.time.t : Int) - p.joined) / 65536) s
        let k := b2n (goesOut s port p)
        launchPkt port p (chargeNodes port g q (size * k) k (fun _ _ => true) (popQueue q s))

/-- The host-transmit root picks the next ring whose frame the Pumps read (R254, R264, R318). -/
def hostDequeue (s : State) : State :=
  if !inService s then s
  else match rootPick 16 (txFits s) s with
    | none => s
    | some (g, q, size, s) =>
      let fit := txFits s
      chargeNodes 16 g q size 1 fit (startTxRead q s)

/-- EGRESS_DEQUEUE (R267). -/
def execEgressDequeue (root : Nat) (s : State) : Host.Outcome State Fault Refusal :=
  done (if root = 16 then hostDequeue s else if root < 16 ∧ portFree s root then portDequeue root s else s)

/-- TIMED_LAUNCH (R269, R270): the queue's head starts at L, when it is the timed packet of its port that goes next. -/
def execTimedLaunch (queue : Nat) (s : State) : Host.Outcome State Fault Refusal :=
  done (match portOfQueue s.tables.active queue, Store.get [] queue s.cis.queues with
    | some port, p :: _ =>
      let l := launchAt p
      let next := (freeHeads s port).all fun x => decide (l < x.1 ∨ (l = x.1 ∧ queue ≤ x.2))
      if !(freeHeads s port).contains (l, queue) || !next || !portFree s port || ((portAt s port).cfg.mode == 2 && !stitchTakes s port p) then s
      else
        let r := netRec s.tables.active queue
        let start := max (l * 65536) (txReady s port)
        let s := advanceTo start s
        let late := decide ((l + r.lateTol) * 65536 < s.time.t)
        let s := popQueue queue (sample 2 queue (((s.time.t : Int) - p.joined) / 65536) s)
        let s := if late then count (cPort port 22) s else s
        if late && r.lateDrop then endPkt p qLate 0 none s
        else launchPkt port { p with late := late } (if goesOut s port p then chargeTimed queue (wireSize p) s else s)
    | _, _ => s)

/-! ## A frame's last byte leaves (R170, R241, R309, R341, R430) -/

/-- A packet's bytes with its departure stamps written (R341). -/
def stampFrame (s : State) (port : Nat) (p : Packet) (sfd : Nat) : Bytes :=
  p.stamps.foldl (fun d x =>
    let v := stampBytes (stampTx s port sfd) x.2
    if x.1 + v.length ≤ d.length then patch d x.1 v else d) (padFrame p.bytes)

/-- The firmware PTP clock is told of the departure of its own frame: a Delay_Req's t3, or the Follow_Up of a two-step Sync (R340). -/
def ptpDeparted (port : Nat) (p : Packet) (d : Bytes) (t : Nat) (s : State) : State :=
  if p.ptp = 1 then updPtp port (fun r => { r with t3 := some t }) s
  else if p.ptp = 2 then
    match ptpAt (portAt s port).ptp d with
    | some o => ptpSend port mFollowUp 0 (fldBe d (o + 30) 2) (stampBytes t 1) [] false 0 s
    | none => s
  else s

/-- A frame leaves an Ethernet port. In loopback modes 1 and 2 it comes back to the port's own receiver (R180). -/
def departLine (port : Nat) (p : Packet) (sfd : Nat) (s : State) : State :=
  let bad := pktPoisoned s p
  let d := stampFrame s port p sfd
  let t := stampTx s port sfd
  let s := wireOut port d bad s
  let s := if bad then poisonConsumed 1 (count (cPort port 12) s) else s
  let s := endPkt p (if p.late then qLate else qOk) 0 (some (t / 65536, unlocked s)) s
  let s := ptpDeparted port p d t s
  let lb := (portAt s port).lb
  if (lb = 1 ∨ lb = 2) ∧ admits s then
    arrive port { data := d, fcs := BitVec.ofNat 32 (if bad then Nat.xor (fcs32 d) 0xFFFFFFFF else fcs32 d) } sfd s
  else s

/-- A packet crosses a stitch link: its PKT frame goes out, and the packet leaves its epoch (R241, R386). -/
def departStitch (port : Nat) (p : Packet) (sfd : Nat) (s : State) : State :=
  let t := stampTx s port sfd
  let d := p.stamps.foldl (fun d x =>
    let v := stampBytes t x.2
    if x.1 + v.length ≤ d.length then patch d x.1 v else d) p.bytes
  let s := sendFrame port uPkt (pktMeta p ++ d) (countTx port d.length s)
  endPkt p (if p.late then qLate else qOk) 0 (some (t / 65536, unlocked s)) s

/-- The frame on a port's wire leaves: its last byte is out, and the wire is free 20 bytes later. -/
def wireDone (port : Nat) (s : State) : State :=
  let x := portAt s port
  match x.onWire with
  | none => s
  | some p =>
    let n := max 60 p.bytes.length + 4
    let rate := portMbps x
    let s := advanceTo (x.sfd + bitTime (8 * n) rate) s
    let s := updPort port (fun x => { x with onWire := none, txFree := x.sfd + bitTime (8 * (n + 20)) rate, idleSince := s.time.t }) s
    if x.cfg.mode = 2 then departStitch port p x.sfd s else departLine port p x.sfd s

/-- FRAME_DEPARTURE (R241): the last byte of the frame on a port's wire leaves. -/
def execFrameDeparture (port : Nat) (s : State) : Host.Outcome State Fault Refusal := done (wireDone port s)

/-! ## Low-power idle (R175) -/

/-- LPI_ENTRY: nothing to send for LPI_IDLE on an Ethernet port whose PHY type defines low-power idle. -/
def execLpiEntry (port : Nat) (s : State) : Host.Outcome State Fault Refusal :=
  done (
    let p := portAt s port
    if p.cfg.lpi && lineUp s port && !p.lpiOn && p.lb != 3 && portIdle s port && phyWake s port != 0 then
      updPort port (fun p => { p with lpiOn := true }) (advanceTo (p.idleSince + p.cfg.lpiIdle * 1000 * 65536) s)
    else s)

/-- LPI_WAKE: the transmitter wakes the PHY type's wake time ahead of the port's next L. -/
def execLpiWake (port : Nat) (s : State) : Host.Outcome State Fault Refusal :=
  done (
    if !(portAt s port).lpiOn then s
    else match ((freeHeads s port).map (·.1)).min? with
      | none => s
      | some l => updPort port (fun p => { p with lpiOn := false }) (advanceTo (l * 65536 - phyWake s port) s))

/-! ## Test generator frames (R182) -/

/-- Frame `n` of generator `q` whose delimiter leaves at `ns`, FCS excluded. -/
def testFrame (g : TestGen) (q n ns : Nat) : Bytes :=
  let len := testLen g n - 4
  g.hdr ++ toBe 4 testMagic ++ toBe 1 q ++ zeros 3 ++ toBe 8 n ++ toBe 8 ns ++ patternBytes g (len - (g.hdr.length + 24))

/-- TESTGEN_FRAME (R182): the next frame of a running generator goes out between the scheduler's frames; none that would still be on the wire
at the port's next L. -/
def execTestgenFrame (gen : Nat) (s : State) : Host.Outcome State Fault Refusal :=
  done (
    let g := genAt s gen
    let p := portAt s g.port
    if !g.run || !lineUp s g.port || p.onWire.isSome then s
    else
      let len := testLen g g.sent
      let s' := advanceTo (max g.nextAt (txReady s g.port)) s
      if !beforeTimed s' g.port (len + 20) then s
      else
        let s := s'
        let start := s.time.t
        let d := testFrame g gen g.sent (start / 65536)
        let rate := portMbps p
        let pace := if g.rateKbps = 0 then rate * 1000 else g.rateKbps
        let s := updPort g.port (fun p => { p with lpiOn := false, txFree := start + bitTime (8 * (len + 20)) rate, idleSince := start + bitTime (8 * len) rate }) s
        let s := updGen gen (fun g => { g with
          sent := (g.sent + 1) % 2 ^ 64
          run := !(g.count != 0 && decide (g.count ≤ g.sent + 1))
          nextAt := start + (if pace = 0 then 0 else 8 * (len + 20) * 65536 * 1000000 / pace) }) s
        let s := wireOut g.port d false s
        if p.lb = 1 ∨ p.lb = 2 then arrive g.port { data := d, fcs := BitVec.ofNat 32 (fcs32 d) } start s else s)

end Sys2Proof.Machine
end

