-- ==== Sys2Proof/Machine/Gate.lean ====
section
/-! DEFINITION. The validation gate (R100, R101) and the transitions of R22. -/

namespace Sys2Proof.Machine

open Sys2Proof

/-- The Cistern quota of the device: the pool layout's total less every pool's reserve, in KiB (R151). -/
def quotaTotal (s : State) : Nat :=
  ((List.range 8).map fun i => ((s.cis.layout.getD i (0, 0)).1 - (s.cis.layout.getD i (0, 0)).2) * poolSize i).sum / 1024

/-- What a function holds of the Cistern quota: one with no cap holds none of it (R150, R151). -/
def quotaHeld (f : Func) : Nat := if f.cisternKib = 0xFFFFFFFF then 0 else f.cisternKib

/-- Function allocations exceed a device pool (R100, R151, R154). -/
def allocOver (s : State) : Bool :=
  let total (f : Func → Nat) : Nat := (s.funcs.filter fun (x : Nat × Func) => x.2.created).foldl (fun a x => a + f x.2) 0
  decide (quotaTotal s < total quotaHeld) || decide (16384 < total (·.eaxcEntries)) ||
  decide (16384 < total (·.qpCount)) || decide (8192 < total (·.vecCount)) || decide (16384 < total (·.policers)) ||
  decide (33554432 < total (·.emEntries)) || decide (65536 < total (·.sieveEntries)) || decide (131072 < total (·.cipherCtx)) ||
  -- a block that found no place beside the others stands beyond the pool (R152)
  s.funcs.any fun (x : Nat × Func) => x.2.created && (decide (16384 < x.2.qpBase + x.2.qpCount) || decide (8192 < x.2.vecBase + x.2.vecCount))

/-- The image fault held, when its code is one of the gate's (R100). -/
def faultOf (s : State) (code : Nat) : Option Nat := if s.tables.imageFault.any (fun v => v % 65536 == code) then s.tables.imageFault else none

/-- The first check of the gate that fails, as a reason value; none when the gate passes (R100). -/
def gateReason (s : State) : Option Nat :=
  if !s.entropyReady && !s.entropyFailed then some 0x0001
  else if s.entropyFailed then some 0x0002
  else if s.cis.layout.isEmpty then some 0x0010
  else match (faultOf s 0x0011).orElse fun _ => (faultOf s 0x0012).orElse fun _ => faultOf s 0x0013 with
    | some v => some v
    | none =>
      if s.tables.loading then some 0x0014
      else match (faultOf s 0x0015).orElse fun _ => refReason s.tables.active s with
        | some v => some v
        | none => match s.tables.written.min? with
          | some ty => some (0x0030 + 65536 * ty)
          | none =>
            if s.tables.commit.isSome then some 0x0031
            else match layoutBad s.cis.layout with
              | some i => some (0x0040 + 65536 * i)
              | none =>
                if allocOver s then some (0x0041 + 65536 * 3)
                else if s.tables.uncorrLatch then some 0x0050
                else none

/-- A MODE_SET has failed the gate: PRIMING_BLOCKED is raised (R101). -/
def gateFails (reason : Nat) (s : State) : State := raise 64 reason { s with blocked := true, blockReason := reason }

/-- A loopback or a test generator is active (R185). -/
def loopActive (s : State) : Bool :=
  (s.ports.any fun (x : Nat × PortSt) => x.2.lb != 0) || s.gens.any fun (x : Nat × TestGen) => x.2.run || x.2.check

/-- A wake event is pending: latched and enabled (R22, R406). -/
def wakePending (s : State) : Bool := (List.range 8).any fun k => s.wh.latched.getLsbD k && wakeEnabled s k

/-- The hottest sensor is below the clamp point of 105 degrees (R22, R141). -/
def coolEnough (s : State) : Bool := decide (hottest s < 105 * 16)

/-- A change of mode that MODE_SET may make now (R22, R24): the refusal otherwise. The gate is not looked at here. -/
def modeChange (s : State) (target : Mode) : Except Answer Unit :=
  match s.mode, target with
  | .priming, .proving => .ok ()
  | .priming, .flowing => .ok ()
  | .proving, .flowing => if loopActive s then .error (err stState 1) else .ok ()
  | .flowing, .proving => .ok ()
  | .proving, .priming => .ok ()
  | .flowing, .priming => .ok ()
  | .proving, .dormant => if wakePending s then .error (err stState 0) else .ok ()
  | .flowing, .dormant => if wakePending s then .error (err stState 0) else .ok ()
  | .priming, .shutIn => .ok ()
  | .proving, .shutIn => .ok ()
  | .flowing, .shutIn => .ok ()
  | .dormant, .shutIn => .ok ()
  | .shutIn, .priming => if coolEnough s then .ok () else .error (err stState 4)
  | _, _ => .error (err stState 0)

/-- What the shared checks need to know of GATE_CHECK, opcode 0x0202. -/
def infoGateCheck : OpInfo := { code := 0x0202, modes := [.priming] }

/-- GATE_CHECK (R101, R103). -/
def execGateCheck (c : Cmd) (s : State) : Host.Outcome State Fault Refusal :=
  done (runCommand infoGateCheck (readBody fun _ _ s => ok ((gateReason s).getD 0) 0) c s)

end Sys2Proof.Machine
end

