-- ==== Sys2Proof/Machine/Links.lean ====
section
/-! DEFINITION. The Unris link of a stitch port: acknowledgement, retry and loss (R384 to R389, R401), replies that come back over it (R54, R55),
packets and commands it brings (R386, R387), width steps (R176, R177, R391) and rests (R402, R403). -/

namespace Sys2Proof.Machine

open Sys2Proof

/-! ## Replies of forwarded commands (R54, R245, R395) -/

/-- A forwarding entry gets its outcome: it goes, and the answer goes to its group entry or back to where the command came from, with REMOTE
set. The bytes that came with it are written at OUT_ADDR. -/
def entryDone (e : FwdEntry) (a : Answer) (s : State) : State :=
  let s := { s with fwd := s.fwd.filter fun x => x.num != e.num }
  match groupOpOf s e.origin with
  | some g => memberAnswer g e.member a s
  | none => replyIfRunning { e.origin with remote := true } { a with outAddr := e.outAddr } s

/-- A reply arrives for an entry whose tag may be TIMED_OUT (R51, R54). -/
def replyArrives (e : FwdEntry) (a : Answer) (s : State) : State :=
  if e.timedOut then
    let s := { s with fwd := s.fwd.filter fun x => x.num != e.num }
    match chanFn s e.origin.chan with
    | some f => count (cFn f 9) s
    | none => s
  else entryDone e a s

/-- FORWARDED_REPLY (R54): the unit below answers the command of a forwarding entry. -/
def execForwardedReply (entry : Nat) (answer : Reply) (s : State) : Host.Outcome State Fault Refusal :=
  done (match s.fwd.find? (fun (x : FwdEntry) => x.num == entry) with
    | none => s
    | some e => replyArrives e { status := answer.status, detail := answer.detail, r0 := answer.r0, r1 := answer.r1, out := answer.out.take 4096 } s)

/-! ## Loss (R401) -/

/-- A direct link to a member other than a port: a working stitch port whose partner has the member's serial (R397). -/
def otherRoute (s : State) (m : Member) (port : Nat) : Option Nat :=
  (List.range 16).find? fun p => p != port && stitchUp s p && fld (stitchAt s p).hello 0 8 == m.serial && !(stitchAt s p).hello.isEmpty

/-- Routes that led by a lost port are computed again (R397). -/
def reroute (port : Nat) (s : State) : State :=
  { s with aq := { s.aq with members := s.aq.members.map fun (x : Nat × Member) =>
      (if x.2.route == some port then (x.1, { x.2 with route := otherRoute s x.2 port }) else x) } }

/-- An armed group change ends here without a switch (R399). -/
def disarmGroup (s : State) : State :=
  match s.aq.armed with
  | none => s
  | some x =>
    let s := { s with aq := { s.aq with armed := none } }
    if x.isMode then { s with armedMode := none } else disarmCommit s

/-- A forwarding entry whose link is lost: resent once along a new route when it is IDEMPOTENT, else LINK_LOST (R50, R401). The tag stays as
TIMED_OUT for a late RSP. -/
def entryLost (e : FwdEntry) (s : State) : State :=
  match (if e.idem ∧ !e.resent then routeTo s e.member else none), freeFwd s with
  | some p, some n =>
    let seq := nextFwdSeq s p
    let b := patch e.body 4 (toLe 4 seq.toNat)
    let b := patch b 60 (toLe 4 (crc32c (b.take 60 ++ b.drop 64)))
    sendFrame p uCmd b (putFwd { e with num := n, port := some p, outSeq := seq, resent := true }
      (bumpFwdSeq p { s with fwd := s.fwd.filter fun x => x.num != e.num }))
  | _, _ =>
    let s := entryDone e (err stLinkLost 0) s
    { s with fwd := s.fwd ++ [{ e with timedOut := true }] }

/-- A member that had confirmed or run a group change is out of reach before the change instant (R399 step 5): AQ_COMMIT_SPLIT. -/
def splitChange (port : Nat) (s : State) : State :=
  match s.aq.change with
  | none => s
  | some x =>
    if nowNs s < x.atNs ∧ s.aq.members.any (fun (m : Nat × Member) => m.2.route == some port && !x.waiting.contains m.1) then raise 1092 0 s else s

/-- A stitch link is lost (R401): what waited on it is dealt with in order. -/
def loseLink (port : Nat) (s : State) : State :=
  let u := stitchAt s port
  if u.lost then s
  else
    let pkts := ((u.retry ++ u.waiting).filter fun f => f.ty == uPkt).length
    let s := countBy (cPort port 20) pkts s
    let s := splitChange port s
    let s := updStitch port (fun u => { u with lost := true, retry := [], waiting := [], replays := 0, resting := false, restPend := false,
                                               listenAt := none, proposal := none, stepTo := none }) s
    let s := reroute port s
    let s := (s.fwd.filter fun (e : FwdEntry) => e.port == some port && !e.timedOut).foldl (fun t e => entryLost e t) s
    -- a join on the link ends; an armed member with no route to its gateway disarms
    let s := match s.aq.join with
      | some j =>
        if j.port = port then
          let s := { s with aq := { s.aq with join := none } }
          match j.ref with
          | some r => replyIfRunning r (err stLinkLost 0) s
          | none => s
        else s
      | none => s
    let cut := s.aq.group.isSome && s.aq.gateway != s.aq.index && (routeTo s s.aq.gateway).isNone
    if cut then disarmGroup s else s

/-! ## Acknowledgement and retry (R388, R389) -/

/-- Frames up to the acknowledged one leave the retry buffer; returned credits are taken, and waiting frames go out. -/
def takeAck (port : Nat) (h : Bytes) (s : State) : State :=
  let ack := fld h 2 2 % 4096
  s |> updStitch port (fun u =>
      let left := if bit (fld h 2 2) 12 then u.retry.filter (fun f => decide (2048 ≤ (ack + 4096 - f.seq) % 4096)) else u.retry
      { u with retry := left, replays := if left.length < u.retry.length then 0 else u.replays,
               cred0 := u.cred0 + fld h 6 1, cred1 := u.cred1 + fld h 7 1 })
    |> drainWaiting port ((stitchAt s port).waiting.length + 1)

/-- Replay every unacknowledged frame in order; after eight replays without progress the link is abandoned (R389). -/
def replay (port : Nat) (s : State) : State :=
  let u := stitchAt s port
  if u.retry.isEmpty then s
  else if 8 ≤ u.replays then loseLink port s
  else u.retry.foldl (fun t f => putFrame port f.ty f.seq f.payload false t)
    (count (cPort port 19) (updStitch port (fun u => { u with replays := u.replays + 1 }) s))

/-- STITCH_RETRY_TIMEOUT (R389): 4 us without acknowledgement progress. -/
def execStitchRetryTimeout (port : Nat) (s : State) : Host.Outcome State Fault Refusal :=
  done (if stitchUp s port then replay port s else s)

/-- STITCH_SIGNAL_LOSS (R401): the port has been without signal for 1 ms. -/
def execStitchSignalLoss (port : Nat) (s : State) : Host.Outcome State Fault Refusal :=
  done (if stitchUp s port && s.mode != .dormant then loseLink port s else s)

/-! ## Packets and commands (R386, R387) -/

/-- A PKT is admitted to the ingress pipeline of its stitch port at once, or freed and counted (R386). Its arrival timestamp is that of its
metadata (DESIGN CHOICE, unsafe: log 25). -/
def takePkt (port : Nat) (d : Bytes) (s : State) : State :=
  let b := d.drop 16
  if !admits s || !inService s then count (cPort port 21) s
  else
    let p : Packet := { bytes := b, ts := fld d 8 8 * 65536, tsUnlocked := unlocked s }
    ingress port p (b.length + 4) (fun _ => 21) (countRx port b.length s)

/-- A received CMD whose opcode does not exist is answered at once; one that finds the 16 execution slots of its channel taken is answered
BUSY (R36, R387). Any other waits for the row of its opcode. -/
def takeCmd (port : Nat) (d : Bytes) (s : State) : State :=
  let ch : Chan := .link port
  let (op, c) := parseCmd ch d
  let r : CmdRef := { chan := ch, seq := c.seq, op := op, resp := c.respAddr }
  if 16 ≤ (chanSt s ch).running.length then deliverReply r (err stBusy 0) s
  else if opKnown op then s
  else runCommand { code := op, len := fun _ => true, known := false, cap := classCap op } (readBody fun _ _ _ => err stBadOpcode 0) c s

/-- A received RSP answers the forwarding entry that sent its command (R54, R387). -/
def takeRsp (port : Nat) (d : Bytes) (s : State) : State :=
  match s.fwd.find? (fun (e : FwdEntry) => e.port == some port && decide (e.outSeq.toNat = fld d 0 4)) with
  | none => s
  | some e => replyArrives e { status := fld d 4 1, detail := fld d 8 4, r0 := fld d 16 8, r1 := fld d 24 8, out := (d.drop 32).take 4096 } s

/-! ## Width steps (R176, R177, R391) -/

/-- The limits of a stitch port's width. -/
def widthOk (s : State) (port w : Nat) : Bool :=
  let c := (portAt s port).cfg
  decide (c.widthFloor ≤ w) && decide (w ≤ c.widthCeil) && decide (w ≤ c.lanes) && (w == 1 || w == 2 || w == 4)

/-- A step from the port's width to `w` keeps its limits, or leads down towards a ceiling that now lies below the width (R177). -/
def stepOk (s : State) (port w : Nat) : Bool :=
  let p := portAt s port
  widthOk s port w || (decide (p.cfg.widthCeil < p.width) && decide (2 * w = p.width) && decide (p.cfg.widthFloor ≤ w))

/-- Propose a step when none is under way. -/
def proposeWidth (port w cause : Nat) (s : State) : State :=
  let u := stitchAt s port
  if !stitchUp s port || !inService s || u.resting || u.proposal.isSome || u.stepTo.isSome || !stepOk s port w then s
  else sendCtrl port 0x10 (toLe 1 w ++ toLe 1 cause) (updStitch port (fun u => { u with proposal := some w }) s)

/-- A step has ended: a floor or ceiling change that waited applies, and a ceiling below the width starts a step down (R177). -/
def stepEnded (port : Nat) (s : State) : State :=
  let s := match (stitchAt s port).lateCfg with
    | some (f, c) => updStitch port (fun u => { u with lateCfg := none })
        (updPort port (fun p => { p with cfg := { p.cfg with widthFloor := f, widthCeil := c } }) s)
    | none => s
  let p := portAt s port
  if p.cfg.widthCeil < p.width then proposeWidth port (p.width / 2) 1 s else s

/-- Change width after the own WIDTH_SWITCH. -/
def switchWidth (port w : Nat) (s : State) : State :=
  let s := sendCtrl port 0x13 (toLe 1 w) s
  stepEnded port (emit (.stitchSignal port 2 w)
    (updPort port (fun p => { p with width := w }) (updStitch port (fun u => { u with proposal := none, stepTo := none }) s)))

/-- WIDTH_PROPOSE arrives: it is accepted one step away within the limits. Where proposals cross, the step up proceeds (R391); two proposals of
the same width are each accepted, and each end switches as the proposer. -/
def takePropose (port w : Nat) (s : State) : State :=
  let u := stitchAt s port
  let now := (portAt s port).width
  let good := stepOk s port w && (w == 2 * now || 2 * w == now) && (match u.proposal with
    | some v => w == v || decide (now < w)
    | none => true) && u.stepTo.isNone
  if good && u.proposal == some w then sendCtrl port 0x11 (toLe 1 w) s
  else if good then sendCtrl port 0x11 (toLe 1 w) (updStitch port (fun u => { u with stepTo := some w, proposal := none }) s)
  else sendCtrl port 0x12 (toLe 1 w) s

/-- WIDTH_ACCEPT arrives. -/
def takeAccept (port w : Nat) (s : State) : State :=
  if (stitchAt s port).proposal = some w then switchWidth port w s else s

/-- WIDTH_REFUSE arrives, or the proposal has gone unanswered. -/
def refuseWidth (port : Nat) (s : State) : State :=
  if (stitchAt s port).proposal.isSome then stepEnded port (updStitch port (fun u => { u with proposal := none }) s) else s

/-- WIDTH_SWITCH arrives: the partner of the proposer sends its own and changes. -/
def takeSwitch (port w : Nat) (s : State) : State :=
  if (stitchAt s port).stepTo = some w then switchWidth port w s else s

/-- WIDTH_DOWNSHIFT_TRIGGER (R176): the offered load has stayed below the threshold of the narrower width. -/
def execWidthDownshiftTrigger (port : Nat) (s : State) : Host.Outcome State Fault Refusal :=
  done (if 2 ≤ (portAt s port).width then proposeWidth port ((portAt s port).width / 2) 0 s else s)

/-- WIDTH_UPSHIFT_TRIGGER (R176, R272): a watermark slot with UPSHIFT has crossed on the port's queue (cause 2), or its load exceeds the
threshold of the current width. -/
def execWidthUpshiftTrigger (port : Nat) (s : State) : Host.Outcome State Fault Refusal :=
  done (
    let cause := if (stitchAt s port).upDue then 2 else 0
    proposeWidth port (2 * (portAt s port).width) cause (updStitch port (fun u => { u with upDue := false }) s))

/-- WIDTH_PROPOSE_TIMEOUT (R391): a proposal unanswered for 10 us counts as refused. -/
def execWidthProposeTimeout (port : Nat) (s : State) : Host.Outcome State Fault Refusal := done (refuseWidth port s)

/-! ## Rests (R402, R403) -/

/-- A tick of the seep clock in 2^-16 ns, times a thousand million: 30,517.578125 ns. -/
def seepTicks (n : Nat) : Nat := n * 30517578125 * 65536 / 1000000

/-- The seep tick count now. -/
def seepCount (s : State) : Nat := s.time.t * 1000000 / (30517578125 * 65536)

/-- The period that this end proposes for its next rest. -/
def restWant (s : State) (port : Nat) : Nat :=
  let u := stitchAt s port
  if u.restPeriod = 0 then s.aq.cfg.restTicks else min u.restPeriod s.aq.cfg.restTicks

/-- REST_IDLE (R402): no PKT, CMD or RSP for REST_IDLE_US. -/
def execRestIdle (port : Nat) (s : State) : Host.Outcome State Fault Refusal :=
  done (
    let u := stitchAt s port
    if !stitchUp s port || !inService s || s.aq.cfg.restTicks == 0 || u.resting || u.restPend || !u.waiting.isEmpty then s
    else
      let s := advanceTo (u.lastTraffic + s.aq.cfg.restIdleUs * 1000 * 65536) s
      sendCtrl port 0x20 (toLe 2 (restWant s port) ++ toLe 4 (seepCount s)) (updStitch port (fun u => { u with restPend := true }) s))

/-- The link rests: its lanes are powered down. -/
def startRest (port period : Nat) (s : State) : State :=
  updStitch port (fun u => { u with resting := true, restPend := false, restPeriod := period, listenAt := none }) s

/-- REST arrives: the shorter period is agreed, answered, and the link rests, unless a frame waits to be sent. -/
def takeRest (port period : Nat) (s : State) : State :=
  if s.aq.cfg.restTicks = 0 ∨ !(stitchAt s port).waiting.isEmpty then s
  else
    let n := max 1 (min period (restWant s port))
    startRest port n (sendCtrl port 0x21 (toLe 2 n ++ toLe 4 (seepCount s)) s)

/-- REST_ACK arrives. -/
def takeRestAck (port period : Nat) (s : State) : State := if (stitchAt s port).restPend then startRest port (max 1 period) s else s

/-- The rest ends. -/
def endRest (port : Nat) (s : State) : State :=
  updStitch port (fun u => { u with resting := false, restPend := false, listenAt := none, lastTraffic := s.time.t }) s

/-- The partner's WAKE: a wake event in DORMANT (R109, R402). -/
def takeWake (port : Nat) (s : State) : State :=
  if s.mode = .dormant then (if (portAt s port).cfg.mode = 2 then latchWake 4 (endRest port s) else s)
  else if stitchUp s port && (stitchAt s port).resting then endRest port s else s

/-- WAKE (R402). -/
def execWake (port : Nat) (s : State) : Host.Outcome State Fault Refusal := done (takeWake port s)

/-- REST_SCHEDULED_WAKE (R402): GUARD_US before its scheduled tick this end powers its lanes and transmits the wake pattern. -/
def execRestScheduledWake (port : Nat) (s : State) : Host.Outcome State Fault Refusal :=
  done (
    let u := stitchAt s port
    if !stitchUp s port || !u.resting || u.listenAt.isSome || s.mode == .dormant then s
    else
      let s := advanceTo (u.lastTraffic + seepTicks u.restPeriod - s.aq.cfg.guardUs * 1000 * 65536) s
      emit (.stitchSignal port 0 0) (updStitch port (fun u => { u with listenAt := some s.time.t }) s))

/-- A scheduled wake was not clean: the drift is reported, and the next period is half (R403). -/
def driftWake (port detail : Nat) (s : State) : State :=
  raise (1104 + port) detail (endRest port (updStitch port (fun u => { u with cleanWakes := 0, restPeriod := max 1 (u.restPeriod / 2) }) s))

/-- A clean wake: the second in a row doubles the period, up to REST_TICKS (R403). -/
def cleanWake (port : Nat) (s : State) : State :=
  endRest port (updStitch port (fun u =>
    if u.cleanWakes + 1 < 2 then { u with cleanWakes := u.cleanWakes + 1 }
    else { u with cleanWakes := 0, restPeriod := min s.aq.cfg.restTicks (2 * u.restPeriod) }) s)

/-- WAKE_PATTERN_HEARD (R403): judged by the end that began first; the other end only wakes. -/
def execWakePatternHeard (port : Nat) (s : State) : Host.Outcome State Fault Refusal :=
  done (
    let u := stitchAt s port
    let guard := s.aq.cfg.guardUs * 1000 * 65536
    if !stitchUp s port || !u.resting || s.mode == .dormant then s
    else match u.listenAt with
      | none => emit (.stitchSignal port 0 0) (endRest port s)
      | some t =>
        if s.time.t - t ≤ guard then cleanWake port s
        else if s.time.t - t ≤ 4 * guard then driftWake port 1 s
        else emit (.stitchSignal port 1 0) (driftWake port 2 s))

/-- WAKE_PATTERN_TIMEOUT (R403): nothing heard within 4 x GUARD_US, so the link retrains. -/
def execWakePatternTimeout (port : Nat) (s : State) : Host.Outcome State Fault Refusal :=
  done (match (stitchAt s port).listenAt with
    | none => s
    | some t =>
      emit (.stitchSignal port 1 0) (driftWake port 2 (advanceTo (t + 4 * s.aq.cfg.guardUs * 1000 * 65536) s)))

end Sys2Proof.Machine
end

