-- ==== Sys2Proof/Machine/Aquifer.lean ====
section
/-! DEFINITION. The aquifer: joining and leaving (R392 to R394, R401), latency and time offset (R396, R398), timed group changes (R399),
control frames (R390), frames received on a stitch port (R384 to R389), and the opcodes of class 0x0F (R404, R405). -/

namespace Sys2Proof.Machine

open Sys2Proof

/-! ## Members -/

/-- Change a member's record. -/
def updMember (k : Nat) (f : Member → Member) (s : State) : State := { s with aq := { s.aq with members := Store.upd {} k f s.aq.members } }

/-- Members of the aquifer at a level. -/
def levelKeys (s : State) (l : Nat) : List Nat := (s.aq.members.map (·.1)).filter fun k => k / 64 == l

/-- The lowest free member index of the aquifer at a level (R393). -/
def freeIndex (s : State) (l : Nat) : Option Nat := (List.range 64).find? fun i => decide (1 ≤ i) && !(levelKeys s l).contains (64 * l + i)

/-- The device stands alone, with its tables and allocations kept (R401). -/
def standAlone (s : State) : State :=
  let s := disarmGroup s
  { s with aq := { s.aq with group := none, index := 0xFFFE, gateway := 0, stratum := 3, members := [], uppers := [], change := none, armed := none } }

/-- The group certificate is issued again at each join and leave (R394). -/
def reissue (s : State) : State := { s with aq := { s.aq with certGen := s.aq.certGen + 1 } }

/-- The level at which this device joins or has formed its highest aquifer: levels in use. -/
def levels (s : State) : Nat := if s.aq.group.isNone then 0 else 1 + s.aq.uppers.length

/-! ## Leaving (R401, R405) -/

/-- A member is gone: its record goes, and AQ_LEAVE is raised. When it was the gateway, the members that remain elect one; the group ID and
the indices stay (R393, R401). -/
def memberGone (k : Nat) (s : State) : State :=
  let l := k / 64
  let wasGateway := (levelAt s l).any fun u => u.gateway == k % 64
  let s := raise 1089 (k % 64) (reissue { s with aq := { s.aq with members := Store.set {} k {} s.aq.members } })
  if !wasGateway then s
  else
    let cands := ((levelKeys s l).filter fun m => (memberAt s m).role).map fun m => ((memberAt s m).serial, m % 64)
    let best := cands.foldl (fun (a : Option (Nat × Nat)) x => match a with
      | none => some x
      | some y => if x.1 < y.1 then some x else some y) none
    match best with
    | none => s
    | some (_, m) =>
      let s := if l = 0 then { s with aq := { s.aq with gateway := m } }
        else { s with aq := { s.aq with uppers := s.aq.uppers.mapIdx fun i u => if i + 1 = l then { u with gateway := m } else u } }
      raise 1090 0 s

/-- MEMBER_ROUTE_TIMEOUT (R401): a member has had no route to the gateway for 100 ms. Named itself, this device is the one that leaves. -/
def execMemberRouteTimeout (member : Nat) (s : State) : Host.Outcome State Fault Refusal :=
  done (
    if s.aq.group.isNone then s
    else if member = s.aq.index then
      (if s.aq.gateway = s.aq.index ∨ (routeTo s s.aq.gateway).isSome then s else raise 1089 member (standAlone s))
    else if (memberAt s member).present && (routeTo s member).isNone then memberGone member s
    else s)

/-! ## Joining (R392, R393) -/

/-- A join is under way: the partner's end of one that has not ended within 100 ms is over (R392). -/
def joinRuns (s : State) : Bool := s.aq.join.any fun j => j.ref.isSome || decide (s.time.t ≤ j.since + 100000000 * 65536)

/-- A join's step fails: what AQ_JOIN answers for the reason that a LEAVE carries (DESIGN CHOICE, unsafe: log 25). -/
def joinFailure (reason : Nat) : Answer :=
  if reason = 1 then err stNotReady 0
  else if reason = 9 then err stState 9
  else if reason = 7 ∨ reason = 8 then err stNoResource reason
  else if 2 ≤ reason ∧ reason ≤ 6 then err stDenied reason
  else if reason = 0x10 then err stBusy 0
  else err stLinkLost 0

/-- End the join in progress with an answer. -/
def endJoin (a : Answer) (s : State) : State :=
  match s.aq.join with
  | none => s
  | some j =>
    let s := { s with aq := { s.aq with join := none } }
    let s := updStitch j.port (fun u => { u with certs := [], proofOk := false, proofSent := false, pings := [], ownHello := [] }) s
    match j.ref with
    | some r => replyIfRunning r a s
    | none => s

/-- This end fails the join: the partner is told by LEAVE with the reason. -/
def failJoin (port reason : Nat) (s : State) : State := endJoin (joinFailure reason) (sendCtrl port 0x05 (toLe 1 reason) s)

/-- The stratum that this end states in its HELLO: its aquifer's when it is in one and speaks for it, else its own (R390). -/
def helloStratum (s : State) (level : Nat) (issuer : Bool) : Nat :=
  if s.aq.group.isNone ∨ (issuer ∧ level = 0) then 2
  else match s.aq.uppers.getLast? with
    | some u => u.stratum
    | none => s.aq.stratum

/-- This end's HELLO (R390); its nonce comes from the DRBG (R94). -/
def helloBytes (s : State) (level : Nat) (issuer : Bool) (request : Nat) : Bytes :=
  toLe 8 Config.serial.toNat ++ toLe 4 (capUnits s) ++ toLe 4 ((s.boot.image.map (·.fwVersion.toNat)).getD 0) ++
  toLe 1 (b2n s.aq.cfg.gatewayRole) ++ toLe 1 (helloStratum s level issuer) ++ toLe 32 (Config.nonce request).toNat

/-- Send this end's HELLO. -/
def sendHello (port level : Nat) (issuer : Bool) (s : State) : State :=
  let (k, t) := drbgRequest s
  let h := helloBytes s level issuer k
  sendCtrl port 0x01 h (updStitch port (fun u => { u with ownHello := h }) t)

/-- The certificate chain of slot 0 (R89, R90): empty while it is not provisioned. -/
def ownChain (s : State) : Bytes := if s.boot.identIncomplete then [] else Config.slot0Chain (imageId s).1 (imageId s).2

/-- Send this end's chain and its PROOF over both HELLOs (R390). -/
def sendProof (port : Nat) (s : State) : State :=
  let u := stitchAt s port
  let chain := ownChain s
  let chunks := records 4096 (chain.length + 1) chain
  let s := (List.range chunks.length).foldl (fun t i => sendCtrl port 0x02 (toLe 2 i ++ chunks.getD i []) t) s
  sendCtrl port 0x03 (Config.aliasSign (imageId s).1 (imageId s).2 (Config.sha384 (u.ownHello ++ u.hello)))
    (updStitch port (fun u => { u with proofSent := true }) s)

/-- Who decides on a join, once both HELLOs are known: an end that is in the target aquifer, else the end that becomes its gateway; none when
neither holds the gateway role bit (R393). True is this end. -/
def decides (s : State) (j : JoinSt) : Option Bool :=
  let h := (stitchAt s j.port).hello
  let issuer := j.ref.isSome
  let theirs := decide (3 ≤ fld h 17 1)
  let mineRole := s.aq.cfg.gatewayRole
  let theirRole := bit (fld h 16 1) 0
  if j.level = 0 ∧ issuer ∧ theirs then some false
  else if j.level = 0 ∧ !issuer ∧ s.aq.group.isSome then some true
  else if mineRole && theirRole then some (decide (Config.serial.toNat < fld h 0 8))
  else if mineRole then some true
  else if theirRole then some false
  else none

/-- The level at which the join's aquifer lies for the end that decides. -/
def joinLevel (s : State) (j : JoinSt) : Nat := if j.level = 0 then 0 else levels s

/-- This end becomes a member of an aquifer at a level. -/
def enterLevel (l : Nat) (u : Upper) (s : State) : State :=
  let s := if l = 0 then { s with aq := { s.aq with group := some u.group, index := u.index, gateway := u.gateway, stratum := u.stratum } }
    else { s with aq := { s.aq with uppers := s.aq.uppers ++ [u] } }
  updMember (64 * l + u.index) (fun _ => { present := true, serial := Config.serial.toNat, aquifer := decide (l ≠ 0), role := s.aq.cfg.gatewayRole,
                                           caps := BitVec.ofNat 32 (capUnits s), mode := s.mode.code, measured := s.time.t }) s

/-- A member's record made from its HELLO. A member that is an aquifer has a worst path latency of its own that no frame of R390 carries: a free
value (DESIGN CHOICE, unsafe: log 25). -/
def admitMember (k port hop : Nat) (h : Bytes) (s : State) : State :=
  let aq := decide (3 ≤ fld h 17 1) && k / 64 != 0
  let (inner, s) := if aq then drawFree s else (0, s)
  let base := match levelAt s (k / 64) with
    | none => 0
    | some u => if u.gateway = u.index then 1200 else (memberAt s (64 * (k / 64) + u.index)).latency
  updMember k (fun _ => { present := true, serial := fld h 0 8, aquifer := aq, role := bit (fld h 16 1) 0, caps := BitVec.ofNat 32 (fld h 8 4),
                          mode := s.mode.code, inner := inner, latency := base + hop + inner, measured := s.time.t, route := some port }) s

/-- The budget of the aquifer in ns: the gateway's, which a member has from its ADMIT (R390, R396, R404). -/
def budgetNs (s : State) : Nat :=
  (if s.aq.group.isSome && s.aq.gateway != s.aq.index then s.aq.budgetUs else s.aq.cfg.budgetUs) * 1000

/-- The bytes of an ADMIT for a member index (R390). -/
def admitBytes (s : State) (l index : Nat) : Bytes :=
  let u := (levelAt s l).getD {}
  toLe 8 u.group ++ toLe 1 index ++ toLe 8 ((memberAt s (64 * l + u.gateway)).serial) ++ toLe 4 (budgetNs s / 1000)

/-- The end that decides has its sixteen measurements (R392 steps 7 to 9, R396): it admits the partner or refuses it. -/
def decideJoin (j : JoinSt) (s : State) : State :=
  let u := stitchAt s j.port
  let hop := (u.pings.foldl max 0).toNat
  let l := joinLevel s j
  let fresh := (levelAt s l).isNone
  let strat := (max (fld u.hello 17 1) (helloStratum s 1 false)) + 1
  let s' := if fresh then enterLevel l { group := Config.serial.toNat, index := 0, gateway := 0, stratum := if l = 0 then 3 else strat } s else s
  match freeIndex s' l with
  | none => failJoin j.port 8 s
  | some i =>
    let s' := admitMember (64 * l + i) j.port hop u.hello s'
    if budgetNs s < worstPath s' l then failJoin j.port 7 s
    else
      let s' := reissue s'
      let s' := sendCtrl j.port 0x04 (admitBytes s' l i) s'
      -- the other members learn of the new one
      let others := ((levelKeys s' l).filter fun k => k != 64 * l + i).filterMap fun k => routeTo s' k
      let s' := (others.eraseDups.filter fun p => p != j.port).foldl (fun t p => sendCtrl p 0x04 (admitBytes t l i) t) s'
      let own := (levelAt s' l).getD {}
      raise 1088 0 (endJoin (ok (own.index + 256 * own.stratum) own.group) s')

/-- Both proofs stand: the end that decides measures the link by sixteen PINGs (R396). -/
def joinReady (port : Nat) (s : State) : State :=
  match s.aq.join with
  | none => s
  | some j =>
    let u := stitchAt s port
    if j.port ≠ port ∨ !u.proofOk ∨ !u.proofSent then s
    else match decides s j with
      | none => failJoin port 6 s
      | some false => s
      | some true => (List.range 16).foldl (fun t _ => sendCtrl port 0x30 (toLe 8 (nowNs t)) t) s

/-- HELLO arrives: a partner that was not joining starts, when it may; both ends then send chain and PROOF (R392 steps 1 to 3). -/
def takeHello (port : Nat) (d : Bytes) (s : State) : State :=
  if d.length < 50 then count (cDev 42) s
  else
    let s := updStitch port (fun u => { u with hello := d.take 50, certs := [], proofOk := false, proofSent := false, pings := [] }) s
    match if joinRuns s then s.aq.join else none with
    | some j => if j.port = port then sendProof port s else sendCtrl port 0x05 [0x10] s
    | none =>
      if !s.entropyReady then sendCtrl port 0x05 [1] s
      else if !inService s then sendCtrl port 0x05 [9] s
      else if s.boot.identIncomplete then sendCtrl port 0x05 [2] s
      else if s.aq.armed.isSome ∨ s.aq.change.isSome then sendCtrl port 0x05 [0x10] s
      else
        let level := if 3 ≤ fld d 17 1 then 1 else 0
        let s := { s with aq := { s.aq with join := some { port := port, level := level, since := s.time.t } } }
        sendProof port (sendHello port level false s)

/-- CERT arrives: the chain is gathered in chunk order. -/
def takeCert (port : Nat) (d : Bytes) (s : State) : State :=
  updStitch port (fun u => if u.certs.length = 4096 * fld d 0 2 then { u with certs := u.certs ++ (d.drop 2).take 4096 } else u) s

/-- PROOF arrives (R392 steps 3 to 6). -/
def takeProof (port : Nat) (d : Bytes) (s : State) : State :=
  match s.aq.join with
  | none => s
  | some j =>
    let u := stitchAt s port
    if j.port ≠ port then s
    else if u.certs.isEmpty then failJoin port 2 s
    else if !Config.chainVerifies u.certs then failJoin port 3 s
    else if !Config.ecdsaVerify (Config.chainKey u.certs) (Config.sha384 (u.hello ++ u.ownHello)) (d.take 96) then failJoin port 4 s
    else if Config.chainOwner u.certs ≠ s.boot.activeOwner.getD 0 then failJoin port 5 s
    else joinReady port (updStitch port (fun u => { u with proofOk := true }) s)

/-- A member's path latency that another end measured and that no frame of R390 carries: a free value within the budget, which the admission
kept (R396; DESIGN CHOICE, unsafe: log 25). -/
def learnLatency (k : Nat) (s : State) : State :=
  let (v, s) := drawFree s
  updMember k (fun m => { m with latency := v % (s.aq.budgetUs * 1000 + 1) }) s

/-- ADMIT arrives: this end has been admitted by the end that decided, or learns of a new member of its aquifer and, as the gateway, tells the
others (R392, R393). -/
def takeAdmit (port : Nat) (d : Bytes) (s : State) : State :=
  let gid := fld d 0 8
  let i := fld d 8 1 % 64
  match s.aq.join with
  | some j =>
    if j.port ≠ port then s
    else
      let l := joinLevel s j
      let h := (stitchAt s port).hello
      let strat := if l = 0 then max 3 (fld h 17 1) else max (fld h 17 1) (helloStratum s 1 true) + 1
      let s := enterLevel l { group := gid, index := i, gateway := 0, stratum := strat } { s with aq := { s.aq with budgetUs := fld d 17 4 } }
      let s := updMember (64 * l) (fun _ => { present := true, serial := fld d 9 8, aquifer := decide (l ≠ 0), role := true,
                                              caps := BitVec.ofNat 32 (fld h 8 4), mode := s.mode.code, measured := s.time.t, route := some port }) s
      raise 1088 0 (endJoin (ok (i + 256 * strat) gid) (learnLatency (64 * l + i) s))
  | none =>
    match (List.range (levels s)).find? (fun l => (levelAt s l).any fun u => u.group == gid) with
    | none => s
    | some l =>
      if (memberAt s (64 * l + i)).present then s
      else
        let s := learnLatency (64 * l + i)
          (reissue (updMember (64 * l + i) (fun _ => { present := true, mode := s.mode.code, measured := s.time.t, route := some port })
            { s with aq := { s.aq with budgetUs := fld d 17 4 } }))
        if (levelAt s l).any fun u => u.gateway == u.index then
          let others := ((levelKeys s l).filter fun k => k != 64 * l + i).filterMap fun k => routeTo s k
          (others.eraseDups.filter fun p => p != port).foldl (fun t p => sendCtrl p 0x04 d t) s
        else s

/-- LEAVE arrives: a join on the port ends; the gateway's LEAVE removes this device; a member's removes the member. A partner that enters SHUT-IN
or PRIMING leaves the link lost (R401, R434). -/
def takeLeave (port reason : Nat) (s : State) : State :=
  match s.aq.join with
  | some j => if j.port = port then endJoin (joinFailure reason) s else gone s
  | none => gone s
where
  /-- The partner has left the aquifer, or put this device out of it. -/
  gone (s : State) : State :=
    let lost (s : State) : State := if reason = 0 then s else loseLink port s
    if s.aq.group.isNone then lost s
    else if s.aq.gateway ≠ s.aq.index ∧ routeTo s s.aq.gateway = some port then
      let i := s.aq.index
      lost (raise 1089 i (standAlone s))
    else match (s.aq.members.find? fun (x : Nat × Member) => x.2.route == some port) with
      | some (k, _) => lost (memberGone k s)
      | none => lost s

/-! ## PING and PONG (R396, R398) -/

/-- Own keys of the levels whose gateway is reached by a port. -/
def measuredVia (s : State) (port : Nat) : List Nat :=
  (List.range (levels s)).filterMap fun l => match levelAt s l with
    | some u => if u.gateway ≠ u.index ∧ routeTo s (64 * l + u.gateway) = some port then some (64 * l + u.index) else none
    | none => none

/-- PING arrives: the answer carries when it came and when it goes. One of the gateway measures this device (R398). -/
def takePing (port : Nat) (d : Bytes) (s : State) : State :=
  let s := (measuredVia s port).foldl (fun t k => updMember k (fun m => { m with measured := t.time.t }) t) s
  sendCtrl port 0x31 (toLe 8 (fld d 0 8) ++ toLe 8 (nowNs s) ++ toLe 8 (nowNs s)) s

/-- A member's offset has been measured, or not for 500 ms (R398): AQ_SKEW is raised when it becomes skewed. -/
def judgeSkew (k : Nat) (s : State) : State :=
  let m := memberAt s k
  let bad := decide (s.aq.cfg.skewMaxNs < m.offset.natAbs) || decide (m.measured + 500000000 * 65536 < s.time.t)
  let s := updMember k (fun m => { m with skewed := bad }) s
  if bad && !m.skewed then raise 1091 (k % 64) s else s

/-- PONG arrives: a join's measurement, else the offset of the member at the other end (R396, R398). -/
def takePong (port : Nat) (d : Bytes) (s : State) : State :=
  let t1 : Int := fld d 0 8
  let t2 : Int := fld d 8 8
  let t3 : Int := fld d 16 8
  let t4 : Int := nowNs s
  let joining := match s.aq.join with
    | some j => if j.port = port ∧ (stitchAt s port).proofOk then some j else none
    | none => none
  match joining with
  | some j =>
    let s := updStitch port (fun u => { u with pings := u.pings ++ [((t4 - t1) - (t3 - t2)) / 2] }) s
    if 16 ≤ (stitchAt s port).pings.length then decideJoin j s else s
  | none =>
    match s.aq.members.find? fun (x : Nat × Member) => x.2.route == some port && fld (stitchAt s port).hello 0 8 == x.2.serial with
    | some (k, _) => judgeSkew k (updMember k (fun m => { m with offset := ((t2 - t1) - (t4 - t3)) / 2, measured := s.time.t }) s)
    | none => s

/-- SKEW_MEASURE (R398): every 125 ms the gateway measures each member. -/
def execSkewMeasure (s : State) : Host.Outcome State Fault Refusal :=
  done (
    if !inService s || s.aq.group.isNone || s.aq.gateway != s.aq.index then s
    else
      let s := (otherMembers s 0).foldl (fun t k => judgeSkew k t) s
      ((otherMembers s 0).filterMap (routeTo s)).eraseDups.foldl (fun t p => sendCtrl p 0x30 (toLe 8 (nowNs t)) t) s)

/-! ## Timed group changes (R399) -/

/-- End a group change at the gateway with ABORT: every member disarms, and the reply is ABORTED with the mask of members that did not confirm. -/
def abortChange (s : State) : State :=
  match s.aq.change with
  | none => s
  | some x =>
    let ports := ((s.aq.members.map (·.1)).filterMap (routeTo s)).eraseDups
    let s := ports.foldl (fun t p => sendCtrl p 0x43 (toLe 4 x.num) t) s
    let s := disarmGroup { s with aq := { s.aq with change := none } }
    match groupOpOf s x.ref with
    | none => s
    | some g => replyIfRunning x.ref { status := stAborted, r1 := memberMask g x.waiting } (dropGroup g s)

/-- This device is skewed as a member (R398): its gateway has not measured it for 500 ms. The offset itself is the gateway's knowledge, which no
frame of R390 tells the member (DESIGN CHOICE, unsafe: log 25). -/
def ownSkewed (s : State) : Bool :=
  (List.range (levels s)).any fun l => (levelAt s l).any fun u =>
    u.gateway != u.index && decide ((memberAt s (64 * l + u.index)).measured + 500000000 * 65536 < s.time.t)

/-- A member runs its local checks for a PREPARE and arms (R32, R242, R399): its refusal otherwise. -/
def prepareLocal (num atNs : Nat) (r : CmdRef) (op : Nat) (c : Cmd) (s : State) : Except Answer State :=
  let arm (isMode : Bool) (what drain : Nat) (s : State) : State :=
    { s with aq := { s.aq with armed := some { num := num, isMode := isMode, arg := what, drainUs := drain, atNs := atNs } } }
  if s.aq.armed.isSome ∨ joinRuns s ∨ s.armedMode.isSome ∨ s.transit.isSome then .error (err stBusy 0)
  else if ownSkewed s then .error (err stState 0xA)
  else if op = 0x0803 then
    let new := arg c 0 2
    let drain := if arg c 4 4 = 0 then 10000 else arg c 4 4
    if new = s.tables.epoch then .ok (reply r { status := stOk, detail := 1, r0 := new } s)
    else (armCommit r new drain atNs true s).map (arm false new drain)
  else if op = 0x0104 then
    match modeOf (arg c 0 1 % 8) with
    | none => .error (err stState 0)
    | some m =>
      if m = s.mode then .ok (reply r (ok s.mode.code 0) s)
      else match modeChange s m with
        | .error a => .error a
        | .ok () => .ok (arm true m.code 0 { s with armedMode := some { ref := some r, target := m, atNs := atNs, cause := 5 } })
  else .error (err stBadOpcode 0)

/-- PREPARE arrives at a member: CONFIRM when its checks pass, else REFUSE. -/
def takePrepare (port : Nat) (d : Bytes) (s : State) : State :=
  let num := fld d 0 4
  let (op, c) := parseCmd (.link port) (d.drop 20)
  let r : CmdRef := { chan := .link port, seq := c.seq, op := op, resp := c.respAddr }
  match prepareLocal num (fld d 4 8) r op c (markStage r 1 (accept r c s)) with
  | .ok s => sendCtrl port 0x41 (toLe 4 num) s
  | .error a => sendCtrl port 0x42 (toLe 4 num ++ toLe 1 a.status ++ toLe 4 a.detail) s

/-- The member at the other end of a port, among some. -/
def memberVia (s : State) (port : Nat) (l : List Nat) : Option Nat := l.find? fun k => routeTo s k == some port

/-- CONFIRM arrives at the gateway before the deadline. -/
def takeConfirm (port num : Nat) (s : State) : State :=
  match s.aq.change with
  | none => s
  | some x =>
    if x.num ≠ num ∨ x.deadline < nowNs s then s
    else match memberVia s port x.waiting with
      | none => s
      | some k => ownNoop { s with aq := { s.aq with change := some { x with waiting := x.waiting.erase k } } }

/-- REFUSE arrives at the gateway. -/
def takeRefuse (num : Nat) (s : State) : State := if s.aq.change.any (fun x => x.num == num) then abortChange s else s

/-- ABORT arrives at a member: it disarms, and its command ends ABORTED. -/
def takeAbort (num : Nat) (s : State) : State :=
  match s.aq.armed with
  | none => s
  | some x =>
    if x.num ≠ num then s
    else
      let ref := if x.isMode then s.armedMode.bind (·.ref) else s.tables.commit.map (·.ref)
      let s := disarmGroup s
      match ref with
      | some r => replyIfRunning r (err stAborted 0) s
      | none => s

/-- CONFIRM_DEADLINE (R399): a member has not confirmed by the deadline. -/
def execConfirmDeadline (s : State) : Host.Outcome State Fault Refusal :=
  done (match s.aq.change with
    | none => s
    | some x => if x.waiting.isEmpty then s else abortChange (advanceNs x.deadline s))

/-! ## Frames received on a stitch port (R384, R389, R390) -/

/-- A control frame, by its SUBTYPE (R390): an unknown one is discarded and counted. -/
def takeCtrl (port : Nat) (b : Bytes) (s : State) : State :=
  let d := b.drop 1
  match fld b 0 1 with
  | 0x01 => takeHello port d s
  | 0x02 => takeCert port d s
  | 0x03 => takeProof port d s
  | 0x04 => takeAdmit port d s
  | 0x05 => takeLeave port (fld d 0 1) s
  | 0x10 => takePropose port (fld d 0 1) s
  | 0x11 => takeAccept port (fld d 0 1) s
  | 0x12 => refuseWidth port s
  | 0x13 => takeSwitch port (fld d 0 1) s
  | 0x20 => takeRest port (fld d 0 2) s
  | 0x21 => takeRestAck port (fld d 0 2) s
  | 0x22 => takeWake port s
  | 0x30 => takePing port d s
  | 0x31 => takePong port d s
  | 0x40 => takePrepare port d s
  | 0x41 => takeConfirm port (fld d 0 4) s
  | 0x42 => takeRefuse (fld d 0 4) s
  | 0x43 => takeAbort (fld d 0 4) s
  | _ => count (cDev 42) s

/-- A frame is good: its length, TYPE and CRC-32C (R384, R389). -/
def frameGood (b : Bytes) : Bool :=
  decide (12 ≤ b.length) && decide (fld b 0 1 % 16 ≤ 4) && decide (fld b 4 2 % 16384 + 12 = b.length) && decide (fld b 4 2 % 16384 ≤ 9744) &&
  decide (crc32c (b.take (b.length - 4)) = fld b (b.length - 4) 4)

/-- Deliver a frame received in order. -/
def takeFrame (port ty : Nat) (d : Bytes) (s : State) : State :=
  if ty = uPkt then takePkt port d s
  else if ty = uCmd then takeCmd port d s
  else if ty = uRsp then takeRsp port d s
  else takeCtrl port d s

/-- A frame arrives on a stitch port (R384, R389): a bad one, or one out of sequence, is discarded and answered by NAK; one received before is
discarded and acknowledged; the next expected is delivered and acknowledged, with the credits of its channel. -/
def stitchReceive (port : Nat) (f : StitchFrame) (s : State) : State :=
  let b := f.data
  if !stitchUp s port || !modeTalks s then s
  else if !frameGood b then sendNull port true (count (cPort port 18) s)
  else
    let ty := fld b 0 1 % 16
    let seq := fld b 0 2 / 16
    let n := fld b 4 2 % 16384
    let s := if (stitchAt s port).resting then endRest port s else s
    let s := takeAck port b s
    let s := if bit (fld b 2 2) 13 then replay port s else s
    if ty = uNull ∨ (stitchAt s port).lost then s
    else
      let u := stitchAt s port
      if seq = u.rxSeq then
        let c := creditsFor n
        let s := updStitch port (fun u => { u with
          rxSeq := (u.rxSeq + 1) % 4096
          rxAny := true
          owe0 := if ty = uPkt ∨ ty = uCmd then u.owe0 + c else u.owe0
          owe1 := if ty = uRsp then u.owe1 + c else u.owe1
          lastTraffic := if ty = uCtrl then u.lastTraffic else s.time.t }) s
        let s := takeFrame port ty (slice b 8 n) s
        if (stitchAt s port).lost then s else sendNull port false s
      else if (u.rxSeq + 4096 - seq) % 4096 ≤ 2048 then sendNull port false s
      else sendNull port true s

/-- PKT (R386). -/
def execPkt (port : Nat) (f : StitchFrame) (s : State) : Host.Outcome State Fault Refusal := done (stitchReceive port f s)
/-- CMD (R387). -/
def execCmd (port : Nat) (f : StitchFrame) (s : State) : Host.Outcome State Fault Refusal := done (stitchReceive port f s)
/-- RSP (R387). -/
def execRsp (port : Nat) (f : StitchFrame) (s : State) : Host.Outcome State Fault Refusal := done (stitchReceive port f s)
/-- NULL (R385). -/
def execNull (port : Nat) (f : StitchFrame) (s : State) : Host.Outcome State Fault Refusal := done (stitchReceive port f s)
/-- HELLO (R390, R392). -/
def execHello (port : Nat) (f : StitchFrame) (s : State) : Host.Outcome State Fault Refusal := done (stitchReceive port f s)
/-- CERT (R390). -/
def execCert (port : Nat) (f : StitchFrame) (s : State) : Host.Outcome State Fault Refusal := done (stitchReceive port f s)
/-- PROOF (R392). -/
def execProof (port : Nat) (f : StitchFrame) (s : State) : Host.Outcome State Fault Refusal := done (stitchReceive port f s)
/-- ADMIT (R392). -/
def execAdmit (port : Nat) (f : StitchFrame) (s : State) : Host.Outcome State Fault Refusal := done (stitchReceive port f s)
/-- LEAVE (R390). -/
def execLeave (port : Nat) (f : StitchFrame) (s : State) : Host.Outcome State Fault Refusal := done (stitchReceive port f s)
/-- WIDTH_PROPOSE (R391). -/
def execWidthPropose (port : Nat) (f : StitchFrame) (s : State) : Host.Outcome State Fault Refusal := done (stitchReceive port f s)
/-- WIDTH_ACCEPT (R391). -/
def execWidthAccept (port : Nat) (f : StitchFrame) (s : State) : Host.Outcome State Fault Refusal := done (stitchReceive port f s)
/-- WIDTH_REFUSE (R391). -/
def execWidthRefuse (port : Nat) (f : StitchFrame) (s : State) : Host.Outcome State Fault Refusal := done (stitchReceive port f s)
/-- WIDTH_SWITCH (R391). -/
def execWidthSwitch (port : Nat) (f : StitchFrame) (s : State) : Host.Outcome State Fault Refusal := done (stitchReceive port f s)
/-- REST (R402). -/
def execRest (port : Nat) (f : StitchFrame) (s : State) : Host.Outcome State Fault Refusal := done (stitchReceive port f s)
/-- REST_ACK (R402). -/
def execRestAck (port : Nat) (f : StitchFrame) (s : State) : Host.Outcome State Fault Refusal := done (stitchReceive port f s)
/-- PING (R396). -/
def execPing (port : Nat) (f : StitchFrame) (s : State) : Host.Outcome State Fault Refusal := done (stitchReceive port f s)
/-- PONG (R396). -/
def execPong (port : Nat) (f : StitchFrame) (s : State) : Host.Outcome State Fault Refusal := done (stitchReceive port f s)
/-- PREPARE (R399). -/
def execPrepare (port : Nat) (f : StitchFrame) (s : State) : Host.Outcome State Fault Refusal := done (stitchReceive port f s)
/-- CONFIRM (R399). -/
def execConfirm (port : Nat) (f : StitchFrame) (s : State) : Host.Outcome State Fault Refusal := done (stitchReceive port f s)
/-- REFUSE (R399). -/
def execRefuse (port : Nat) (f : StitchFrame) (s : State) : Host.Outcome State Fault Refusal := done (stitchReceive port f s)
/-- ABORT (R399). -/
def execAbort (port : Nat) (f : StitchFrame) (s : State) : Host.Outcome State Fault Refusal := done (stitchReceive port f s)
/-- STITCH_CTRL_BAD (R390): a control frame of unknown SUBTYPE. -/
def execStitchCtrlBad (port : Nat) (f : StitchFrame) (s : State) : Host.Outcome State Fault Refusal := done (stitchReceive port f s)

/-! ## Class 0x0F (R404, R405) -/

/-- The value that 0 selects, else the value itself. -/
def orZero (v d : Nat) : Nat := if v = 0 then d else v

/-- AQ_CONFIG's fields from the payload (R404). -/
def readAqCfg (b : Bytes) : AqConfig :=
  { gatewayRole := bit (fld b 0 1) 0, budgetUs := orZero (fld b 4 4) 20, skewMaxNs := orZero (fld b 8 4) 1000, guardUs := orZero (fld b 12 4) 8,
    restTicks := fld b 16 2, restIdleUs := orZero (fld b 20 4) 1000 }

/-- The ranges of R404. -/
def aqCfgOk (c : AqConfig) : Bool :=
  decide (2 ≤ c.budgetUs) && decide (c.budgetUs ≤ 200) && decide (100 ≤ c.skewMaxNs) && decide (c.skewMaxNs ≤ 100000) &&
  decide (1 ≤ c.guardUs) && decide (c.guardUs ≤ 1000) && decide (10 ≤ c.restIdleUs) && decide (c.restIdleUs ≤ 1000000)

/-- What the shared checks need to know of AQ_CONFIG, opcode 0x0F01. -/
def infoAqConfig : OpInfo := { code := 0x0F01, len := lenIs 32, priv := true, cap := some 2, gated := true }

/-- AQ_CONFIG. -/
def execAqConfig (c : Cmd) (s : State) : Host.Outcome State Fault Refusal :=
  done (runCommand infoAqConfig
    (answer fun _ c s =>
      let k := readAqCfg c.payload
      if aqCfgOk k then ({ s with aq := { s.aq with cfg := k } }, ok 0 0) else (s, err stBadLength 0)) c s)

/-- A join, a leave or a timed group change keeps another one off (R405). -/
def aqBusy (s : State) : Bool := joinRuns s || s.aq.armed.isSome || s.aq.change.isSome

/-- A command's time-out is at most `us` (R392). -/
def capTimeout (us : Nat) (r : CmdRef) (s : State) : State :=
  match r.chan with
  | .fwd e => { s with fwd := mapWhere (fun (x : FwdEntry) => x.num == e) (fun x => { x with remainUs := min us x.remainUs }) s.fwd }
  | ch => updChan ch (fun st => { st with
      running := mapWhere (fun q => decide (q.ref.seq = r.seq)) (fun q => { q with timeoutUs := min us q.timeoutUs }) st.running }) s

/-- What the shared checks need to know of AQ_JOIN, opcode 0x0F02. -/
def infoAqJoin : OpInfo := { code := 0x0F02, len := lenIs 8, modes := [.proving, .flowing], priv := true, cap := some 2, gated := true }

/-- AQ_JOIN (R392, R393): HELLO goes out; the reply comes when the join ends, or after 100 ms. -/
def execAqJoin (c : Cmd) (s : State) : Host.Outcome State Fault Refusal :=
  done (runCommand infoAqJoin
    (fun r t c s =>
      let p := arg c 0 1
      let level := arg c 1 1
      if 15 < p ∨ 1 < level ∨ (portAt s p).cfg.mode ≠ 2 then (s, some (err stBadLength 0))
      else if aqBusy s then (s, some (err stBusy 0))
      else if !s.entropyReady then (s, some (err stNotReady 0))
      else if (level = 0 ∧ s.aq.group.isSome) ∨ (level = 1 ∧ !t.isAquifer) then (s, some (err stState 9))
      else if !stitchUp s p then (s, some (err stLinkLost 0))
      else if s.boot.identIncomplete then (s, some (err stDenied 2))
      else
        let s := { s with aq := { s.aq with join := some { ref := some r, port := p, level := level, since := s.time.t } } }
        (sendHello p level true (capTimeout 100000 r s), none)) c s)

/-- What the shared checks need to know of AQ_LEAVE, opcode 0x0F03. -/
def infoAqLeave : OpInfo := { code := 0x0F03, len := lenIs 8, modes := [.proving, .flowing], priv := true, cap := some 2, gated := true }

/-- AQ_LEAVE (R405): a gateway removes the named member; a member removes itself. -/
def execAqLeave (c : Cmd) (s : State) : Host.Outcome State Fault Refusal :=
  done (runCommand infoAqLeave
    (answer fun t c s =>
      let m := arg c 0 8
      let l := t.level
      let tell (k reason : Nat) (t : State) : State := match routeTo t k with
        | some p => sendCtrl p 0x05 (toLe 1 reason) t
        | none => t
      if 63 < m then (s, err stBadLength 0)
      else if s.aq.group.isNone then (s, err stState 0)
      else if aqBusy s then (s, err stBusy 0)
      else if t.isAquifer && !(ownKeys s).contains (64 * l + m) then
        if (memberAt s (64 * l + m)).present then (memberGone (64 * l + m) (tell (64 * l + m) 0 s), ok 0 0) else (s, err stState 0)
      else
        let i := s.aq.index
        let s := if s.aq.gateway = i then (otherMembers s (levels s)).foldl (fun t k => tell k 0 t) s else tell s.aq.gateway 0 s
        (raise 1089 i (standAlone s), ok 0 0)) c s)

/-- The 32-byte record of a member (R405). -/
def memberBytes (s : State) (l k : Nat) : Bytes :=
  let m := memberAt s k
  let gw := (levelAt s l).any fun u => u.gateway == k % 64
  let own := (ownKeys s).contains k
  toLe 1 (k % 64) ++ toLe 1 (b2n gw + 2 * b2n m.aquifer + 4 * b2n m.skewed + 8 * b2n (if own then false else m.dormant)) ++ toLe 2 (16 * (k % 64)) ++
  toLe 4 m.latency ++ toLe 4 (unsigned 32 m.offset) ++ zeros 4 ++ toLe 8 m.serial ++ zeros 8

/-- What the shared checks need to know of AQ_STATUS, opcode 0x0F04. -/
def infoAqStatus : OpInfo := { code := 0x0F04, len := lenIs 16, modes := modesRead, cap := some 2, outOff := some 0 }

/-- AQ_STATUS (R395, R396, R405). -/
def execAqStatus (c : Cmd) (s : State) : Host.Outcome State Fault Refusal :=
  done (runCommand infoAqStatus
    (readBody fun t c s =>
      let l := t.level
      let ks := levelKeys s l
      let strat := ((levelAt s l).map (·.stratum)).getD 2
      if arg c 8 8 < 32 * ks.length then err stBadLength 0
      else okOut (ks.length + 2 ^ 8 * strat + 2 ^ 32 * worstPath s l) 0 (arg c 0 8) (ks.map (memberBytes s l)).flatten) c s)

/-- The gateway's chain: its own, or as the partner towards it sent it. -/
def gatewayChain (s : State) : Bytes :=
  if s.aq.gateway = s.aq.index then ownChain s
  else ((routeTo s s.aq.gateway).map fun p => (stitchAt s p).certs).getD []

/-- What the shared checks need to know of AQ_CERT_READ, opcode 0x0F05. -/
def infoAqCertRead : OpInfo := { code := 0x0F05, len := lenIs 16, modes := [.proving, .flowing, .shutIn], cap := some 2, outOff := some 0 }

/-- AQ_CERT_READ (R394, R405). -/
def execAqCertRead (c : Cmd) (s : State) : Host.Outcome State Fault Refusal :=
  done (runCommand infoAqCertRead
    (readBody fun t _ s =>
      let out := match levelAt s t.level with
        | none => []
        | some u => gatewayChain s ++ Config.groupCert u.group ((levelKeys s t.level).map fun k => (memberAt s k).serial) s.aq.certGen
      if arg c 8 8 < out.length then err stBadLength 0 else okOut out.length out.length (arg c 0 8) out) c s)

end Sys2Proof.Machine
end

