-- ==== Sys2Proof/Machine/Ports.lean ====
section
/-! DEFINITION. Line ports: PORT_CONFIG (R167, R168, R186, R188), link changes (R439), PORT_STATUS (R187), loopbacks (R180, R181, R185), the test
generators' records (R182, R184, R185), and the module management buses (R178, R179). -/

namespace Sys2Proof.Machine

open Sys2Proof

/-! ## Links -/

/-- The pause state of a port ends with its link; its marks stay (R173). -/
def clearPause (port : Nat) (s : State) : State :=
  (List.range 8).foldl (fun t k => updHeld port k (fun h => { xoffKib := h.xoffKib, xonKib := h.xonKib }) t) s

/-- A port's link goes down: LINK_CHANGE when it was up, and a stitch link is lost (R401, R439). -/
def linkDown (port : Nat) (s : State) : State :=
  if !(portAt s port).up then s
  else
    let s := if (portAt s port).cfg.mode = 2 then loseLink port s else s
    raise (384 + port) 0 (clearPause port (updPort port (fun p => { p with up := false, lpiOn := false }) s))

/-- A port's link comes up: a stitch link starts with fresh sequence numbers and credits (R388, R389). -/
def linkUp (port width : Nat) (s : State) : State :=
  let p := portAt s port
  if p.up || p.cfg.mode == 0 || !inService s || decide (laneCount s ≤ port) then s
  else
    let w := if p.cfg.mode = 2 then (if widthOk s port width then width else min p.cfg.lanes p.cfg.widthCeil) else p.cfg.lanes
    let s := if p.cfg.mode = 2 then updStitch port (fun _ => { lastTraffic := s.time.t }) s else s
    raise (384 + port) 0 (updPort port (fun p => { p with up := true, width := w, idleSince := s.time.t }) s)

/-- PORT_LINK_CHANGE (R439). -/
def execPortLinkChange (port : Nat) (up : Bool) (width : Nat) (s : State) : Host.Outcome State Fault Refusal :=
  done (if up then linkUp port width s else linkDown port s)

/-! ## PORT_CONFIG (R186, R188) -/

/-- A PORT_CONFIG record; 0 selects the default of PAUSE_WD and LPI_IDLE. -/
def readPortCfg (b : Bytes) : PortCfg :=
  let d (v e : Nat) : Nat := if v = 0 then e else v
  let f := fld b 6 1
  { mode := fld b 1 1, lanes := fld b 2 1, rate := fld b 3 1, maxFrame := fld b 4 2, pfc := bit f 0, fcRx := bit f 1, fcTx := bit f 2,
    lpi := bit f 3, wakeArm := bit f 4, pfcEnable := BitVec.ofNat 8 (fld b 7 1), pauseWd := d (fld b 8 2) 50, lpiIdle := d (fld b 10 2) 10,
    widthFloor := fld b 12 1, widthCeil := fld b 13 1 }

/-- A width in lanes. -/
def isWidth (w : Nat) : Bool := w == 1 || w == 2 || w == 4

/-- A record is out of range (R167, R168, R174, R176, R186, R188); the width limits count for a stitch port only. -/
def portCfgBad (p : Nat) (c : PortCfg) : Bool :=
  decide (15 < p) || decide (2 < c.mode) || decide (c.maxFrame < 64) || decide (9728 < c.maxFrame) || decide (1000 < c.pauseWd) ||
  !isWidth c.lanes || decide (3 < c.rate) || p % c.lanes != 0 || (c.rate == 0 && decide (1 < c.lanes)) ||
  (c.mode == 2 && (!isWidth c.widthFloor || !isWidth c.widthCeil || decide (c.lanes < c.widthCeil) || decide (c.widthCeil < c.widthFloor)))

/-- Another enabled port of the quad runs a different rate, or the lanes overlap another enabled port (R188). -/
def portClash (s : State) (p : Nat) (c : PortCfg) : Bool :=
  c.mode != 0 && (List.range 4).any fun k =>
    let j := 4 * quadOf p + k
    let o := (portAt s j).cfg
    j != p && o.mode != 0 && (o.rate != c.rate || (decide (j < p + c.lanes) && decide (p < j + o.lanes)))

/-- A frame on the wire of a port that is configured anew completes as it would have (R188, R315). -/
def cutWire (port : Nat) (s : State) : State :=
  let x := portAt s port
  match x.onWire with
  | none => s
  | some p => endPkt p (if p.late then qLate else qOk) 0 (some (stampTx s port x.sfd / 65536, unlocked s)) (updPort port (fun x => { x with onWire := none }) s)

/-- Generators and checkers bound to a port stop (R185). -/
def stopGens (port : Nat) (s : State) : State :=
  (List.range 4).foldl (fun t q => if (genAt t q).port = port then updGen q (fun g => { g with run := false, check := false }) t else t) s

/-- Only the width limits of a stitch port change: its link does not retrain (R177). -/
def onlyWidths (s : State) (p : Nat) (c : PortCfg) : Bool :=
  let o := (portAt s p).cfg
  stitchUp s p && { o with widthFloor := c.widthFloor, widthCeil := c.widthCeil } == c

/-- New width limits: at the end of the step under way, or now, with a step down at once when the ceiling lies below the width (R177). -/
def setWidths (p f c : Nat) (s : State) : State :=
  let u := stitchAt s p
  if u.proposal.isSome || u.stepTo.isSome then updStitch p (fun u => { u with lateCfg := some (f, c) }) s
  else stepEnded p (updStitch p (fun u => { u with lateCfg := some (f, c) }) s)

/-- What the shared checks need to know of PORT_CONFIG, opcode 0x0601. -/
def infoPortConfig : OpInfo := { code := 0x0601, len := lenIs 32 }

/-- PORT_CONFIG (R186, R188, R257). -/
def execPortConfig (c : Cmd) (s : State) : Host.Outcome State Fault Refusal :=
  done (runCommand infoPortConfig
    (answer fun _ c s =>
      let p := arg c 0 1
      let r := readPortCfg c.payload
      if portCfgBad p r then (s, err stBadLength 0)
      else if laneCount s ≤ p ∨ (r.mode = 2 ∧ !hasStitch s) then (s, err stNoUnit 0)
      else if portClash s p r then (s, err stState 2)
      else if onlyWidths s p r then (setWidths p r.widthFloor r.widthCeil (stopGens p s), ok p 0)
      else
        let s := if inService s then flushPort p (linkDown p (cutWire p s)) else s
        let s := stopGens p (clearPause p s)
        (bumpGen (ownPort p) (updPort p (fun x => { x with cfg := r, lb := 0, width := 0, lpiOn := false }) s), ok p 0)) c s)

/-- What the shared checks need to know of PORT_STATUS, opcode 0x0602. -/
def infoPortStatus : OpInfo := { code := 0x0602, len := lenIs 8, modes := modesRead }

/-- PORT_STATUS (R187). -/
def execPortStatus (c : Cmd) (s : State) : Host.Outcome State Fault Refusal :=
  done (runCommand infoPortStatus
    (readBody fun _ c s =>
      let p := arg c 0 8
      if 15 < p then err stBadLength 0
      else if laneCount s ≤ p then err stNoUnit 0
      else
        let x := portAt s p
        let w := if x.cfg.mode = 0 then 0 else if x.cfg.mode = 2 then x.width else x.cfg.lanes
        let prios (f : Nat → Bool) : Nat := ((List.range 8).filter f).foldl (fun a k => a + 2 ^ k) 0
        ok (b2n x.up + 2 * w + 16 * b2n ((List.range 8).any fun k => (heldAt s p k).tripped) + 32 * b2n x.lpiOn + 256 * prios (prioHeld s p)) 0) c s)

/-! ## Loopbacks (R180, R181, R185) -/

/-- What the shared checks need to know of PORT_LOOPBACK, opcode 0x0605. -/
def infoPortLoopback : OpInfo := { code := 0x0605, len := lenIs 8 }

/-- PORT_LOOPBACK: a change to or from 2 retrains the SerDes; any other takes effect after the frame that is on the wire. -/
def execPortLoopback (c : Cmd) (s : State) : Host.Outcome State Fault Refusal :=
  done (runCommand infoPortLoopback
    (answer fun _ c s =>
      let p := arg c 0 1
      let m := arg c 1 1
      if 15 < p ∨ 3 < m then (s, err stBadLength 0)
      else if laneCount s ≤ p then (s, err stNoUnit 0)
      else if m ≠ 0 ∧ s.mode ≠ .proving then (s, err stState 1)
      else if (portAt s p).cfg.mode ≠ 1 then (s, err stState 3)
      else
        let old := (portAt s p).lb
        if old = m then (s, ok m 0)
        else
          let s := wireDone p s
          let s := if old = 2 ∨ m = 2 then linkDown p s else s
          (updPort p (fun x => { x with lb := m }) s, ok m 0)) c s)

/-! ## Test generators (R182, R184, R185) -/

/-- A TESTGEN_SET record is out of range for its port. -/
def testgenBad (s : State) (b : Bytes) : Bool :=
  let p := portAt s (fld b 1 1)
  decide (3 < fld b 0 1) || fld b 1 1 / 4 != fld b 0 1 || decide (2 < fld b 3 1) || decide (fld b 13 1 < 14) || decide (64 < fld b 13 1) ||
  decide (fld b 4 2 < 64) || decide (fld b 4 2 < fld b 13 1 + 28) || decide (fld b 6 2 < fld b 4 2) || decide (p.cfg.maxFrame < fld b 6 2) ||
  decide (p.cfg.lanes * laneMbps p.cfg.rate * 1000 < fld b 8 4)

/-- A generator takes a TESTGEN_SET record: RUN and CHECK that rise start afresh (R184). -/
def setGen (b : Bytes) (now : Nat) (g : TestGen) : TestGen :=
  let f := fld b 2 1
  let n : TestGen := { g with port := fld b 1 1, run := bit f 0, check := bit f 1, consume := bit f 2, pattern := fld b 3 1, lenMin := fld b 4 2,
                              lenMax := fld b 6 2, rateKbps := fld b 8 4, fill := b.getD 12 0, hdr := slice b 64 (fld b 13 1), count := fld b 16 8 }
  let n := if bit f 0 && !g.run then { n with sent := 0, nextAt := now } else n
  if bit f 1 && !g.check then
    { n with checked := 0, seqGap := 0, seqOoo := 0, payErr := 0, latSum := 0, lastSeq := none,
             latMin := 0x7FFFFFFFFFFFFFFF, latMax := -0x8000000000000000 }
  else n

/-- What the shared checks need to know of TESTGEN_SET, opcode 0x0606. -/
def infoTestgenSet : OpInfo := { code := 0x0606, len := lenIs 128 }

/-- TESTGEN_SET (R182, R184, R185). -/
def execTestgenSet (c : Cmd) (s : State) : Host.Outcome State Fault Refusal :=
  done (runCommand infoTestgenSet
    (answer fun _ c s =>
      let g := arg c 0 1
      if testgenBad s c.payload then (s, err stBadLength 0)
      else if laneCount s ≤ 4 * g then (s, err stNoUnit 0)
      else if arg c 2 1 % 4 ≠ 0 ∧ s.mode ≠ .proving then (s, err stState 1)
      else (updGen g (setGen c.payload s.time.t) s, ok 0 0)) c s)

/-- What the shared checks need to know of TESTGEN_STATUS, opcode 0x0607. -/
def infoTestgenStatus : OpInfo := { code := 0x0607, len := lenIs 16, modes := modesRead, outOff := some 8 }

/-- TESTGEN_STATUS (R184). -/
def execTestgenStatus (c : Cmd) (s : State) : Host.Outcome State Fault Refusal :=
  done (runCommand infoTestgenStatus
    (readBody fun _ c s =>
      let q := arg c 0 8
      if 3 < q then err stBadLength 0
      else if laneCount s ≤ 4 * q then err stNoUnit 0
      else
        let g := genAt s q
        let i (v : Int) : Bytes := toLe 8 (unsigned 64 v)
        okOut (b2n g.run + 2 * b2n g.check) 0 (arg c 8 8)
          (toLe 8 g.sent ++ toLe 8 g.checked ++ toLe 8 g.seqGap ++ toLe 8 g.seqOoo ++ toLe 8 g.payErr ++ i g.latMin ++ i g.latMax ++ i g.latSum)) c s)

/-! ## Module management bus (R178, R179, R187) -/

/-- A module bus. -/
def busAt (s : State) (q : Nat) : ModBus := Store.get {} q s.modBus

/-- Change a module bus. -/
def updBus (q : Nat) (f : ModBus → ModBus) (s : State) : State := { s with modBus := Store.upd {} q f s.modBus }

/-- Where a byte of a module is kept. -/
def pageKey (dev bank page offset : Nat) : Nat := ((dev * 256 + bank) * 256 + page) * 256 + offset

/-- Bytes read from or written to a module are kept. -/
def keepPages (q : Nat) (x : ModXfer) (d : Bytes) (s : State) : State :=
  updBus q (fun b => { b with pages := Store.setMany 0 (pageKey x.dev x.bank x.page x.offset) d b.pages }) s

/-- A transfer starts on the bus: address, bank, page and offset, then the bytes to write. -/
def startXfer (q : Nat) (x : ModXfer) (s : State) : State :=
  emit (.moduleBus q 0 ([x.dev * 2 + b2n (!x.write), x.bank, x.page, x.offset].map (BitVec.ofNat 8) ++ x.data)) s

/-- The bus has no transfer in hand. -/
def freeBus (q : Nat) (s : State) : State := updBus q (fun b => { b with xfer := none, lost := 0, backOff := false }) s

/-- What a transaction came to: done, not acknowledged (NACK), or still on the bus. -/
def xferOutcome (q : Nat) (x : ModXfer) (got : ModReply) (s : State) : State × Option Answer :=
  if got.outcome = 0 then (updBus q (fun b => { b with xfer := some x, backOff := false }) s, none)
  else
    let s := freeBus q s
    if got.outcome = 1 then
      let d := if x.write then x.data else got.data.take x.len
      let s := keepPages q x d s
      if x.write then (s, some (ok d.length 0)) else (s, some (okOut d.length 0 x.outAddr d))
    else (count (cQuad q 2) s, some (err stRetry 0x11))

/-- The pages a module is reached by (R178): lower memory, 00h to 02h, 10h and 11h, in banks 0 to 3. -/
def pageOk (bank page : Nat) : Bool := decide (bank ≤ 3) && [0, 1, 2, 0x10, 0x11].contains page

/-- MOD_READ and MOD_WRITE. -/
def modBody (write : Bool) (got : ModReply) : Body := fun r _ c s =>
  let q := arg c 0 1
  let x : ModXfer := { ref := r, write := write, dev := arg c 1 1 % 128, bank := arg c 2 1, page := arg c 3 1, offset := arg c 4 1, len := arg c 5 1,
                       data := if write then slice c.payload 8 (arg c 5 1) else [], outAddr := if write then 0 else arg c 8 8 }
  if 3 < q ∨ !pageOk x.bank x.page ∨ x.len = 0 ∨ (if write then 8 else 128) < x.len ∨ 256 < x.offset + x.len then
    (s, some (err stBadLength 0))
  else if laneCount s ≤ 4 * q then (s, some (err stNoUnit 0))
  else if (busAt s q).xfer.isSome then (s, some (err stBusy 0))
  else xferOutcome q x got (startXfer q x s)

/-- What the shared checks need to know of MOD_READ, opcode 0x0603. -/
def infoModRead : OpInfo := { code := 0x0603, len := lenIs 16, outOff := some 8 }

/-- MOD_READ (R178, R187). -/
def execModRead (c : Cmd) (got : ModReply) (s : State) : Host.Outcome State Fault Refusal :=
  done (runCommand infoModRead (modBody false got) c s)

/-- What the shared checks need to know of MOD_WRITE, opcode 0x0604. -/
def infoModWrite : OpInfo := { code := 0x0604, len := lenIs 16 }

/-- MOD_WRITE (R178, R187). -/
def execModWrite (c : Cmd) (got : ModReply) (s : State) : Host.Outcome State Fault Refusal :=
  done (runCommand infoModWrite (modBody true got) c s)

/-- A transfer is abandoned: its command answers RETRY, its quad counts, and MOD_BUS_FAIL is raised (R179, R187). -/
def abandonXfer (q detail counter : Nat) (x : ModXfer) (s : State) : State :=
  replyIfRunning x.ref (err stRetry detail) (raise (452 + q) 0 (count (cQuad q counter) (freeBus q s)))

/-- MOD_BUS_STRETCH_TIMEOUT (R179): nine pulses free the bus. -/
def execModBusStretchTimeout (bus : Nat) (s : State) : Host.Outcome State Fault Refusal :=
  done (match (busAt s bus).xfer with
    | none => s
    | some x => emit (.moduleBus bus 2 []) (abandonXfer bus 0x12 1 x s))

/-- MOD_BUS_ARBITRATION_LOST (R179): the device stops driving the bus; the third retry lost abandons the transfer. -/
def execModBusArbitrationLost (bus : Nat) (s : State) : Host.Outcome State Fault Refusal :=
  done (match (busAt s bus).xfer with
    | none => s
    | some x =>
      if (busAt s bus).backOff then s
      else
        let s := emit (.moduleBus bus 1 []) s
        if 3 ≤ (busAt s bus).lost then abandonXfer bus 0x10 0 x s
        else updBus bus (fun b => { b with lost := b.lost + 1, backOff := true }) s)

/-- MOD_BUS_IDLE (R179): a stop and the bus free time have passed, and the device retries. -/
def execModBusIdle (bus : Nat) (got : ModReply) (s : State) : Host.Outcome State Fault Refusal :=
  done (match (busAt s bus).xfer with
    | none => s
    | some x =>
      if !(busAt s bus).backOff then s
      else match xferOutcome bus x got (startXfer bus x s) with
        | (s, some a) => replyIfRunning x.ref a s
        | (s, none) => s)

/-- Lanes of a quad that an enabled port uses. -/
def laneUsed (s : State) (lane : Nat) : Bool :=
  (List.range 16).any fun p => (portAt s p).cfg.mode != 0 && decide (p ≤ lane) && decide (lane < p + (portAt s p).cfg.lanes)

/-- MODULE_POLL (R178): the bytes of the module's monitors and the data path state of its lanes are read; flags raise MOD_ALARM, and lanes
whose data path is not as their ports want it are driven there (CMIS layout, PRESUMED, unsafe: log 29). -/
def execModulePoll (bus : Nat) (present : Bool) (bytes : List (Nat × Byte)) (states : List Nat) (s : State) : Host.Outcome State Fault Refusal :=
  done (
    if !modeTalks s || decide (laneCount s ≤ 4 * bus) || (busAt s bus).xfer.isSome then s
    else if !present then updBus bus (fun b => { b with pages := [], dataPath := [] }) s
    else
      let s := updBus bus (fun b => { b with
        pages := bytes.foldl (fun st (x : Nat × Byte) => Store.set 0 x.1 x.2 st) b.pages
        dataPath := Store.setMany 0 0 (states.take 4) [] }) s
      let flags := (List.range 4).any fun i => Store.get 0 (pageKey 0x50 0 0 (8 + i)) (busAt s bus).pages != 0
      let s := if flags then raise (448 + bus) 0 s else s
      let wrong (j : Nat) : Bool := Store.get 0 j (busAt s bus).dataPath != (if laneUsed s (4 * bus + j) then 4 else 1)
      if (List.range 4).any wrong then
        emit (.moduleBus bus 3 [BitVec.ofNat 8 (((List.range 4).filter fun j => !laneUsed s (4 * bus + j)).foldl (fun a j => a + 2 ^ j) 0)]) s
      else s)

end Sys2Proof.Machine
end

