-- ==== Sys2Proof/Machine/Pumphouse.lean ====
section
/-! DEFINITION. The Pumphouse: gates and wakes (R408, R409), points (R410 to R412), sensors and power (R413, R414), accounting intervals (R415 to
R419), the wake plan (R420), the hardware limits (R421), policy and its clipping (R422, R423), and class 0x10 (R424, R425). -/

namespace Sys2Proof.Machine

open Sys2Proof

/-- The Pumphouse runs: firmware and clocks do (R34, R108). -/
def pumpRuns (s : State) : Bool := s.mode != .dry && s.mode != .dormant

/-! ## What is in effect (R421 to R423) -/

/-- The highest point a domain may stand at: CEIL, the CLAMP point under a clamp, and 15 for domain 13 while a set is enabled. -/
def pointCeil (s : State) (d : Nat) : Nat :=
  let c := if d = 13 ∧ !(setsOn s).isEmpty then 15 else Store.get 15 d s.power.policy.ceils
  if s.power.clamp then min c clampPoint else c

/-- The lowest point a domain may stand at: FLOOR, given up under a power cap, and 15 for domain 13 while a set is enabled. -/
def pointFloor (s : State) (d : Nat) : Nat :=
  let f := if d = 13 ∧ !(setsOn s).isEmpty then 15 else if d ≤ 12 ∧ s.power.cap then 0 else Store.get 0 d s.power.policy.floors
  min f (pointCeil s d)

/-- WELL_FLOOR and AES_FLOOR are given up during a shed or a cap. -/
def floorsOff (s : State) : Bool := s.power.shed || s.power.cap

/-- WELL_FLOOR in effect. -/
def wellFloor (s : State) : BitVec 12 := if floorsOff s then 0 else s.power.policy.wellFloor

/-- AES_FLOOR in effect. -/
def aesFloor (s : State) : Nat := if floorsOff s then 0 else s.power.policy.aesFloor

/-! ## The wake plan (R420) -/

/-- A slot of a carrier holds a symbol marked in a direction. -/
def slotHolds (k : Carrier) (n : Int) (uplink : Bool) : Bool :=
  let (f, d, sl) := slotParts k n
  (List.range 14).any fun l => symDir k f d sl l == (if uplink then 2 else 1)

/-- LEAD_US in 2^-16 ns. -/
def leadTime (s : State) : Int := (s.power.policy.leadUs * 1000 * 65536 : Nat)

/-- A carrier's plan for a direction is in force: a slot that holds such a symbol has begun, or begins within LEAD_US. -/
def planOn (s : State) (c : Nat) (uplink : Bool) : Bool :=
  let k := carrierAt s c
  let now : Int := s.time.t
  k.enable && !k.dirs.isEmpty && (List.range 20).any fun i =>
    let n := slotAtTime k now + (i : Int)
    decide (slotStart k n - leadTime s ≤ now) && slotHolds k n uplink

/-- Carriers with a plan. -/
def planned (s : State) : List (Nat × Plan) := s.power.plans.filter fun (x : Nat × Plan) => (carrierAt s x.1).enable

/-- Wells that a plan keeps awake now. -/
def planWells (s : State) : Nat :=
  (planned s).foldl (fun a x => Nat.lor a (Nat.lor (if planOn s x.1 true then x.2.ulWells.toNat else 0) (if planOn s x.1 false then x.2.dlWells.toNat else 0))) 0

/-- AES pipelines that a plan keeps awake now. -/
def planAes (s : State) : Nat :=
  (planned s).foldl (fun a x => max a (max (if planOn s x.1 true then x.2.ulAes else 0) (if planOn s x.1 false then x.2.dlAes else 0))) 0

/-- Wake the wells of a mask that sleep. -/
def wakeWells (mask : Nat) (isPlan : Bool) (s : State) : State :=
  ((setBits mask (wellCount s)).filter fun w => !wellAwake s w).foldl (fun t w => startWake wkWell w isPlan t) s

/-- Wake AES pipelines, the lowest-numbered first, until `n` are awake or waking. -/
def wakeAes (n : Nat) (isPlan : Bool) (s : State) : State :=
  if !hasCipher s then s
  else
    let asleep := (List.range 12).filter fun u => !s.cipher.aesAwake.getLsbD u && !(s.power.waking.any fun (w : Nat × Nat × Nat) => w.1 == wkAes && w.2.1 == u)
    (asleep.take (n - (12 - asleep.length))).foldl (fun t u => startWake wkAes u isPlan t) s

/-- PLANNED_WAKE: LEAD_US before the next slot of a carrier that holds a symbol of the direction. -/
def execPlannedWake (carrier : Nat) (uplink : Bool) (s : State) : Host.Outcome State Fault Refusal :=
  done (
    let k := carrierAt s carrier
    let now : Int := s.time.t
    if !pumpRuns s || !k.enable || k.dirs.isEmpty then s
    else
      let first := (List.range (k.dirs.length + 20)).find? fun (i : Nat) => slotHolds k (slotAtTime k now + (i : Int)) uplink
      match first with
      | none => s
      | some i =>
        let s := advanceTo (slotStart k (slotAtTime k now + (i : Int)) - leadTime s).toNat s
        let p := Store.get ({} : Plan) carrier s.power.plans
        let s := wakeAes (if uplink then p.ulAes else p.dlAes) true (wakeWells (if uplink then p.ulWells else p.dlWells).toNat true s)
        if hasCombiner s then wakeGroups (groupsDue s) s else s)

/-! ## Gates (R408) -/

/-- A unit's wake is on its way: its gate is not entered (R409). -/
def isWaking (s : State) (kind idx : Nat) : Bool := s.power.waking.any fun (w : Nat × Nat × Nat) => w.1 == kind && w.2.1 == idx

/-- ENGINE_CLOCK_GATE: an engine with no packet for ENGINE_IDLE_NS. -/
def execEngineClockGate (engine : Nat) (s : State) : Host.Outcome State Fault Refusal :=
  done (
    let w := engine / 8
    if !pumpRuns s || decide (wellCount s ≤ w) || s.power.engGated.getLsbD engine || isWaking s wkEngine engine ||
        decide ((enginesAwake s w).length ≤ packetsAt s w) then s
    else { s with power := { s.power with engGated := s.power.engGated ||| (1#96 <<< engine) } })

/-- WELL_CLOCK_GATE: all eight engines gated for WELL_CG_US. -/
def execWellClockGate (well : Nat) (s : State) : Host.Outcome State Fault Refusal :=
  done (
    if !pumpRuns s || decide (wellCount s ≤ well) || !wellAwake s well || isWaking s wkWell well || !(enginesAwake s well).isEmpty ||
        decide (0 < packetsAt s well) || bit (planWells s) well then s
    else { s with power := { s.power with wellCg := s.power.wellCg ||| (1#12 <<< well) } })

/-- WELL_POWER_GATE: clock-gated for WELL_PG_US, and outside WELL_FLOOR. -/
def execWellPowerGate (well : Nat) (s : State) : Host.Outcome State Fault Refusal :=
  done (
    if !pumpRuns s || !s.power.wellCg.getLsbD well || isWaking s wkWell well || (wellFloor s).getLsbD well || bit (planWells s) well then s
    else { s with power := { s.power with wellCg := s.power.wellCg &&& ~~~(1#12 <<< well), wellPg := s.power.wellPg ||| (1#12 <<< well) } })

/-- CIPHER_UNIT_GATE: no message for CIPH_IDLE_US; AES pipelines only above AES_FLOOR and the plan. -/
def execCipherUnitGate (stream : Bool) (unit : Nat) (s : State) : Host.Outcome State Fault Refusal :=
  done (
    if !pumpRuns s || !hasCipher s || !cipherAwake s stream unit || isWaking s (if stream then wkStream else wkAes) unit ||
        !(unitMsgs s stream unit).isEmpty then s
    else if stream then { s with cipher := { s.cipher with strAwake := s.cipher.strAwake &&& ~~~(1#4 <<< unit) } }
    else if popcount s.cipher.aesAwake.toNat 12 ≤ max (aesFloor s) (planAes s) then s
    else { s with cipher := { s.cipher with aesAwake := s.cipher.aesAwake &&& ~~~(1#12 <<< unit) } })

/-- A command is in execution. -/
def commandWork (s : State) : Bool := s.chans.any fun (x : Nat × ChanSt) => !x.2.running.isEmpty

/-- MGMT_CORE_GATE: cores 1 to 3 with no command work for 1 ms. -/
def execMgmtCoreGate (core : Nat) (s : State) : Host.Outcome State Fault Refusal :=
  done (
    if !pumpRuns s || decide (core < 1) || decide (3 < core) || commandWork s then s
    else { s with power := { s.power with mgmtCg := s.power.mgmtCg ||| (1#4 <<< core) } })

/-- CLAY_CHANNEL_POWER_DOWN: a channel idle for 10 us. -/
def execClayChannelPowerDown (ch : Nat) (s : State) : Host.Outcome State Fault Refusal :=
  done (if !pumpRuns s || decide (16 ≤ ch) then s else { s with power := { s.power with clayPd := s.power.clayPd ||| (1#16 <<< ch) } })

/-! ## Wakes (R409) -/

/-- A unit is awake again: its gate opens. -/
def openGate (kind idx : Nat) (s : State) : State :=
  let s := { s with power := { s.power with waking := s.power.waking.filter fun (w : Nat × Nat × Nat) => !(w.1 == kind && w.2.1 == idx) } }
  if kind = wkEngine then { s with power := { s.power with engGated := s.power.engGated &&& ~~~(1#96 <<< idx) } }
  else if kind = wkWell then
    wakeEngines idx { s with power := { s.power with wellCg := s.power.wellCg &&& ~~~(1#12 <<< idx), wellPg := s.power.wellPg &&& ~~~(1#12 <<< idx) } }
  else if kind = wkComb then { s with comb := { s.comb with awake := s.comb.awake ||| (1#16 <<< idx) } }
  else if kind = wkAes then { s with cipher := { s.cipher with aesAwake := s.cipher.aesAwake ||| (1#12 <<< idx) } }
  else if kind = wkStream then { s with cipher := { s.cipher with strAwake := s.cipher.strAwake ||| (1#4 <<< idx) } }
  else if kind = wkMgmt then { s with power := { s.power with mgmtCg := s.power.mgmtCg &&& ~~~(1#4 <<< idx) } }
  else if kind = wkClay then { s with power := { s.power with clayPd := s.power.clayPd &&& ~~~(1#16 <<< idx) } }
  else if kind = wkTime then { s with power := { s.power with timeCg := !(List.range 32).any fun k => (carrierAt s k).enable } }
  else s

/-- INDEX of a histogram monitor of KIND 6 that a unit's wake feeds (R449). -/
def wakeIndex (s : State) (kind idx : Nat) : Option Nat :=
  if kind = wkWell then some (if s.power.wellPg.getLsbD idx then 1 else 2)
  else if kind = wkComb then some 3
  else if kind = wkAes ∨ kind = wkStream then some 4
  else none

/-- The latency of a wake that ends is sampled (R449). -/
def sampleWake (kind idx : Nat) (s : State) : State :=
  match wakeIndex s kind idx, s.power.waking.find? fun (w : Nat × Nat × Nat) => w.1 == kind && w.2.1 == idx with
  | some k, some w => sample 6 k (((s.time.t - w.2.2) / 65536 : Nat) : Int) s
  | _, _ => s

/-- UNIT_WAKE_COMPLETE: a wake that has started ends. Management cores wake for command work and Clay channels for an access, whose start the
model does not keep apart from its end (DESIGN CHOICE, unsafe: log 18). -/
def execUnitWakeComplete (kind index : Nat) (s : State) : Host.Outcome State Fault Refusal :=
  done (if pumpRuns s && (isWaking s kind index || (kind == wkMgmt && commandWork s) || kind == wkClay) then openGate kind index (sampleWake kind index s) else s)

/-- Units that have work and sleep start to wake: done when a limit that refused the wakes is lifted (R409, R421). -/
def wakeWaiting (s : State) : State :=
  let s := ((List.range (wellCount s)).filter fun w => decide (0 < packetsAt s w) && !wellAwake s w).foldl (fun t w => startWake wkWell w false t) s
  let s := (List.range (wellCount s)).foldl (fun t w => wakeEngines w t) s
  let unit (stream : Bool) (t : State) (u : Nat) : State :=
    if !(unitMsgs t stream u).isEmpty && !cipherAwake t stream u then startWake (if stream then wkStream else wkAes) u false t else t
  (List.range 4).foldl (unit true) ((List.range 12).foldl (unit false) s)

/-- Floors of the policy wake what they keep awake (R422). -/
def applyFloors (s : State) : State :=
  let s := wakeAes (aesFloor s) false (wakeWells ((setBits (wellFloor s).toNat 12).filter (fun w => s.power.wellPg.getLsbD w) |>.foldl (fun a w => a + 2 ^ w) 0) false s)
  if hasCombiner s then wakeGroups s.power.policy.combFloor s else s

/-! ## Points (R411, R412) -/

/-- POINT_CHANGE_DONE: the frequency has changed, and the voltage falls after it. -/
def execPointChangeDone (domain : Nat) (s : State) : Host.Outcome State Fault Refusal :=
  done (
    let aim := Store.get 0 domain s.power.pointTo
    if !pumpRuns s || aim = 0 then s
    else
      let s := { s with power := { s.power with points := Store.set 15 domain (aim - 1) s.power.points, pointTo := Store.set 0 domain 0 s.power.pointTo } }
      askMv (neededMv s) s)

/-- The point a domain stands at once the change under way is over. -/
def aimOf (s : State) (d : Nat) : Nat :=
  let aim := Store.get 0 d s.power.pointTo
  if aim = 0 then pointOf s d else aim - 1

/-- Hold a domain within what is in effect (R421, R422). -/
def boundPoint (s : State) (d : Nat) : State :=
  let k := max (pointFloor s d) (min (pointCeil s d) (aimOf s d))
  if k = aimOf s d then s else setPoint d k s

/-- Utilisation of one domain over the interval that has ended moves its point by one (R412). -/
def adaptPoint (util : List Nat) (s : State) (d : Nat) : State :=
  let c := s.power.cost
  let u := util.getD d 0
  let hold := Store.get 0 d s.power.sinceUp
  let put (runs since : Nat) (t : State) : State :=
    { t with power := { t.power with downRuns := Store.set 0 d runs t.power.downRuns, sinceUp := Store.set 0 d since t.power.sinceUp } }
  if c.upUtil < u then
    if aimOf s d < pointCeil s d ∧ !(s.power.cap && decide (d ≤ 12)) then setPoint d (aimOf s d + 1) (put 0 c.downHold s) else put 0 (hold - 1) s
  else if u < c.downUtil then
    let runs := Store.get 0 d s.power.downRuns + 1
    if c.downHold ≤ runs ∧ hold = 0 ∧ pointFloor s d < aimOf s d then setPoint d (aimOf s d - 1) (put 0 0 s) else put runs (hold - 1) s
  else put 0 (hold - 1) s

/-! ## Accounting intervals (R415 to R419) -/

/-- CAL moves toward 100 x measured / estimated, by 5 at most, within 50 to 200 (R418). With nothing estimated it stays. -/
def autoCal (s : State) : State :=
  let est := s.power.r + s.power.n
  if !s.power.cost.autoCal || est == 0 then s
  else
    let want := 100 * (s.power.accUj * 1000000) / est
    let cal := s.power.cost.cal
    let moved := if cal < want then min want (cal + 5) else max want (cal - 5)
    { s with power := { s.power with cost := { s.power.cost with cal := max 50 (min 200 moved) } } }

/-- The tables written since the last interval take effect (R419, R425). -/
def nextTables (s : State) : State :=
  { s with power := { s.power with
      cost := s.power.costNext.getD s.power.cost
      costNext := none
      policy := s.power.policyNext.getD s.power.policy
      policyNext := none
      plans := s.power.plansNext.foldl (fun l (x : Nat × Option Plan) => Store.set {} x.1 (x.2.getD {}) l) s.power.plans
      plansNext := [] } }

/-- ACCOUNTING_INTERVAL (R415, R416): the next instant whose NS is a multiple of 500,000. `util` is the utilisation of each domain in percent. -/
def execAccountingInterval (util : List Nat) (s : State) : Host.Outcome State Fault Refusal :=
  done (
    if !pumpRuns s then s
    else
      let s := advanceNs ((nowNs s / 500000 + 1) * 500000) s
      let s := autoCal s
      let s := nextTables { s with power := { s.power with lastUj := s.power.accUj / 1000, accUj := 0 } }
      let s := { s with power := { s.power with intervals := s.power.intervals + 1, overrun := false, r := plannedFj s (nowNs s), n := 0 } }
      let s := (List.range 14).foldl boundPoint ((List.range 14).foldl (adaptPoint util) s)
      retryHeld (wmCheck (applyFloors s)))

/-! ## Hardware limits (R413, R414, R421) -/

/-- 10 ms in 2^-16 ns. -/
def tenMs : Nat := 10000000 * 65536

/-- One limit looks at its condition: on above, off once it has been below the release for 10 ms. The state of the limit, since when it has been
below, and whether it has just begun. -/
def limitStep (now : Nat) (on above below : Bool) (since : Option Nat) : Bool × Option Nat × Bool :=
  if above then (true, none, !on)
  else if !on then (false, none, false)
  else if !below then (true, none, false)
  else
    let t := since.getD now
    if t + tenMs ≤ now then (false, none, false) else (true, some t, false)

/-- SENSOR_SAMPLE (R413, R421): clamp and shed. -/
def execSensorSample (readings : List Int) (s : State) : Host.Outcome State Fault Refusal :=
  done (
    if s.mode = .dry then s
    else
      let s := { s with power := { s.power with sensors := readings.take 24 } }
      let h := hottest s
      let (c, ct, cNew) := limitStep s.time.t s.power.clamp (decide (105 * 16 ≤ h)) (decide (h < 100 * 16)) s.power.clampBelow
      let (d, dt, dNew) := limitStep s.time.t s.power.shed (decide (115 * 16 ≤ h)) (decide (h < 110 * 16)) s.power.shedBelow
      let lifted := s.power.shed && !d
      let s := { s with power := { s.power with clamp := c, clampBelow := ct, shed := d, shedBelow := dt } }
      let s := if cNew then raise 1152 0 s else s
      let s := if dNew then raise 1153 0 s else s
      let s := (List.range 14).foldl boundPoint s
      if lifted then wakeWaiting s else s)

/-- Domains 0 to 12 step down one point, under no floor (R421, R423). -/
def capStep (s : State) : State :=
  (List.range 13).foldl (fun t d => if 0 < aimOf t d then setPoint d (aimOf t d - 1) t else t) s

/-- POWER_SAMPLE (R414, R421): 100 us of rail power, and the power cap. -/
def execPowerSample (rails : List Nat) (s : State) : Host.Outcome State Fault Refusal :=
  done (
    if s.mode = .dry then s
    else
      let rails := rails.take 8
      let pkg := rails.sum
      let pkgs := (pkg :: s.power.pkgs).take 4
      let cap := s.power.policy.capMw
      let above := decide (cap * pkgs.length < pkgs.sum)
      let (c, ct, new) := limitStep s.time.t s.power.cap above (decide (pkgs.sum * 100 < cap * 95 * pkgs.length)) s.power.capBelow
      let lifted := s.power.cap && !c
      let s := { s with power := { s.power with rails := rails, pkgs := pkgs, accUj := s.power.accUj + pkg * 100, cap := c, capBelow := ct } }
      let s := if new then raise 1155 0 s else s
      let s := if above then capStep s else s
      if lifted then wakeWaiting s else s)

/-- WH_THERMAL.LIMIT: the highest of the codes that apply (R406, R421). -/
def limitCode (s : State) : Nat := if s.power.cap then 3 else if s.power.shed then 2 else if s.power.clamp then 1 else 0

/-! ## Class 0x10 (R419, R422 to R425) -/

/-- A POWER_POLICY record (R424). -/
def readPolicy (b : Bytes) : PolicySt :=
  let d (v e : Nat) : Nat := if v = 0 then e else v
  { budgetMw := d (fld b 0 4) 150000, capMw := d (fld b 4 4) 150000, reservePct := fld b 8 1, leadUs := d (fld b 10 2) 20,
    wellFloor := BitVec.ofNat 12 (fld b 12 2), aesFloor := fld b 14 1, combFloor := fld b 15 1,
    floors := Store.setMany 0 0 ((List.range 14).map fun i => fld b (16 + i) 1 % 16) [],
    ceils := Store.setMany 15 0 ((List.range 14).map fun i => fld b (16 + i) 1 / 16) [] }

/-- A record is out of range, or a FLOOR lies above its CEIL (R423, R424). -/
def policyBad (p : PolicySt) : Bool :=
  decide (p.budgetMw < 1000) || decide (150000 < p.budgetMw) || decide (p.capMw < 20000) || decide (150000 < p.capMw) || decide (90 < p.reservePct) ||
  decide (p.leadUs < 2) || decide (1000 < p.leadUs) || decide (12 < p.aesFloor) || decide (16 < p.combFloor) ||
  (List.range 14).any fun d => decide (Store.get 15 d p.ceils < Store.get 0 d p.floors)

/-- The fields of a policy that a limit forbids now: field offset, requested and applied value (R423). -/
def clips (s : State) (p : PolicySt) : List (Nat × Nat × Nat) :=
  let s' := { s with power := { s.power with policy := p } }
  let one (off want got : Nat) : List (Nat × Nat × Nat) := if want = got then [] else [(off, want, got)]
  let comb := !(setsOn s).isEmpty
  let floorGot (d : Nat) : Nat :=
    let f := if d ≤ 12 ∧ s.power.cap then 0 else Store.get 0 d p.floors
    if s.power.clamp then min f clampPoint else f
  let ceilGot (d : Nat) : Nat :=
    let c := if d = 13 ∧ comb then 15 else Store.get 15 d p.ceils
    if s.power.clamp then min c clampPoint else c
  one 0 p.budgetMw (min p.budgetMw p.capMw) ++ one 12 p.wellFloor.toNat (wellFloor s').toNat ++ one 14 p.aesFloor (aesFloor s') ++
  ((List.range 14).map fun d => one (16 + d) (Store.get 0 d p.floors) (floorGot d) ++ one (16 + d) (Store.get 15 d p.ceils) (ceilGot d)).flatten

/-- What the shared checks need to know of POWER_POLICY, opcode 0x1001. -/
def infoPowerPolicy : OpInfo := { code := 0x1001, len := lenIs 64, priv := true }

/-- POWER_POLICY (R422 to R425). -/
def execPowerPolicy (c : Cmd) (s : State) : Host.Outcome State Fault Refusal :=
  done (runCommand infoPowerPolicy
    (answer fun _ c s =>
      let p := readPolicy c.payload
      if policyBad p then (s, err stBadLength 0)
      else
        let l := clips s p
        let s := l.foldl (fun t x => raise 1157 x.1 { t with power := { t.power with clip := some x } }) s
        ({ s with power := { s.power with policyNext := some p } }, ok l.length 0)) c s)

/-- A cost table (R419). -/
def readCost (b : Bytes) : CostTab :=
  { macFj := fld b 0 4, aesPj := fld b 4 2, streamPj := fld b 6 2, cal := fld b 8 1, autoCal := bit (fld b 9 1) 0, upUtil := fld b 10 1,
    downUtil := fld b 11 1, downHold := fld b 12 1, engineIdleNs := fld b 14 2, wellCgUs := fld b 16 2, wellPgUs := fld b 18 2,
    ciphIdleUs := fld b 20 2, downPct := fld b 22 1, upPct := fld b 23 1, downMs := fld b 24 2, upUs := fld b 26 2,
    progs := Store.setMany (40, 3) 0 ((List.range 256).map fun p => (fld b (64 + 8 * p) 2, fld b (66 + 8 * p) 1)) [] }

/-- A cost table is out of its ranges (R419). -/
def costBad (c : CostTab) : Bool :=
  decide (c.cal < 50) || decide (200 < c.cal) || decide (c.upUtil ≤ c.downUtil) || c.downHold == 0 || decide (c.engineIdleNs < 10) || c.wellCgUs == 0 ||
  decide (c.wellPgUs < c.wellCgUs) || c.ciphIdleUs == 0 || c.progs.any fun (x : Nat × Nat × Nat) => decide (3 < x.2.2)

/-- Write the cost table, for the next interval (R419): refused as record 0. -/
def setCost (b : Bytes) (s : State) : Except Answer State :=
  let c := readCost b
  if costBad c then .error (err stBadLength 0) else .ok { s with power := { s.power with costNext := some c } }

/-- What the shared checks need to know of POWER_COST_SET, opcode 0x1002. -/
def infoPowerCostSet : OpInfo := { code := 0x1002, len := lenIs 2112, priv := true, gated := true }

/-- POWER_COST_SET (R419, R425). -/
def execPowerCostSet (c : Cmd) (s : State) : Host.Outcome State Fault Refusal :=
  done (runCommand infoPowerCostSet
    (answer fun _ c s => match setCost c.payload s with
      | .error a => (s, a)
      | .ok s => (s, ok 0 0)) c s)

/-- What the shared checks need to know of POWER_PLAN_SET, opcode 0x1003. -/
def infoPowerPlanSet : OpInfo := { code := 0x1003, len := lenIs 8, priv := true, gated := true }

/-- POWER_PLAN_SET (R420, R425). -/
def execPowerPlanSet (c : Cmd) (s : State) : Host.Outcome State Fault Refusal :=
  done (runCommand infoPowerPlanSet
    (answer fun _ c s =>
      let p : Plan := { ulAes := arg c 1 1, dlAes := arg c 2 2, ulWells := BitVec.ofNat 16 (arg c 4 2), dlWells := BitVec.ofNat 16 (arg c 6 2) }
      if 31 < arg c 0 1 ∨ 12 < p.ulAes ∨ 12 < p.dlAes then (s, err stBadLength 0)
      else ({ s with power := { s.power with plansNext := Store.set none (arg c 0 1) (some p) s.power.plansNext } }, ok 0 0)) c s)

/-- What the shared checks need to know of POWER_STATUS, opcode 0x1004. -/
def infoPowerStatus : OpInfo := { code := 0x1004, len := lenIs 8, modes := modesRead, outOff := some 0 }

/-- POWER_STATUS (R425). -/
def execPowerStatus (c : Cmd) (s : State) : Host.Outcome State Fault Refusal :=
  done (runCommand infoPowerStatus
    (readBody fun _ c s =>
      let p := s.power
      let (off, want, got) := p.clip.getD (0, 0, 0)
      let out := ((List.range 14).map fun d => toLe 1 (pointOf s d)).flatten ++ toLe 1 (groupsAwake s) ++ toLe 1 (limitCode s) ++
        toLe 2 (s.cipher.aesAwake.toNat + 4096 * s.cipher.strAwake.toNat) ++ toLe 2 p.wellCg.toNat ++ toLe 2 p.wellPg.toNat ++
        toLe 4 (p.r / 1000000000) ++ toLe 4 (p.n / 1000000000) ++ toLe 2 off ++ toLe 4 want ++ toLe 4 got ++ toLe 1 p.cost.cal
      okOut p.intervals 0 (arg c 0 8) ((out ++ zeros 64).take 64)) c s)

/-- What the shared checks need to know of POWER_TELEMETRY, opcode 0x1005. -/
def infoPowerTelemetry : OpInfo := { code := 0x1005, len := lenIs 8, modes := modesRead, priv := true, outOff := some 0 }

/-- POWER_TELEMETRY (R414, R425). -/
def execPowerTelemetry (c : Cmd) (s : State) : Host.Outcome State Fault Refusal :=
  done (runCommand infoPowerTelemetry
    (readBody fun _ c s =>
      let p := s.power
      let out := toLe 8 (nowNs s) ++ toLe 4 p.rails.sum ++ ((List.range 8).map fun i => toLe 4 (p.rails.getD i 0)).flatten ++ toLe 4 p.lastUj ++
        ((List.range 24).map fun i => toLe 2 (unsigned 16 (p.sensors.getD i 0))).flatten
      okOut 0 0 (arg c 0 8) ((out ++ zeros 128).take 128)) c s)

/-- What the shared checks need to know of POWER_VF_READ, opcode 0x1006. -/
def infoPowerVfRead : OpInfo := { code := 0x1006, len := lenIs 16, modes := modesRead, outOff := some 8 }

/-- POWER_VF_READ (R410, R425). -/
def execPowerVfRead (c : Cmd) (s : State) : Host.Outcome State Fault Refusal :=
  done (runCommand infoPowerVfRead
    (readBody fun _ c _ =>
      let d := arg c 0 8
      if 13 < d then err stBadLength 0
      else okOut clampPoint 0 (arg c 8 8) ((List.range 16).map fun k => toLe 4 (freqKhz d k) ++ toLe 2 (pointMv d k) ++ zeros 2).flatten) c s)

end Sys2Proof.Machine
end

