-- ==== Sys2Proof/Machine/Flr.lean ====
section
/-! DEFINITION. Function-level reset (R133 to R135), what it does to commands, mailboxes, queue pairs and Pump channels, and the containment
of a link (R137 to R140). -/

namespace Sys2Proof.Machine

open Sys2Proof

/-! ## Commands that are abandoned (R49, R133, R243) -/

/-- Two references name one command: its channel and SEQ (R50); a forwarding entry carries one inner command. -/
def sameCmd (a b : CmdRef) : Bool :=
  decide (a.chan = b.chan) && (decide (a.seq = b.seq) || (match a.chan with
    | .fwd _ => true
    | _ => false))

/-- A command whose operation is still under way is abandoned at its step boundary: what it has done stands, and nothing more of it happens
(R49). A COMMIT that has switched runs on (R243), and so does a COMB_SWITCH past S. -/
def abandonOp (r : CmdRef) (s : State) : State :=
  let is (x : Option CmdRef) : Bool := x.any (sameCmd r)
  let s := if s.transit.any (fun x => is x.ref) then { s with transit := none } else s
  let s := if s.armedMode.any (fun x => is x.ref) && s.aq.armed.isNone then { s with armedMode := none } else s
  let s := if s.tables.commit.any (fun x => sameCmd r x.ref) && s.aq.armed.isNone then disarmCommit s else s
  let s := if s.rings.recover.head?.any (fun x => sameCmd r x.ref) then recoverEnd qAborted 0 0 s
    else recoverDrop (fun x => sameCmd r x.ref) s
  let s := { s with fh := { s.fh with pending := s.fh.pending.filter fun (x : Nat × PendCarrier) => !is x.2.ref } }
  let s := s.comb.sets.foldl (fun t (x : Nat × CombSet) =>
    let t := if is x.2.armed then disarmSwitch x.1 none t else t
    let t := if is x.2.loading then endReads (.weights x.1) (updSet x.1 (fun k => { k with loading := none, loadLen := 0 }) t) else t
    if is x.2.disabling then updSet x.1 (fun k => { k with disabling := none }) t else t) s
  let s := s.modBus.foldl (fun t (x : Nat × ModBus) => if is (x.2.xfer.map (·.ref)) then freeBus x.1 t else t) s
  let s := match s.aq.join with
    | some j => if is j.ref then endJoin {} { s with aq := { s.aq with join := some { j with ref := none } } } else s
    | none => s
  let s := if s.aq.change.any (fun x => sameCmd r x.ref) then abortChange s else s
  let s := { s with aq := { s.aq with ops := s.aq.ops.filter fun g => !sameCmd r g.ref } }
  let s := { s with funcs := s.funcs.map fun (x : Nat × Func) => if is x.2.destroying then (x.1, { x.2 with destroying := none }) else x }
  { s with fwd := mapWhere (fun (e : FwdEntry) => sameCmd r e.origin) (fun e => { e with timedOut := true }) s.fwd }

/-- A command is abandoned with every inner command it carries (R56); `fuel` bounds their nesting. It must be answered, or its wait ended,
before. -/
def abandon : Nat → CmdRef → State → State
  | 0, _, s => s
  | fuel + 1, r, s =>
    let inner := s.fwd.filter fun (e : FwdEntry) => e.inner && sameCmd r e.origin && !e.timedOut
    inner.foldl (fun t e => abandon fuel { chan := .fwd e.num } t) (abandonOp r s)

/-- The channels that a function's master writes: its admin ring, the channel made with it, and those bound to it (R69, R71). -/
def chansOf (s : State) (f : Nat) : List Chan :=
  Chan.admin f :: Chan.mailbox (4 + f) ::
    (s.chanTab.filter fun (x : Nat × ChanEntry) => decide (1030 ≤ x.1) && x.2.valid && fnOfMaster x.2.masterA == some f).map fun x => Chan.mailbox x.1

/-- A channel is reset (R48, R133): its waits are TIMED_OUT with no reply written, its cache is empty and no H is held. -/
def resetChan (ch : Chan) (s : State) : State :=
  let s := (chanSt s ch).running.foldl (fun t x => abandon 70 x.ref t) { s with chans := Store.set {} (Chan.code ch) {} s.chans }
  { s with chans := Store.set {} (Chan.code ch) {} s.chans }

/-! ## Mailboxes of a function that is reset (R68) -/

/-- The master of the pending notice of a box hears of it. -/
def tellMaster (m : Option Nat) (s : State) : State :=
  match m with
  | some f => raiseFnBox f s
  | none => s

/-- The receiver of a box is reset: a pending notice ends ABORTED in the sender's view, whose event is that of an acknowledgement in its own box:
192 or 193 of a manager (DEDUCED, unsafe: log 33). -/
def abortBox (b : Nat) (sender : Option Nat) (s : State) : State :=
  let x := boxAt s b
  if !x.status.getLsbD 0 then s
  else
    tellMaster sender (updBox b (fun m => { m with
      status := (m.status &&& ~~~1#32) ||| 4#32
      ack := BitVec.ofNat 32 (m.notice.toNat / 65536 * 65536 + 0x31)
      kind := 0, tmoSeq := none }) s)

/-- The sender of a box is reset: a pending notice is withdrawn. -/
def withdrawBox (b : Nat) (s : State) : State :=
  if (boxAt s b).status.getLsbD 0 then updBox b (fun m => { m with status := m.status &&& ~~~1#32, kind := 0, tmoSeq := none }) s else s

/-- The firmware boxes of which a function is MASTER_A, and those of which it is MASTER_B (R456). -/
def fwBoxes (s : State) (f : Nat) (sender : Bool) : List Nat :=
  (s.chanTab.filter fun (x : Nat × ChanEntry) =>
    decide (1030 ≤ x.1) && x.2.valid && fnOfMaster (if sender then x.2.masterA else x.2.masterB) == some f).map fun x => x.2.box

/-- The other master of a firmware box: MASTER_A of the channel that names it. -/
def fwSender (s : State) (b : Nat) : Option Nat :=
  (s.chanTab.find? fun (x : Nat × ChanEntry) => decide (1030 ≤ x.1) && x.2.valid && x.2.box == b).bind fun x => fnOfMaster x.2.masterA

/-- A function's mailbox is cleared: as a sender and as a receiver, and for a physical function as the manager of its virtual functions. -/
def clearBoxes (f : Nat) (s : State) : State :=
  let s := withdrawBox (4 + 2 * f) s
  let s := abortBox (5 + 2 * f) (if isVf f then some (pfOf f) else none) s
  let s := (fwBoxes s f true).foldl (fun t b => withdrawBox b t) s
  -- notices that the function rang in the open boxes
  let s := ((List.range 4).filter fun b => fnOfMaster (boxAt s b).ringer == some f).foldl (fun t b => withdrawBox b t) s
  let s := (fwBoxes s f false).foldl (fun t b => abortBox b (fwSender t b) t) s
  if isVf f then s
  else ((s.boxes.map (·.1)).filter fun b => decide (8 ≤ b) && decide (b < 2056) && pfOf ((b - 4) / 2) == f).foldl (fun t b =>
    if b % 2 = 0 then abortBox b (some ((b - 4) / 2)) t else withdrawBox b t) s

/-! ## Function-level reset (R133) -/

/-- The configuration space of a function answers: a physical function's, or an enumerated virtual function's (R148). -/
def answersCfg (s : State) (f : Nat) : Bool := decide (f < 1026) && (!isVf f || enumerated s f)

/-- Virtual functions of a physical function that its VF Enable and NumVFs cover. -/
def vfsOf (s : State) (pf : Nat) : List Nat :=
  let p := cfgOf s pf
  if p.vfEnable then (List.range (min p.numVfs 512)).map fun i => 2 + 512 * pf + i else []

/-- The first 50 us of an FLR: no new request is issued, reads in flight are TIMED_OUT, waits started for the function are TIMED_OUT, its mailbox
is cleared, and its reply cache is emptied. -/
def flrBegin (f : Nat) (s : State) : State :=
  if (cfgOf s f).flr then s
  else
    let s := updCfg f (fun c => { c with flr := true, deferFlr := false }) s
    let s := cutReads (fun g => g == f) s
    let s := { s with heldOut := s.heldOut.filter (fun x => x.1 != f), atsReqs := s.atsReqs.filter fun r => r.fn != f }
    (chansOf s f).foldl (fun t ch => resetChan ch t) (clearBoxes f s)

/-- A queue pair after an FLR: stopped and back at its start; a physical function's admin queue pair goes (R312). -/
def flrQp (n : Nat) (s : State) : State :=
  let q := qpAt s n
  let s := haltQp n s
  if q.ty = 2 ∧ q.idx = 0 ∧ !isVf q.fn then
    updAdm q.fn (fun r => { r with ctrl := r.ctrl &&& ~~~3#32 }) (removeQp n s)
  else updQp n (fun q => { restartQp q with state := if q.state = 0 then 0 else 2 }) s

/-- A physical function's Pump channels become idle with no record written, and its PCQs are emptied (R329). -/
def flrPumps (f : Nat) (s : State) : State :=
  let mine := s.rings.chans.filter fun (x : Nat × PumpCh) => x.2.state != 0 && pumpPf x.1 x.2 == f
  let s := mine.foldl (fun t x => idlePump x.1 t) s
  let s := { s with rings := { s.rings with pcqs := s.rings.pcqs.filter fun (x : Nat × Pcq) => x.2.pf != f } }
  recoverDrop (fun r => r.pf == f) s

/-- A function's INTx line is withdrawn before its state goes (R127). -/
def dropIntx (f : Nat) (s : State) : State :=
  if (cfgOf s f).intxOn && canWithdraw s f then emit (.intx f (intxPin s f) false) s else s

/-- The FLR of a function ends at 2 ms: its queues, caches, configuration space and MSI-X state are reset. -/
def flrEnd (f : Nat) (s : State) : State :=
  let qs := (s.rings.qps.filter fun (x : Nat × Qp) => x.2.fn == f && x.2.state != 0).map (·.1)
  let s := qs.foldl (fun t n => flrQp n t) s
  let s := if isVf f then s else flrPumps f s
  let s := bumpGen f { s with atc := s.atc.filter fun e => e.fn != f }
  let s := { s with msix := s.msix.map fun (x : Nat × Msix) => if x.1 / 4096 == f then (x.1, { x.2 with mask := true, pend := false }) else x }
  intxAll { (dropIntx f s) with fns := Store.set {} f {} s.fns }

/-- An FLR of a function runs whole. -/
def flrWhole (f : Nat) (s : State) : State := flrEnd f (flrBegin f s)

/-- FUNC_DESTROY (R157): the teardown, the forfeit of the function's buffers to an owner, and the return of its resources. -/
def destroyFn (f aim : Nat) (s : State) : Nat × State :=
  let s := flrWhole f s
  let (n, s) := forfeit f aim true s
  let s := { s with rings := { s.rings with qps := s.rings.qps.filter fun (x : Nat × Qp) => x.2.fn != f } }
  (n, { s with funcs := Store.set {} f {} s.funcs, chanTab := Store.set {} (4 + f) {} s.chanTab })

/-- A FUNC_DESTROY that waited for the function's FLR goes on, whatever ended the FLR (R158). -/
def destroyDone (f : Nat) (s : State) : State :=
  match (funcOf s f).destroying with
  | none => s
  | some r =>
    let (n, t) := destroyFn f (pfOf f) s
    replyIfRunning r (ok n 0) t

/-- The teardown of every virtual function of a physical function, as though each had undergone FLR (R134). -/
def flrVfs (pf : Nat) (s : State) : State := (vfsOf s pf).foldl (fun t v => destroyDone v (flrWhole v t)) s

/-- FLR of a function and, for a physical function, of its virtual functions (R133, R134). -/
def flrAll (f : Nat) (s : State) : State := destroyDone f (flrWhole f (if isVf f then s else flrVfs f s))

/-- Functions of a link: the physical functions on it, whose FLR takes their virtual functions with it. -/
def linkPfs (s : State) (l : Nat) : List Nat := [0, 1].filter fun f => linkOf s f == l

/-- The function lies on a link. -/
def onLink (s : State) (l f : Nat) : Bool := linkOf s f == l

/-! ## Containment (R137 to R140) -/

/-- A command's own read fails: a bank of Combiner weights answers RETRY (R368). -/
def failWeights (set : Nat) (s : State) : State :=
  match (combSet s set).loading with
  | none => s
  | some r => replyIfRunning r (err stRetry 0x20) (endReads (.weights set) (updSet set (fun x => { x with loading := none, loadLen := 0 }) s))

/-- What the device's own commands were reading through a link fails with it. -/
def failLinkReads (l : Nat) (s : State) : State :=
  let sets := s.rings.tags.filterMap fun t => match t.use with
    | .weights n => if onLink s l t.fn then some n else none
    | _ => none
  let s := sets.eraseDups.foldl (fun t n => failWeights n t) s
  if (s.rings.recover.head?.any fun r => onLink s l r.pf) && s.rings.tags.any (fun t => decide (t.use = .pump 255)) then failPump 255 qDmaFault 3 s else s

/-- Packets that wait for a receive queue pair of a link's functions are dropped and counted (R138). -/
def dropWaiting (l : Nat) (s : State) : State :=
  s.rings.qps.foldl (fun t (x : Nat × Qp) =>
    if onLink t l x.2.fn then x.2.rxWait.foldl (fun u p => dropPkt p (count (cDev 7) u)) (updQp x.1 (fun q => { q with rxWait := [] }) t) else t) s

/-- A link freezes (R138, R139): CAUSE holds the first trigger, and a later one only counts. -/
def freezeLink (l cause : Nat) (s : State) : State :=
  let x := linkAt s l
  let s := updLink l (fun x => { x with count := x.count + 1 }) s
  if x.frozen then s
  else
    let s := failLinkReads l s
    let s := updLink l (fun x => { x with frozen := true, cause := cause, time := nowNs s }) s
    let s := cutReads (fun g => onLink s l g) (raise (1 + l) 0 s)
    if cause = 8 then s else dropWaiting l s

/-- A link's freeze ends: its functions may reach the host again. -/
def thawLink (l : Nat) (s : State) : State :=
  let s := updLink l (fun x => { x with frozen := false }) s
  let s := ((s.msix.map fun (x : Nat × Msix) => x.1 / 4096).eraseDups.filter fun f => onLink s l f).foldl (fun t f => flushFn f t) s
  resumeRings (intxAll s)

/-! ## Rows -/

/-- FLR (R133 to R135): in DORMANT it is a wake event, and its times run from WAKE_DONE. One that comes while an FLR of the function runs is
ignored. -/
def execFlr (fn : Nat) (s : State) : Host.Outcome State Fault Refusal :=
  done (
    if !answersCfg s fn ∨ (cfgOf s fn).flr then s
    else if s.mode = .dormant then latchWake 7 (updCfg fn (fun c => { c with deferFlr := true }) s)
    else flrBegin fn (if isVf fn then s else (vfsOf s fn).foldl (fun t v => flrBegin v t) s))

/-- FLR_COMPLETE (R133): every live virtual function of a physical function, whose VF Enable goes, is torn down first (R134); a FUNC_DESTROY
that waited proceeds (R158). -/
def execFlrComplete (fn : Nat) (s : State) : Host.Outcome State Fault Refusal :=
  done (
    if !(cfgOf s fn).flr then s
    else
      let vs := if isVf fn then [] else vfsOf s fn
      (fn :: vs).foldl (fun t f => destroyDone f t) (flrEnd fn (vs.foldl (fun t v => flrWhole v t) s)))

/-- VF_ENABLE_CLEAR (R134): every live virtual function is torn down as by FLR; the allocation records stay. -/
def execVfEnableClear (pf : Nat) (s : State) : Host.Outcome State Fault Refusal :=
  done (if 1 < pf ∨ !(cfgOf s pf).vfEnable then s else updCfg pf (fun c => { c with vfEnable := false }) (flrVfs pf s))

/-- VF_ENABLE_SET (R134, R148): NumVFs is taken as VF Enable rises; created virtual functions that it covers are live. -/
def execVfEnableSet (pf numVfs : Nat) (s : State) : Host.Outcome State Fault Refusal :=
  done (if 1 < pf ∨ 512 < numVfs ∨ (cfgOf s pf).vfEnable then s
    else updCfg pf (fun c => { c with vfEnable := true, numVfs := numVfs }) s)

/-- Place of an uncorrectable error, by its code of CONT_STATUS.CAUSE, in AER's Uncorrectable Error Status (PCIe; PRESUMED, unsafe: log 4). -/
def aerPlace (cause : Nat) : Nat := [0, 5, 4, 13, 18, 17, 19, 22].getD cause 22

/-- An uncorrectable error enters the AER status of the link's physical functions (R113). -/
def aerError (link cause : Nat) (s : State) : State :=
  (linkPfs s link).foldl (fun t f => updCfg f (fun c => { c with aerUnc := c.aerUnc ||| BitVec.ofNat 32 (2 ^ aerPlace cause) }) t) s

/-- SURPRISE_DOWN (R137): the link is down and frozen. -/
def execSurpriseDown (link : Nat) (s : State) : Host.Outcome State Fault Refusal :=
  done (if !(linkList s).contains link then s else freezeLink link 1 (aerError link 1 (updLink link (fun x => { x with up := false, lstate := 3, l1sub := 0 }) s)))

/-- PCIE_UNCORRECTABLE_ERROR (R137): the codes of CONT_STATUS.CAUSE 2 to 7. -/
def execPcieUncorrectableError (link code : Nat) (s : State) : Host.Outcome State Fault Refusal :=
  done (if !(linkList s).contains link ∨ code < 2 ∨ 7 < code then s else freezeLink link code (aerError link code (emit (.pcieError link code) s)))

/-- HOST_REFCLK_LOSS (R475): the link goes down and R137 applies. With one link, only its own reference counts. -/
def execHostRefclkLoss (link : Nat) (s : State) : Host.Outcome State Fault Refusal :=
  done (if !(linkList s).contains link then s else freezeLink link 1 (aerError link 1 (updLink link (fun x => { x with up := false, lstate := 3, l1sub := 0 }) s)))

/-- LINK_TRAINED (R112): the rate and width the link trained to; FLIT mode always at 64 and 128 GT/s. A value a link cannot train to leaves
it. -/
def execLinkTrained (link rate width : Nat) (flit : Bool) (s : State) : Host.Outcome State Fault Refusal :=
  done (
    let most := if s.boot.straps.hostBif then 8 else 16
    if !(linkList s).contains link ∨ !([1, 2, 4, 8, 16].contains width && decide (width ≤ most)) ∨ rate < 1 ∨ 7 < rate then s
    else updLink link (fun x => { x with up := true, lstate := 0, l1sub := 0, rate := rate, width := width, flit := decide (6 ≤ rate) || flit }) s)

/-- A link is reset by PERST or a hot reset (R76, R140): it retrains, which ends its INTx lines; outside SHUT-IN its freeze clears and its
functions are reset. -/
def resetLink (l : Nat) (s : State) : State :=
  let s := updLink l (fun x => { x with up := true, lstate := 0, l1sub := 0 }) s
  let s := (linkPfs s l).foldl (fun t f => updCfg f (fun c => { c with intxOn := false }) t) s
  if s.mode = .shutIn then s
  else
    let frozenBefore := (linkAt s l).frozen
    let s := (linkPfs s l).foldl (fun t f => flrAll f t) s
    if frozenBefore then thawLink l s else s

/-- PERST (R76, R140, R472): PERST1_N is ignored while there is one link. In DORMANT the functions are reset with no wake. -/
def execPerst (link : Nat) (s : State) : Host.Outcome State Fault Refusal :=
  done (if (linkList s).contains link then resetLink link s else s)

/-- HOT_RESET (R140). -/
def execHotReset (link : Nat) (s : State) : Host.Outcome State Fault Refusal :=
  done (if (linkList s).contains link then resetLink link s else s)

end Sys2Proof.Machine
end

