-- ==== Sys2Proof/Machine/Modes.lean ====
section
/-! DEFINITION. The device modes: MODE_GET and MODE_SET (R16, R17, R57), the transitions of R22 to R32, service entry (R107), DORMANT and its
wake (R108 to R110, R342), fatal errors and SHUT-IN (R433 to R436), and the release from it (R28, R140, R141). -/

namespace Sys2Proof.Machine

open Sys2Proof

/-! ## DEV_MODE (R20) -/

/-- DEV_MODE (R20): 0 in DRY. -/
def devMode (s : State) : Nat :=
  if s.mode = .dry then 0
  else
    let target := match s.transit with
      | some x => x.target.code
      | none => s.mode.code
    s.mode.code + 8 * b2n s.transit.isSome + 16 * target + 256 * s.entryCause

/-- What the shared checks need to know of MODE_GET, opcode 0x0103. -/
def infoModeGet : OpInfo := { code := 0x0103, modes := modesRead, vf := true }

/-- MODE_GET (R16, R17, R57). An aquifer's answer has the mode in MODE and TARGET. -/
def execModeGet (c : Cmd) (s : State) : Host.Outcome State Fault Refusal :=
  done (runCommand infoModeGet
    (readBody fun t _ s => match t with
      | .aquifer l => ok (aquiferMode s l * 17) 0
      | _ => ok (devMode s) 0) c s)

/-! ## What stops when service ends (R26, R108, R185, R343, R382) -/

/-- Frames whose first byte has left a port go out whole (R315, R434). -/
def drainWires (s : State) : State :=
  (s.ports.filter fun (x : Nat × PortSt) => x.2.onWire.isSome).foldl (fun t x => wireDone x.1 t) s

/-- Every LB_MODE returns to 0, and every generator and checker stops (R185). -/
def stopLoops (s : State) : State :=
  { s with ports := s.ports.map fun (x : Nat × PortSt) => (x.1, { x.2 with lb := 0 })
           gens := s.gens.map fun (x : Nat × TestGen) => (x.1, { x.2 with run := false, check := false }) }

/-- PPS_OUT is held low (R343). -/
def ppsLow (s : State) : State :=
  if s.time.ppsOut then emit (.pinLevel .ppsOut false) { s with time := { s.time with ppsOut := false } } else s

/-- Packets the device holds are freed and counted in QUEUE_FLUSH; host-sent frames among them complete ABORTED (R26, R108, R434, R445). -/
def flushPackets (s : State) : State :=
  let (gone, s) := purge (fun _ => true) s
  wmCheck (gone.foldl (fun t p => endPkt p qAborted 0 none (count (cDev 44) t)) s)

/-- The same, with the completions of host-sent frames left to the stop of their queue pairs (R26, R315). -/
def flushForStop (s : State) : State :=
  let (gone, s) := purge (fun _ => true) s
  wmCheck (gone.foldl (fun t p => freePkt p (count (cDev 44) t)) s)

/-- Queue pairs of a type that run. -/
def runningQps (s : State) (ty : Nat) : List Nat :=
  (s.rings.qps.filter fun (x : Nat × Qp) => x.2.ty == ty && x.2.state == 1).map (·.1)

/-- Stop the running queue pairs of a type as the change to PRIMING does: they keep their state (R26, R299, R315). -/
def stopQps (ty : Nat) (s : State) : State := (runningQps s ty).foldl (fun t n => (stopQp n true t).2) s

/-- Links of the line ports go down, and stitch links are lost (R19, R401). -/
def portsDown (s : State) : State := (s.ports.map (·.1)).foldl (fun t p => linkDown p t) s

/-- The change to PRIMING (R26). The transmit queue pairs are stopping from its start, so that frames which leave their wires complete in TAG
order with those that are aborted (R315). -/
def leaveService (s : State) : State :=
  let tx := runningQps s 0
  let s := tx.foldl (fun t n => updQp n (fun q => { q with state := 3 }) t) s
  let s := drainWires s |> stopLoops |> combAbandon |> stopQps 1 |> flushForStop
  tx.foldl (fun t n => (stopQp n true t).2) s |> abortPumps |> portsDown

/-- A descriptor of a transmit frame is being processed: its data is being read (R108). -/
def txReading (s : State) : Bool := s.rings.qps.any fun (x : Nat × Qp) => x.2.frames.any (·.reading)

/-- A queue pair's prefetched descriptors are discarded: it goes back to the first of them, and they are due again (R108). -/
def parkQp (n : Nat) (s : State) : State :=
  let q := qpAt s n
  if q.state ≠ 1 ∨ q.ty = 2 then s
  else
    let s := endQpReads n s
    let s := dropFetched n s
    updQp n (fun q => match q.outst with
      | [] => q
      | t :: _ =>
        let back := if q.fetch = t.tag then sqSize q else (q.fetch + sqSize q - t.tag) % sqSize q
        { q with fetch := t.tag, fetchPhase := if q.fetch ≤ t.tag then !q.fetchPhase else q.fetchPhase, due := q.due + back,
                 reserved := q.reserved - q.outst.length, outst := [] }) s

/-- Stitch links rest with no schedule, and Ethernet links go down (R19, R402). -/
def portsRest (s : State) : State :=
  s.ports.foldl (fun t (x : Nat × PortSt) =>
    if x.2.cfg.mode = 2 then updStitch x.1 (fun u => if u.lost then u else { u with resting := true, restPend := false, listenAt := none }) t
    else linkDown x.1 t) s

/-- The L1 substate in which a link rests: L1.2 when the host has enabled it, else L1.1 when that is enabled (R113, R142). -/
def restSub (x : LinkSt) : Nat := if bit x.l1ss 2 then 2 else if bit x.l1ss 3 then 1 else 0

/-- A PCIe link rests in L1 where the host has enabled it (R142). -/
def linkRests (x : LinkSt) : LinkSt := if x.up && x.aspmL1 then { x with lstate := 2, l1sub := restSub x } else x

/-- PCIe links rest where the host has enabled it (R142). -/
def linksRest (s : State) : State := { s with links := s.links.map fun (x : Nat × LinkSt) => (x.1, linkRests x.2) }

/-- The entry to DORMANT, up to the reply (R108, R132). -/
def parkDevice (s : State) : State :=
  let s := drainWires s |> stopLoops |> combAbandon |> flushPackets
  abortPumps ((s.rings.qps.map (·.1)).foldl (fun t n => parkQp n t) s)

/-- What rests once the device is in DORMANT (R19, R132, R142, R343). -/
def restDevice (s : State) : State := { portsRest s |> linksRest |> ppsLow with atc := [] }

/-! ## Transitions (R22) -/

/-- Start a change of mode: IN_TRANSIT is set, and the gate is evaluated from PRIMING (R102, R107). -/
def startMode (r : Option CmdRef) (target : Mode) (cause : Nat) (s : State) : State :=
  { s with transit := some { ref := r, target := target, gate := s.mode == .priming, cause := cause } }

/-- Answer a mode change, to a group as one of its members. -/
def answerMode (r : Option CmdRef) (a : Answer) (s : State) : State :=
  match r with
  | some r => replyGroup r a s
  | none => s

/-- The mode changes, and MODE_CHANGE is raised (R20, R21, R439). -/
def setMode (m : Mode) (cause : Nat) (s : State) : State := raise 69 0 { s with mode := m, entryCause := cause, transit := none }

/-- GATE_DECIDED (R101, R107): a failure answers STATE with the reason; a pass lets the change go on. -/
def execGateDecided (s : State) : Host.Outcome State Fault Refusal :=
  done (match s.transit with
    | none => s
    | some x =>
      if !x.gate then s
      else match gateReason s with
        | some v => answerMode x.ref { status := stState, detail := v, r0 := s.mode.code } (gateFails v { s with transit := none })
        | none =>
          let s := { s with blocked := false, blockReason := 0, transit := some { x with gate := false } }
          match x.ref with
          | some r => markStage r 1 s
          | none => s)

/-- MODE_TRANSITION_COMPLETE (R22, R26, R107, R108): the mode is reached and the reply is written. The first entry into service sets CHAN_LOCK
(R73). DORMANT begins with the reply, once the descriptors being processed have completed. -/
def execModeTransitionComplete (s : State) : Host.Outcome State Fault Refusal :=
  done (match s.transit with
    | none => s
    | some x =>
      if x.gate then s
      else
        let reply (s : State) : State := answerMode x.ref (ok x.target.code 0) s
        match x.target with
        | .dormant =>
          if txReading s then s
          else
            let s := parkDevice s
            -- an event routed to wellhead wake on the way ends the entry (R31), and the rings go on
            if s.transit.any (·.abandon) then resumeRings (abandonEntry s)
            else
              let s := reply (raise 69 0 { s with transit := none })
              restDevice { s with mode := .dormant, entryCause := x.cause, dormantFrom := s.mode }
        | .priming => reply (setMode .priming x.cause (leaveService s))
        | m =>
          let fromPriming := decide (s.mode = .priming)
          let s := setMode m x.cause s
          reply (if fromPriming then resumeRings { s with served := true } else s))

/-! ## The fault record and SHUT-IN (R433 to R437) -/

/-- The time state on leaving DORMANT (R27, R337): UNLOCKED until the clock locks again. -/
def timeUnlocks (s : State) : State := moveTState (if s.time.cfg.source = 0 then .free else .acquiring) s

/-- Drive FAULT_N after a change. -/
def withFaultPin (f : State → State) (s : State) : State :=
  let t := f s
  if faultLow s == faultLow t then t else emit (.pinLevel .fault (!faultLow t)) t

/-- Record the first fatal or uncorrectable error: memory, word address and time (R437). -/
def recordFault (memory addr : Nat) (s : State) : State :=
  if s.fault.recorded then s
  else { s with fault := { s.fault with recorded := true, memory := memory, addr := addr, time := nowNs s } }

/-- A timed mode change that has not come ends with its command ABORTED (R434). -/
def disarmMode (s : State) : State :=
  match s.armedMode with
  | none => s
  | some a => answerMode a.ref (err stAborted 0) { s with armedMode := none }

/-- A group change ends here: the gateway aborts it, a member disarms (R434). -/
def endGroupChange (s : State) : State :=
  if s.aq.change.isSome then abortChange s
  else match s.aq.armed with
    | some x => takeAbort x.num s
    | none => s

/-- Stitch ports send LEAVE with the cause code, and the line ports stop (R434). -/
def portsShut (cause : Nat) (s : State) : State :=
  (s.ports.map (·.1)).foldl (fun t p => linkDown p (if stitchUp t p then sendCtrl p 0x05 (toLe 1 cause) t else t)) s

/-- SHUT-IN is entered (R30, R434, R436): every link freezes; a transition, a gate evaluation, a COMMIT and a join end ABORTED; outputs stop;
timed switches and group changes are disarmed. Packets stay until the release. Leaving DORMANT this way unlocks time as a wake does (R27). -/
def enterShutIn (cause entry : Nat) (s : State) : State :=
  let s := if s.mode = .dormant then timeUnlocks s else s
  let s := (linkList s).foldl (fun t l => freezeLink l 8 t) s
  let s := match s.transit with
    | some x => answerMode x.ref (err stAborted 0) { s with transit := none }
    | none => s
  let s := endGroupChange s |> disarmMode |> abortCommit |> endJoin (err stAborted 0)
  let s := (s.comb.sets.map (·.1)).foldl (fun t n => disarmSwitch n (some (err stAborted 0)) t) s
  let s := drainWires s |> stopLoops |> portsShut cause |> ppsLow
  setMode .shutIn entry { s with wh := { s.wh with waking := false } }

/-- A fatal error (R433, R434, R436): recorded, FATAL raised, and SHUT-IN entered; a later one keeps the first cause and only counts. In DRY there
is none. -/
def fatal (cause memory addr : Nat) (s : State) : State :=
  if s.mode = .dry then s
  else
    withFaultPin (fun s =>
      let s := recordFault memory addr s
      let s := { s with fault := { s.fault with
        cause := if s.fault.cause = 0 then cause else s.fault.cause
        uncorr := s.fault.uncorr || cause == 1
        latched := true
        count := min 255 (s.fault.count + 1) } }
      let s := raise 0 cause s
      if s.mode = .shutIn then s else enterShutIn cause (if cause = 4 then 4 else 3) s) s

/-- SHUT-IN by MODE_SET: its cause code and time are recorded, and no fatal error latches (R433). -/
def shutByCommand (entry : Nat) (s : State) : State :=
  withFaultPin (fun s =>
    let s := recordFault 0 0 s
    enterShutIn 6 entry { s with fault := { s.fault with cause := if s.fault.cause = 0 then 6 else s.fault.cause } }) s

/-! ## DORMANT (R108 to R110, R342, R406, R407) -/

/-- A seep tick in 2^-16 ns: 30,517.578125 ns. -/
def seepTick : Nat := 2000000000

/-- Device time resumes at the recorded time plus the ticks counted, and the time state is that of the exit from DORMANT (R337, R342). -/
def resumeTime (s : State) : State :=
  let s := if s.wh.clocksStopped then
      { s with time := { s.time with t := s.time.t + s.wh.ticks * seepTick }, wh := { s.wh with clocksStopped := false, ticks := 0, tickAcc := 0 } }
    else s
  timeUnlocks s

/-- DORMANT_CLOCKS_STOP (R108, R342): the wellhead records device time and counts ticks from here. -/
def execDormantClocksStop (s : State) : Host.Outcome State Fault Refusal :=
  done (if s.mode ≠ .dormant ∨ s.wh.clocksStopped ∨ s.wh.waking then s
    else { s with wh := { s.wh with clocksStopped := true, ticks := 0, tickAcc := 0, timerFired := false }, time := { s.time with coarse := s.time.t } })

/-- WAKE_IN_N (R109). -/
def execWakeInN (s : State) : Host.Outcome State Fault Refusal := done (latchWake 2 s)

/-- WH_WAKE (R406): a wake event in DORMANT, ignored in other modes. Virtual functions do not reach it (R461). -/
def execWhWake (fn : Nat) (value : Word) (s : State) : Host.Outcome State Fault Refusal :=
  done (
    if s.mode = .dry then s
    else if frozen s fn then count (cDev 6) s
    else if isVf fn then badAccess s
    else if s.mode = .dormant ∧ value.getLsbD 0 then latchWake 1 s else s)

/-- WAKE_TIMER (R407): the tick count reaches TICKS, once in a stay. -/
def execWakeTimer (s : State) : Host.Outcome State Fault Refusal :=
  done (if s.mode ≠ .dormant ∨ !s.wh.clocksStopped ∨ s.wh.timer = 0 ∨ s.wh.timerFired then s
    else latchWake 5 { s with wh := { s.wh with timerFired := true, ticks := max s.wh.ticks s.wh.timer.toNat } })

/-- PORT_SIGNAL_DETECT (R109): on a port armed for wake. -/
def execPortSignalDetect (port : Nat) (s : State) : Host.Outcome State Fault Refusal :=
  done (if (portAt s port).cfg.wakeArm && decide (port < laneCount s) then latchWake 3 s else s)

/-- A wake completes (R110, R128, R135, R142, R342): time resumes, the mode is restored, WAKE_DONE is raised, interrupts go out, latched doorbells
and FLRs take effect, and rings fetch again. The wake's latency is a free value of at most 1 ms (DESIGN CHOICE, safe: log 10). -/
def wakeUp (s : State) : State :=
  let s := resumeTime s
  let s := { s with links := s.links.map fun (x : Nat × LinkSt) => (x.1, if x.2.lstate = 2 then { x.2 with lstate := 0, l1sub := 0 } else x.2) }
  let (v, s) := drawFree s
  let s := sample 6 0 ((v % 1000001 : Nat) : Int) s
  let s := { s with mode := s.dormantFrom, entryCause := 2, wh := { s.wh with waking := false } }
  let s := raise 69 0 (raise 68 0 s)
  let s := ((s.msix.map fun (x : Nat × Msix) => x.1 / 4096).eraseDups).foldl (fun t f => flushFn f t) s
  let deferred := (s.fns.filter fun (x : Nat × FnCfg) => x.2.deferFlr).map (·.1)
  let s := deferred.foldl (fun t f => flrBegin f (if isVf f then t else (vfsOf t f).foldl (fun u v => flrBegin v u) t)) (intxAll s)
  resumeRings (unlatchDoorbells s)

/-! ## Release (R28, R140, R141, R434) -/

/-- SHUT-IN is left for PRIMING: kept packets are flushed, every function is reset, every link is unfrozen, and the gate runs again with no
event (R28). -/
def releaseShutIn (s : State) : State :=
  withFaultPin (fun s =>
    let s := if s.wh.clocksStopped then resumeTime s else s
    let s := combAbandon (flushPackets s)
    let s := [0, 1].foldl (fun t f => flrAll f t) s
    let s := { s with links := s.links.map fun (x : Nat × LinkSt) => (x.1, { x.2 with frozen := false }) }
    let s := setMode .priming 6 s
    { s with blocked := (gateReason s).isSome, blockReason := (gateReason s).getD 0 }) s

/-- A release is refused: REL_REFUSED of both physical functions (R141). -/
def refuseRelease (s : State) : State := [0, 1].foldl (fun t f => updCfg f (fun c => { c with relRefused := true }) t) s

/-- CONT_RELEASE (R140): a configuration write with RELEASE 1 and the low 16 bits' KEY as given. -/
def execContRelease (fn key : Nat) (s : State) : Host.Outcome State Fault Refusal :=
  done (
    let l := linkOf s fn
    let x := linkAt s l
    if 1 < fn ∨ key ≠ 0xA5 ∨ !x.frozen ∨ s.mode = .dry then s
    else if !x.up ∨ x.lstate ≠ 0 ∨ (s.mode = .shutIn ∧ !coolEnough s) then updCfg fn (fun c => { c with relRefused := true }) s
    else if s.mode = .shutIn then releaseShutIn s
    else thawLink l ((linkPfs s l).foldl (fun t f => flrAll f t) s))

/-! ## MODE_SET (R16, R17, R22, R24, R29, R57) -/

/-- A change that MODE_SET may make now begins: SHUT-IN at once, any other as a transition. -/
def beginMode (r : Option CmdRef) (target : Mode) (cause : Nat) (s : State) : State :=
  if target = .shutIn then answerMode r (ok target.code 0) (shutByCommand cause s) else startMode r target cause s

/-- MODE_SET at a device. -/
def modeSetHere (r : CmdRef) (c : Cmd) (s : State) : State × Option Answer :=
  let at_ := arg c 8 8
  if s.mode = .shutIn then
    if rootChan s 70 c.chan ≠ .sideband ∨ modeOf (arg c 0 1 % 8) ≠ some .priming then (s, some (err stState 0))
    else if !coolEnough s then (refuseRelease s, some (err stState 4))
    else (releaseShutIn s, some (ok 1 0))
  else if s.transit.isSome ∨ s.armedMode.isSome then (s, some (err stBusy 0))
  else match modeOf (arg c 0 1 % 8) with
    | none => (s, some (err stState 0))
    | some m =>
      if m = s.mode then (s, some (ok m.code 0))
      else match modeChange s m with
        | .error a => (s, some a)
        | .ok () =>
          if nowNs s < at_ then ({ s with armedMode := some { ref := some r, target := m, atNs := at_ } }, none)
          else (beginMode (some r) m 1 s, none)

/-- The gateway's own part in a group MODE_SET (R17, R32, R399): the checks that every member makes. -/
def modeSetOwn (r : CmdRef) (c : Cmd) (atNs : Nat) (s : State) : Except Answer State :=
  if s.aq.armed.isSome ∨ joinRuns s ∨ s.armedMode.isSome ∨ s.transit.isSome then .error (err stBusy 0)
  else match modeOf (arg c 0 1 % 8) with
    | none => .error (err stState 0)
    | some m =>
      if m = s.mode then .ok { s with armedMode := some { ref := some r, target := m, atNs := atNs, cause := 5 } }
      else match modeChange s m with
        | .error a => .error a
        | .ok () => .ok { s with armedMode := some { ref := some r, target := m, atNs := atNs, cause := 5 } }

/-- What the shared checks need to know of MODE_SET, opcode 0x0104. -/
def infoModeSet : OpInfo := { code := 0x0104, len := lenIs 16, modes := modesRead }

/-- MODE_SET (R22, R57): a well or an engine does not execute it (R16); the gateway carries one addressed to the aquifer (R17). -/
def execModeSet (c : Cmd) (s : State) : Host.Outcome State Fault Refusal :=
  done (runCommand infoModeSet
    (fun r t c s => match t with
      | .well _ => (s, some (err stDenied 0))
      | .engine _ => (s, some (err stDenied 0))
      | .aquifer l =>
        -- a gateway in SHUT-IN stands alone, and MODE_SET(PRIMING) is its release (R28, R141)
        if s.mode = .shutIn then modeSetHere r c s
        else
        let lead := nowNs s + 2 * worstPath s l + 100000
        let at_ := if arg c 8 8 = 0 then lead else arg c 8 8
        groupChange r c l true (arg c 0 1 % 8) 0 at_ (arg c 0 1 % 8) (modeSetOwn r c at_) s
      | _ => modeSetHere r c s) c s)

/-- MODE_SET_AT_TIME (R17, R32, R57): the armed change falls due; one that no longer exists answers STATE. -/
def execModeSetAtTime (s : State) : Host.Outcome State Fault Refusal :=
  done (match s.armedMode with
    | none => s
    | some a =>
      let s := advanceNs a.atNs s
      if s.aq.change.any (fun x => x.isMode && !x.waiting.isEmpty) then endGroupChange s
      else
        let s := { s with armedMode := none }
        let s := if a.cause = 5 then { s with aq := { s.aq with armed := none, change := none } } else s
        if a.abandon then answerMode a.ref (err stAborted 2) s
        else if s.transit.isSome then answerMode a.ref (err stBusy 0) s
        else if a.target = s.mode then answerMode a.ref (ok s.mode.code 0) s
        else match modeChange s a.target with
          | .error e => answerMode a.ref e s
          | .ok () => beginMode a.ref a.target a.cause s)

/-- THERMAL_TRIP (R421, R433): a comparator reaches 125 degrees. -/
def execThermalTrip (sensor : Nat) (s : State) : Host.Outcome State Fault Refusal :=
  done (if s.mode = .dry ∨ 23 < sensor then s else fatal 4 0 0 (raise 1154 0 s))

end Sys2Proof.Machine
end

