-- ==== Sys2Proof/Machine/Faults.lean ====
section
/-! DEFINITION. Memory protection and fatal errors (R426 to R437), the fault and event registers' own rows (R437, R442), clock losses (R475),
counters and their page (R444 to R448), and histogram monitors (R449 to R452). -/

namespace Sys2Proof.Machine

open Sys2Proof

/-! ## Register accesses from the host (R138, R142, R460) -/

/-- What a host read of a register or window returns. A frozen link returns all ones; DRY returns 0, but for what answers there; DORMANT returns 0
and counts, but for what answers there. `n` is the size in bytes. -/
def onHostRead (fn n : Nat) (dry dormant : Bool) (k : State → Nat × State) (s : State) : State :=
  if s.mode = .dry ∧ !dry then emit (.readData 0) s
  else if s.mode ≠ .dry ∧ frozen s fn then emit (.readData (2 ^ (8 * n) - 1)) s
  else if s.mode = .dormant ∧ !dormant then emit (.readData 0) (count (cDev 8) s)
  else
    let (v, s) := k s
    emit (.readData v) s

/-! ## Memory protection (R426 to R429) -/

/-- A word lies in a region that holds tables (R429): all of Table SRAM and the Sieve, and the exact-match tables of Clay. -/
def holdsTables (memory addr : Nat) : Bool := memory == 2 || memory == 3 || (memory == 9 && decide (2 ^ 37 ≤ addr))

/-- An uncorrectable error in a word (R427, R429): the word is marked poisoned, and counted when it is first marked. -/
def wordLost (memory addr : Nat) (s : State) : State :=
  let first := !(Store.get [] memory s.fault.poison).contains addr
  let s := if first then count (cMem memory 2) (markPoison memory addr true s) else s
  let s := raise 322 memory s
  let s := if holdsTables memory addr then { s with tables := { s.tables with uncorrLatch := true } } else s
  let s := recordFault memory addr s
  let s := { s with fault := { s.fault with uncorr := true } }
  if memory = 6 then fatal 1 memory addr s else s

/-- The unit a memory belongs to is present (R6). -/
def memPresent (s : State) (memory : Nat) : Bool :=
  decide (1 ≤ memory) && decide (memory ≤ 9) && (memory != 7 || hasCombiner s) && (memory != 8 || hasCipher s)

/-- PATROL_SCRUB (R426, R427): the patrol reads word `addr` of a memory. `bits` is what its syndrome says: 0 no error, 1 a data bit, 2 a check
bit, anything else uncorrectable. A word that holds the poison marker stays poisoned. -/
def execPatrolScrub (memory addr bits : Nat) (s : State) : Host.Outcome State Fault Refusal :=
  done (
    if s.mode = .dry ∨ !memPresent s memory then s
    else if (Store.get [] memory s.fault.poison).contains addr then wordLost memory addr s
    else if bits = 0 then s
    else if bits = 1 then raise 320 memory (count (cMem memory 0) s)
    else if bits = 2 then raise 321 memory (count (cMem memory 1) s)
    else wordLost memory addr s)

/-- PARITY_ERROR (R426, R433): fatal cause 3. -/
def execParityError (addr : Nat) (s : State) : Host.Outcome State Fault Refusal := done (fatal 3 0 addr s)

/-- FIRMWARE_STATE_LOST (R433): fatal cause 2. -/
def execFirmwareStateLost (s : State) : Host.Outcome State Fault Refusal := done (fatal 2 0 0 s)

/-- SUPPLY_FAULT (R433, R470): one of the eight rails, numbered as R468 lists them, has been outside its band for 10 us: fatal cause 5. In DRY the
boot stops. -/
def execSupplyFault (rail : Nat) (s : State) : Host.Outcome State Fault Refusal :=
  done (
    if 7 < rail then s
    else if s.mode = .dry then { s with boot := { s.boot with supplyStopped := true } }
    else fatal 5 0 0 s)

/-! ## Fault and event registers (R437, R441, R442) -/

/-- A write to FAULT_STATUS: bit 1 clears UNCORR; bit 0 clears LATCHED and what was recorded. -/
def clearFault (value : Word) (s : State) : State :=
  withFaultPin (fun s =>
    let f := if value.getLsbD 1 then { s.fault with uncorr := false } else s.fault
    let f := if value.getLsbD 0 then { f with latched := false, cause := 0, memory := 0, count := 0, recorded := false, addr := 0, time := 0 } else f
    { s with fault := f }) s

/-- FAULT_STATUS_CLEAR (R437): virtual functions do not reach it (R461). -/
def execFaultStatusClear (fn : Nat) (value : Word) (s : State) : Host.Outcome State Fault Refusal :=
  done (onHostWrite fn (fun s => if isVf fn then badAccess s else clearFault value s) s)

/-- A write to EVT_ENABLE_n: the enables of sources 32n to 32n + 31, in their order. -/
def writeEnables (n : Nat) (value : Word) (s : State) : State :=
  (List.range 32).foldl (fun t i => setEnable (32 * n + i) (value.getLsbD i) t) s

/-- EVT_ENABLE_WRITE (R441, R442). -/
def execEvtEnableWrite (fn n : Nat) (value : Word) (s : State) : Host.Outcome State Fault Refusal :=
  done (onHostWrite fn (fun s => if isVf fn then badAccess s else if 47 < n then s else writeEnables n value s) s)

/-! ## Clocks (R475) -/

/-- LINE_REFCLK_LOSS (R475): every line and stitch link drops; the mode does not change. -/
def execLineRefclkLoss (s : State) : Host.Outcome State Fault Refusal := done (if s.mode = .dry then s else portsDown s)

/-- SEEP_CLOCK_LOSS (R475): the wellhead runs from its internal oscillator. -/
def execSeepClockLoss (s : State) : Host.Outcome State Fault Refusal := done { s with wh := { s.wh with seepInternal := true } }

/-! ## Counters (R444 to R448) -/

/-- A counter number is assigned, and its unit is present (R6, R445, R446). -/
def counterPresent (s : State) (n : Nat) : Bool :=
  if n < 0x200 then decide (n % 32 ≤ 25) && decide (n / 32 < laneCount s) && (!(decide (18 ≤ n % 32) && decide (n % 32 ≤ 21)) || hasStitch s)
  else if n < 0x280 then
    let i := n - 0x200
    decide (i ≤ 45) && (!(decide (33 ≤ i) && decide (i ≤ 36)) || hasCipher s) && (i != 37 || hasCombiner s) && (i != 42 || hasStitch s)
  else if n < 0x340 then true
  else if n < 0x380 then
    let m := (n - 0x340) / 4 + 1
    decide (n % 4 ≤ 2) && memPresent s m
  else if n < 0x3C0 then
    let o := n - 0x380 + 1026
    decide (o ≤ 1058) && (o != 1055 || hasCipher s) && (o != 1056 || hasCombiner s) && (!(decide (1050 ≤ o) && decide (o ≤ 1053)) || hasWellsHi s) &&
      (!(decide (1034 ≤ o) && decide (o ≤ 1041)) || hasLanesHi s)
  else if n < 0x3E0 then
    let i := n - 0x3C0
    decide (i < 16) && decide (i % 4 ≤ 2) && (decide (i / 4 < 2) || hasLanesHi s)
  else if n < 0x400 then true
  else decide (0x4000 ≤ n) && decide (n < 0x4000 + 32 * 1026) && decide (n % 32 ≤ 20)

/-- What a read of a counter returns: 0 where the number is not assigned or its unit is absent (R6, R446). -/
def counterValue (s : State) (n : Nat) : Nat := if counterPresent s n then (counterOf s n).toNat else 0

/-- One COUNTERS_READ record (R446). -/
def counterRecord (s : State) (n : Nat) : Bytes :=
  toLe 8 (counterValue s n) ++ toLe 4 (nowNs s % 2 ^ 24) ++ toLe 2 n ++ toLe 2 (b2n (counterPresent s n))

/-- The counter number in a function's grant slot (R448): 0xFFFF when it is empty. -/
def grantOf (s : State) (f k : Nat) : Nat := Store.get 0xFFFF k (funcOf s f).grants

/-- A counter is on a function's page: one of its own block, or one granted to it (R161, R447). -/
def onPage (s : State) (f n : Nat) : Bool :=
  (decide (cFn f 0 ≤ n) && decide (n < cFn f 0 + 32)) || (funcOf s f).grants.any fun (x : Nat × Nat) => x.2 == n

/-- What the shared checks need to know of COUNTERS_READ, opcode 0x0105. -/
def infoCountersRead : OpInfo := { code := 0x0105, len := lenIs 16, modes := modesRead, vf := true, outOff := some 8 }

/-- COUNTERS_READ (R57, R161, R446): the samples of one command are taken at one instant. -/
def execCountersRead (c : Cmd) (s : State) : Host.Outcome State Fault Refusal :=
  done (runCommand infoCountersRead
    (readBody fun _ c s =>
      let first := arg c 0 2
      let n := arg c 2 2
      let ns := (List.range n).map fun i => first + i
      if n < 1 ∨ 256 < n ∨ 0xFFFF < first + n - 1 then err stBadLength 0
      else if (match c.chan with
          | .admin f => isVf f && ns.any fun k => !onPage s f k
          | _ => false) then err stDenied 4
      else okOut n (nowNs s) (arg c 8 8) (ns.map (counterRecord s)).flatten) c s)

/-- A 4-byte read of a function's counter page (R447): a LO register latches its counter and device time. -/
def readPage (f off : Nat) (s : State) : Nat × State :=
  let l := (funcOf s f).latch
  let lo (v : Nat) : Nat × State :=
    (v % 2 ^ 32, updFunc f (fun x => { x with latch := { counter := off, value := BitVec.ofNat 64 v, time24 := BitVec.ofNat 24 (nowNs s), used := true } }) s)
  if !(funcOf s f).counterPage then (0, s)
  else if off = 0x300 then (l.time24.toNat, s)
  else if 0x300 ≤ off then (0, s)
  else if off % 8 = 4 then (if l.used && l.counter == off - 4 then l.value.toNat / 2 ^ 32 else 0, s)
  else if off < 0x100 then lo (counterValue s (cFn f (off / 8)))
  else lo (counterValue s (grantOf s f ((off - 0x100) / 8)))

/-- COUNTER_PAGE_READ (R447): a 4-byte read at an offset of the function's page. -/
def execCounterPageRead (fn offset : Nat) (s : State) : Host.Outcome State Fault Refusal :=
  done (onHostRead fn 4 false false (fun s => if offset % 4 ≠ 0 then (0, badAccess s) else readPage fn offset s) s)

/-- What the shared checks need to know of CNT_GRANT, opcode 0x1101. -/
def infoCntGrant : OpInfo := { code := 0x1101, len := fun c => c.payloadLen == 8 + 2 * arg c 3 1, priv := true, gated := true }

/-- CNT_GRANT (R448, R452). -/
def execCntGrant (c : Cmd) (s : State) : Host.Outcome State Fault Refusal :=
  done (runCommand infoCntGrant
    (answer fun _ c s =>
      let f := arg c 0 2
      let first := arg c 2 1
      let n := arg c 3 1
      let nums := (List.range n).map fun i => arg c (8 + 2 * i) 2
      if 1025 < f ∨ 63 < first ∨ n < 1 ∨ 64 < first + n then (s, err stBadLength 0)
      else if nums.any fun k => decide (0x07FF < k) && k != 0xFFFF then (s, err stBadLength 1)
      else (updFunc f (fun x => { x with grants := Store.setMany 0xFFFF first nums x.grants }) s, ok n 0)) c s)

/-! ## Histogram monitors (R449 to R452) -/

/-- A monitor. -/
def monAt (s : State) (m : Nat) : Monitor := Store.get {} m s.monitors

/-- INDEX of a monitor's KIND is in range (R449). -/
def monIndexOk (kind index : Nat) : Bool :=
  match kind with
  | 2 => decide (index ≤ 4095)
  | 3 => decide (index ≤ 16383)
  | 4 => decide (index ≤ 4095) || index == 0xFFFF
  | 5 => decide (index ≤ 1)
  | 6 => decide (index ≤ 4)
  | _ => true

/-- What the shared checks need to know of MON_CONFIG, opcode 0x1102. -/
def infoMonConfig : OpInfo := { code := 0x1102, len := lenIs 32, priv := true, gated := true }

/-- MON_CONFIG (R450, R452): the monitor is attached and emptied. -/
def execMonConfig (c : Cmd) (s : State) : Host.Outcome State Fault Refusal :=
  done (runCommand infoMonConfig
    (answer fun _ c s =>
      let m := arg c 0 2
      let k := arg c 2 1
      let x : Monitor := { kind := k, shift := arg c 3 1, index := arg c 4 2, alarm := arg c 8 8 }
      if 255 < m ∨ 6 < k ∨ 32 < arg c 3 1 ∨ !monIndexOk k (arg c 4 2) then (s, err stBadLength 0)
      else ({ s with monitors := Store.set {} m x s.monitors }, ok 0 0)) c s)

/-- The 192-byte record of a monitor (R451). -/
def monRecord (s : State) (n : Nat) : Bytes :=
  let m := monAt s n
  toLe 2 n ++ toLe 1 m.kind ++ toLe 1 m.shift ++ toLe 2 m.index ++ zeros 2 ++ toLe 8 (unsigned 64 m.min) ++ toLe 8 (unsigned 64 m.max) ++
  toLe 8 m.count ++ toLe 8 (unsigned 64 m.sum) ++ toLe 8 (nowNs s) ++ zeros 16 ++ ((List.range 32).map fun k => toLe 4 (Store.get 0 k m.bins)).flatten

/-- What the shared checks need to know of MON_READ, opcode 0x1103. -/
def infoMonRead : OpInfo := { code := 0x1103, len := lenIs 16, modes := modesRead, outOff := some 8 }

/-- MON_READ (R451, R452): with CLEAR 1 each monitor is read and emptied in one step. -/
def execMonRead (c : Cmd) (s : State) : Host.Outcome State Fault Refusal :=
  done (runCommand infoMonRead
    (answer fun _ c s =>
      let first := arg c 0 2
      let n := arg c 2 2
      let ms := (List.range n).map fun i => first + i
      if n < 1 ∨ 256 < first + n then (s, err stBadLength 0)
      else
        let a := okOut n 0 (arg c 8 8) (ms.map (monRecord s)).flatten
        let empty (m : Monitor) : Monitor := { kind := m.kind, shift := m.shift, index := m.index, alarm := m.alarm }
        (if bit (arg c 4 1) 0 then { s with monitors := ms.foldl (fun st k => Store.upd {} k empty st) s.monitors } else s, a)) c s)

/-- What the shared checks need to know of CNT_CTX_READ, opcode 0x1104. -/
def infoCntCtxRead : OpInfo := { code := 0x1104, len := lenIs 16, modes := modesRead, outOff := some 8 }

/-- CNT_CTX_READ (R452): the counters of the cipher's contexts, absent with it. -/
def execCntCtxRead (c : Cmd) (s : State) : Host.Outcome State Fault Refusal :=
  done (runCommand infoCntCtxRead
    (readBody fun _ c s =>
      let first := arg c 0 4
      let n := arg c 4 4
      let rec_ (i : Nat) : Bytes :=
        let k := Store.get ({} : CtxRec) (first + i) s.cipher.ctxs
        toLe 8 k.authFail ++ toLe 8 k.replay ++ toLe 8 k.exhausted ++ toLe 8 k.layoutBad
      if !hasCipher s then err stNoUnit 0
      else if n < 1 ∨ 256 < n ∨ maxCtx < first + n - 1 then err stBadLength 0
      else okOut n 0 (arg c 8 8) ((List.range n).map rec_).flatten) c s)

end Sys2Proof.Machine
end

