-- ==== Sys2Proof/Machine/Mailbox.lean ====
section
/-! DEFINITION. Mailboxes (R62 to R68, R74, R456, R457): the views of a box, its registers, rings, acknowledgements and time-outs. -/

namespace Sys2Proof.Machine

open Sys2Proof

/-- The receiver of a firmware box: MASTER_B of the channel that names it. -/
def fwReceiver (s : State) (b : Nat) : Option Nat :=
  (s.chanTab.find? fun (x : Nat × ChanEntry) => decide (1030 ≤ x.1) && x.2.valid && x.2.box == b).bind fun x => fnOfMaster x.2.masterB

/-- How a function's windows show a block: some true the SEND view, some false the RECV view, none no view (R159, R456). -/
def boxView (s : State) (fn b : Nat) : Option Bool :=
  if b < 4 then (if isVf fn then none else some true)
  else if b < 2056 then
    let f := (b - 4) / 2
    let mine := f == fn
    let managed := !isVf fn && isVf f && pfOf f == fn
    if b % 2 = 0 then (if mine then some true else if managed then some false else none)
    else if mine then some false else if managed then some true else none
  else if isVf fn then none
  else if (fwBoxes s fn true).contains b then some true
  else if (fwBoxes s fn false).contains b then some false
  else none

/-- The channel whose COMMANDS bit governs a box: for an open box, its open channel, which takes commands (R70). -/
def boxCommands (s : State) (fn b : Nat) : Bool :=
  if b < 4 then true
  else if b < 2056 then (chanEntry s (4 + (b - 4) / 2)).commands
  else s.chanTab.any fun (x : Nat × ChanEntry) => decide (1030 ≤ x.1) && x.2.valid && x.2.box == b && fnOfMaster x.2.masterA == some fn && x.2.commands

/-- The receiver's mailbox event (R65, R439, R443, R457). Firmware's own boxes have none. -/
def ringReceiver (b : Nat) (s : State) : State :=
  if b < 4 then s
  else if b < 2056 then
    let f := (b - 4) / 2
    if b % 2 = 1 then raiseFnBox f s else if isVf f then raiseVfBox f s else s
  else raise (196 + (b - 2056)) 0 s

/-- The sender's mailbox event (R66, R443): a virtual function's acknowledgement of a notice in its RECV box reaches its manager. For a firmware
box it is source 192 or 193 of the sender (DEDUCED, unsafe: log 33). -/
def ringSender (b : Nat) (s : State) : State :=
  if b < 4 then s
  else if b < 2056 then
    let f := (b - 4) / 2
    if b % 2 = 0 then raiseFnBox f s else if isVf f then raiseVfBox f s else s
  else tellMaster (fwSender s b) s

/-- A ring is refused (R64, R65). -/
def refuseRing (b cause : Nat) (s : State) : State :=
  updBox b (fun m => { m with status := (m.status &&& 0x000000FF#32) ||| BitVec.ofNat 32 (256 * cause + 16) }) s

/-- SEQ of a pending notice (R63). -/
def noticeSeq (m : Mbox) : Nat := m.notice.toNat / 65536

/-- A box of a bound channel, seen by a master that is neither end of it (R74): a function's own box, or a firmware box that a valid channel
names. -/
def strangerTo (s : State) (fn b : Nat) : Bool :=
  decide (4 ≤ b) && (boxView s fn b).isNone &&
    (if b < 2056 then (chanEntry s (4 + (b - 4) / 2)).valid
     else s.chanTab.any fun (x : Nat × ChanEntry) => decide (1030 ≤ x.1) && x.2.valid && x.2.box == b)

/-- A stranger's write to a box of a bound channel is refused and counts MBOX_DENIED (R74); at a box that its windows do not show it counts as an
access outside them too (R159; DEDUCED, unsafe: log 33). -/
def denyStranger (b : Nat) (s : State) : State := count (cDev 2) (if b < 2056 then badAccess s else s)

/-- A write to MBOX_DOORBELL (R65, R74). An accepted ring leaves REJECTED and REJECT_CAUSE, which the sender clears (R64), and forgets a notice
that timed out before it (DEDUCED, unsafe: log 33). -/
def ringBox (fn b : Nat) (value : Word) (s : State) : State :=
  let m := boxAt s b
  let kind := value.toNat % 4
  if 2071 < b then s
  else match boxView s fn b with
    | none => if strangerTo s fn b then denyStranger b (refuseRing b 4 s) else badAccess s
    | some send =>
      if m.status.getLsbD 0 then refuseRing b 1 s
      else if 1 < kind then refuseRing b 2 s
      else if m.notice.toNat % 65536 = 0 then refuseRing b 3 s
      else if !send then refuseRing b 4 s
      else if kind = 1 ∧ !boxCommands s fn b then count (cDev 2) (refuseRing b 4 s)
      else
        ringReceiver b (updBox b (fun m => { m with status := m.status ||| 1#32, kind := kind, ringer := BitVec.ofNat 32 (ridOf s fn), tmoSeq := none }) s)

/-- A write to MBOX_ACK (R50, R51, R66, R74): a stray one counts, and one whose notice has timed out is late. -/
def ackWrite (fn b : Nat) (value : Word) (s : State) : State :=
  let m := boxAt s b
  let seq := value.toNat / 65536
  if 2071 < b then s
  else match boxView s fn b with
    | none =>
      if strangerTo s fn b then denyStranger b (updBox b (fun m => { m with ack := BitVec.ofNat 32 (seq * 65536 + 0x15) }) s) else badAccess s
    | some true => s
    | some false =>
      if m.status.getLsbD 0 && noticeSeq m == seq then ringSender b (ackBox b (value.toNat % 65536) s)
      else if !m.status.getLsbD 0 && m.tmoSeq == some seq then count (cFn ((fnOfMaster m.ringer).getD 0) 9) s
      else count (cDev 1) s

/-- MBOX_DOORBELL (R65). -/
def execMboxDoorbell (fn box : Nat) (value : Word) (s : State) : Host.Outcome State Fault Refusal :=
  done (onHostWrite fn (ringBox fn box value) s)

/-- MBOX_ACK (R66). -/
def execMboxAck (fn box : Nat) (value : Word) (s : State) : Host.Outcome State Fault Refusal :=
  done (onHostWrite fn (ackWrite fn box value) s)

/-- MBOX_TIMEOUT (R66): MBOX_TMO expires first. -/
def execMboxTimeout (box : Nat) (s : State) : Host.Outcome State Fault Refusal :=
  done (
    let m := boxAt s box
    if s.mode = .dry ∨ !m.status.getLsbD 0 ∨ m.tmo = 0 then s
    else updBox box (fun m => { m with status := (m.status &&& ~~~1#32) ||| 8#32, kind := 0, tmoSeq := some (noticeSeq m) }) s)

/-! ## The registers of a block (R62 to R64) -/

/-- MBOX_PEER: the other master's identity. The boxes of the physical functions and the open boxes face firmware, which has none (DESIGN CHOICE, unsafe: log 20). -/
def boxPeer (s : State) (b : Nat) (send : Bool) : Nat :=
  if b < 8 then 0
  else if b < 2056 then
    let e := chanEntry s (4 + (b - 4) / 2)
    -- MASTER_A is the function and MASTER_B its manager
    let towardManager := send == (b % 2 == 0)
    (if towardManager then e.masterB else e.masterA).toNat
  else
    match s.chanTab.find? fun (x : Nat × ChanEntry) => decide (1030 ≤ x.1) && x.2.valid && x.2.box == b with
    | some x => (if send then x.2.masterB else x.2.masterA).toNat
    | none => 0

/-- A read of a register of a block: one that shows no view there reads 0 and counts. -/
def readBox (fn b off : Nat) (s : State) : Nat × State :=
  match boxView s fn b with
  | none => (0, badAccess s)
  | some send =>
    let m := boxAt s b
    (match off with
     | 0x00 => m.addrLo.toNat
     | 0x04 => m.addrHi.toNat
     | 0x08 => m.notice.toNat
     | 0x10 => if send then m.ack.toNat else 0
     | 0x14 => if send then m.status.toNat else m.status.toNat % 2
     | 0x18 => m.tmo.toNat
     | 0x1C => boxPeer s b send
     | _ => 0, s)

/-- A write to a register of a block: the sender's while no notice pends, the doorbell, and the acknowledgement. -/
def writeBox (fn b off : Nat) (v : Word) (s : State) : State :=
  if off = 0x0C then ringBox fn b v s
  else if off = 0x10 then ackWrite fn b v s
  else match boxView s fn b with
    | none => badAccess s
    | some false => s
    | some true =>
      let free := !(boxAt s b).status.getLsbD 0
      match off with
      | 0x00 => if free then updBox b (fun m => { m with addrLo := v &&& 0xFFFFFFC0#32 }) s else s
      | 0x04 => if free then updBox b (fun m => { m with addrHi := v }) s else s
      | 0x08 => if free then updBox b (fun m => { m with notice := v }) s else s
      | 0x14 => updBox b (fun m => { m with status := m.status &&& ~~~(v &&& 0x1E#32) }) s
      | 0x18 => updBox b (fun m => { m with tmo := v }) s
      | _ => s

end Sys2Proof.Machine
end

