-- ==== Sys2Proof/Machine/Endpoint.lean ====
section
/-! DEFINITION. The endpoint's own traffic: bus mastering (R136), MSI-X (R124 to R128), completions and time-outs of device-issued reads
(R50, R51, R116, R301, R319), address translation (R129 to R132), and the peer window (R143, R144, R146, R431). -/

namespace Sys2Proof.Machine

open Sys2Proof

/-! ## Bus mastering (R132, R136) -/

/-- Bus Master Enable of a function changes: at 0 nothing new goes out and its translations go; at 1 what waits goes on. -/
def setBme (fn : Nat) (on : Bool) (s : State) : State :=
  let s := updCfg fn (fun c => { c with bme := on }) s
  if on then intxAll (flushFn fn (resumeRings s)) else { s with atc := s.atc.filter fun e => e.fn != fn }

/-- BUS_MASTER_ENABLE (R136): a configuration write, answered in every mode. -/
def execBusMasterEnable (fn : Nat) (on : Bool) (s : State) : Host.Outcome State Fault Refusal :=
  done (if answersCfg s fn then setBme fn on s else s)

/-! ## MSI-X (R125, R126) -/

/-- Entries in a function's MSI-X table: 2,048, or 256 for a virtual function. -/
def tableSize (fn : Nat) : Nat := if isVf fn then 256 else 2048

/-- The shadow of an entry takes its address and data. -/
def shadowEntry (fn e : Nat) (s : State) : State := updMsix fn e (fun m => { m with shAddr := m.addr, shData := m.data }) s

/-- The Mask bit of an entry goes from 1 to 0: a pending message is sent. -/
def unmaskEntry (fn e : Nat) (s : State) : State :=
  if (msixAt s fn e).mask then flushMsix fn e (shadowEntry fn e (updMsix fn e (fun m => { m with mask := false }) s)) else s

/-- Function Mask or MSI-X Enable changes: entries that become deliverable are shadowed, pending messages are sent, and the INTx line follows the
interrupt mode. -/
def setMsixCtl (fn : Nat) (en mask : Bool) (s : State) : State :=
  let c := cfgOf s fn
  let opens := en && !mask && !(c.msixEn && !c.fnMask)
  let s := updCfg fn (fun c => { c with msixEn := en, fnMask := mask }) s
  let mine := (s.msix.filter fun (x : Nat × Msix) => x.1 / 4096 == fn && !x.2.mask).map fun x => x.1 % 4096
  intxAll (flushFn fn (if opens then mine.foldl (fun t e => shadowEntry fn e t) s else s))

/-- MSIX_UNMASK (R126): `which` is 0 for the entry's Mask, a write of BAR4 (R138, R142); 1 for Function Mask and 2 for MSI-X Enable, writes of
configuration space. -/
def execMsixUnmask (fn entry which : Nat) (s : State) : Host.Outcome State Fault Refusal :=
  done (
    let c := cfgOf s fn
    if which = 0 then onHostWrite fn (fun s => if vecBacked s fn ≤ entry then s else unmaskEntry fn entry s) s
    else if !answersCfg s fn ∨ s.mode = .dry then s
    else if which = 1 then setMsixCtl fn c.msixEn false s
    else setMsixCtl fn true c.fnMask s)

/-! ## Device-issued reads (R116, R301, R319) -/

/-- The read that a tag served has failed: its descriptor, channel or command completes so, and nothing more of it is read. -/
def failRead (use : ReadUse) (status detail : Nat) (s : State) : State :=
  match use with
  | .fetch qp => endFetch qp (updQp qp (fun q => { q with due := 0 }) (endReads (.fetch qp) s))
  | .txData qp frame => failTxRead qp frame status detail s
  | .pump ch => failPump ch status detail s
  | .weights set => failWeights set s
  | .other => s

/-- An advisory non-fatal error is logged through AER by a function (R113, R144): its place in the uncorrectable error status, 12 a poisoned TLP received, 20 an Unsupported
Request (PCIe; PRESUMED, unsafe: log 4). -/
def logAdvisory (f code : Nat) (s : State) : State :=
  emit (.pcieError (linkOf s f) code) (updCfg f (fun c => { c with
    aerUnc := c.aerUnc ||| BitVec.ofNat 32 (2 ^ code)
    aerCor := c.aerCor ||| 0x2000#32 }) s)

/-- A read tag that is still waited for. -/
def tagOf (s : State) (tag : Nat) : Option ReadTag := s.rings.tags.find? fun t => t.num == tag

/-- READ_COMPLETION (R50, R51, R116, R138, R319, R431): `bad` is 0 for good data, 1 for poisoned, 2 for Unsupported Request or Completer Abort;
`last` says that it is the last completion of the request. One whose tag is TIMED_OUT is discarded, and LATE_DISCARDED counts. -/
def execReadCompletion (tag : Nat) (data : Bytes) (last : Bool) (bad : Nat) (s : State) : Host.Outcome State Fault Refusal :=
  done (
    match tagOf s tag with
    | some t =>
      let s := if last then sample 5 (pfOf t.fn) ((nowNs s : Int) - t.born) (freeTags (fun x => x.num == tag) s)
        else { s with rings := { s.rings with tags := mapWhere (fun x => x.num == tag) (fun x => { x with off := x.off + data.length }) s.rings.tags } }
      if bad = 0 then
        match t.use with
        | .pump ch => pumpData ch t data s
        | _ => s
      else if bad = 1 then failRead t.use qPoisoned 0 (logAdvisory t.fn 12 s)
      else failRead t.use qDmaFault 3 s
    | none =>
      match s.rings.lateReads.find? fun x => x.1 == tag with
      | some (_, f) =>
        let s := if last then { s with rings := { s.rings with lateReads := s.rings.lateReads.filter fun x => x.1 != tag } } else s
        count (cFn f 9) s
      | none => s)

/-- The range of a Completion Timeout Value code, in us (PCIe; PRESUMED, unsafe: log 4); 50 ms for 0 and when the feature is disabled (R116). -/
def ctoRange (code : Nat) : Nat × Nat :=
  match code with
  | 1 => (50, 100)
  | 2 => (1000, 10000)
  | 5 => (16000, 55000)
  | 6 => (65000, 210000)
  | 9 => (260000, 900000)
  | 10 => (1000000, 3500000)
  | 13 => (4000000, 13000000)
  | 14 => (17000000, 64000000)
  | _ => (50000, 50000)

/-- The completion time-out of a function (R116): within the range of its code, where in it is left to the implementation. -/
def ctoNs (s : State) (fn : Nat) : Nat :=
  let (lo, hi) := ctoRange (cfgOf s fn).cto
  1000 * (lo + Config.ctoPick (cfgOf s fn).cto % (hi - lo + 1))

/-- READ_TIMEOUT (R116): the time-out is recorded first, and the issuer completes DMA_FAULT with detail 1. -/
def execReadTimeout (tag : Nat) (s : State) : Host.Outcome State Fault Refusal :=
  done (
    match tagOf s tag with
    | none => s
    | some t => failRead t.use qDmaFault 1 (timeOutReads (fun x => x.num == tag) (advanceNs (t.born + ctoNs s t.fn) s)))

/-! ## Address translation (R129 to R132) -/

/-- Held accesses go out again, in order: each takes a cached translation, or misses and holds those behind it. -/
def reissueHeld (l : List (WKind × Out)) (s : State) : State := l.foldl (fun t x => issue x.1 x.2 t) s

/-- A translation enters the cache, which keeps the 8,192 used last (R129). -/
def cacheTranslation (e : AtcEntry) (s : State) : State := { s with atc := (e :: s.atc).take 8192 }

/-- Replace `n` bytes of a list from place `i`. -/
def patchBytes (i n v : Nat) (d : Bytes) : Bytes := d.take i ++ toLe n v ++ d.drop (i + n)

/-- The completion entry that a refused receive payload belongs to, the next one held behind it, says DMA_FAULT with detail 2 (R130, R301): its
bytes 4 to 31, then its bytes 0 to 3 (R306). -/
def faultCqe : List (WKind × Out) → List (WKind × Out)
  | [] => []
  | (.cqe, .hostWrite f a d ro bad) :: r =>
    if d.length = 4 then (.cqe, .hostWrite f a (patchBytes 2 1 qDmaFault d) ro bad) :: r
    else (.cqe, .hostWrite f a (patchBytes 8 4 2 d) ro bad) :: faultCqe r
  | x :: r => x :: faultCqe r

/-- The first of the held accesses is refused: what it was for completes DMA_FAULT with detail 2 (R130, R301), and the others go out in order. Of a
refused receive payload the completion says so; a refused destination write ends its transfer, of which nothing more is written; a completion,
record or reply that is refused is not written, which leaves nothing to complete (DESIGN CHOICE, unsafe: log 32). -/
def refuseFirst (l : List (WKind × Out)) (s : State) : State :=
  match l with
  | [] => s
  | (_, .hostRead _ tag _ _) :: rest =>
    let s := match tagOf s tag with
      | some t => failRead t.use qDmaFault 2 (freeTags (fun x => x.num == tag) s)
      | none => s
    reissueHeld rest s
  | (.rx, .hostWrite f _ _ _ _) :: rest => reissueHeld (faultCqe rest) (count (cFn f 19) s)
  | (.dest ch, _) :: rest => failPump ch qDmaFault 2 (reissueHeld (rest.filter fun x => x.1 != .dest ch) s)
  | _ :: rest => reissueHeld rest s

/-- TRANSLATION_COMPLETION (R130, R131): `ok` is 0 for a page not present. -/
def execTranslationCompletion (req : Nat) (ok : Bool) (entry : AtsReply) (s : State) : Host.Outcome State Fault Refusal :=
  done (
    match s.atsReqs.find? fun r => r.num == req with
    | none => s
    | some r =>
      if r.stale then
        let s := { s with atsReqs := s.atsReqs.filter fun x => x.num != req }
        -- the access misses again: a new request, unless the function can issue none (R136, R138)
        reissueHeld r.holds s
      else
        let s := { s with atsReqs := s.atsReqs.filter fun x => x.num != req }
        let sized := decide (4096 ≤ entry.size) && decide (entry.size ≤ 2 ^ 30)
        if ok && sized && (if r.write then entry.wr else entry.rd) then
          let e : AtcEntry := { fn := r.fn, base := r.addr / entry.size * entry.size, size := entry.size,
                                target := entry.target / entry.size * entry.size, rd := entry.rd, wr := entry.wr }
          reissueHeld r.holds (cacheTranslation e s)
        else
          refuseFirst r.holds (count (cDev 5) s))

/-- Two ranges overlap. -/
def overlaps (a n b m : Nat) : Bool := decide (a < b + m) && decide (b < a + n)

/-- INVALIDATE_REQUEST (R131, R132): matching entries go, Translation Requests under way are stale, and the reads that used the entries are waited
for. -/
def execInvalidateRequest (itag fn base size : Nat) (s : State) : Host.Outcome State Fault Refusal :=
  done (
    if !answersCfg s fn ∨ s.mode = .dry then s
    else
      let heldTags := (s.atsReqs.map fun r => r.holds.filterMap fun x => match x.2 with
        | .hostRead _ t _ _ => some t
        | _ => none).flatten
      let waits := (s.rings.tags.filter fun t => t.fn == fn && overlaps t.addr t.bytes base size && !heldTags.contains t.num).map (·.num)
      { s with
        atc := s.atc.filter fun e => !(e.fn == fn && overlaps e.base e.size base size)
        atsReqs := mapWhere (fun r => r.fn == fn && overlaps r.addr 1 base size) (fun r => { r with stale := true }) s.atsReqs
        invReqs := s.invReqs ++ [{ itag := itag, fn := fn, base := base, size := size, waits := if (cfgOf s fn).ats then waits else [] }] })

/-- INVALIDATE_COMPLETION (R131): sent once every read that used the entries has completed or timed out. Writes are posted as they are issued. -/
def execInvalidateCompletion (itag fn : Nat) (s : State) : Host.Outcome State Fault Refusal :=
  done (
    match s.invReqs.find? fun (r : InvReq) => r.itag == itag && r.fn == fn with
    | none => s
    | some r =>
      if frozen s fn ∨ (s.rings.tags.any fun t => r.waits.contains t.num) then s
      else emit (.invCompletion fn itag) { s with invReqs := s.invReqs.filter fun x => !decide (x = r) })

/-- ATS Enable of a function goes to 0: its translations are removed, and what waited for one goes out untranslated. -/
def atsOff (fn : Nat) (s : State) : State :=
  let held := ((s.atsReqs.filter fun r => r.fn == fn).map (·.holds)).flatten
  let s := updCfg fn (fun c => { c with ats := false }) s
  reissueHeld held { s with atc := s.atc.filter (fun e => e.fn != fn), atsReqs := s.atsReqs.filter fun r => r.fn != fn }

/-- ATS_ENABLE_CLEAR (R130, R132). -/
def execAtsEnableClear (fn : Nat) (s : State) : Host.Outcome State Fault Refusal :=
  done (if answersCfg s fn && (cfgOf s fn).ats then atsOff fn s else s)

/-! ## The peer window (R144, R146, R431) -/

/-- Bytes of the window: 16 MiB. -/
def peerSize : Nat := 2 ^ 24

/-- The window takes an access of a requester (R144, R146): enabled, in service, within 24 GiB, from a listed requester. -/
def peerOpen (s : State) (pf rid offset n : Nat) : Bool :=
  let p := Store.get {} pf s.peers
  p.win.getLsbD 0 && inService s && decide (clayOffset s pf + peerSize ≤ 24 * 2 ^ 30) && decide (offset + n ≤ peerSize) &&
  p.allow.any fun (x : Nat × Word) => x.2.getLsbD 31 && x.2.toNat % 131072 == rid % 131072

/-- A refused access to the window: PEER_DENIED counts, and the error is logged. -/
def peerRefuse (pf : Nat) (s : State) : State := logAdvisory pf 20 (count (cDev 9) s)

/-- A write into the window. One with EP set poisons every word that it touches. -/
def peerWrite (pf rid offset : Nat) (data : Bytes) (bad : Bool) (s : State) : State :=
  if !peerOpen s pf rid offset data.length then peerRefuse pf s
  else
    let a := clayOffset s pf + offset
    let s := if bad then
        logAdvisory pf 12 (((List.range (data.length / 8 + 2)).filter fun k => decide (8 * (a / 8 + k) < a + data.length)).foldl
          (fun t k => markPoison 9 (a / 8 + k) true t) s)
      else clayWrite a data s
    if 0xFFF000 < offset + data.length then raise (128 + pf) 0 s else s

/-- PEER_WINDOW_WRITE (R144, R431). -/
def execPeerWindowWrite (pf rid offset : Nat) (data : Bytes) (bad : Bool) (s : State) : Host.Outcome State Fault Refusal :=
  done (onHostWrite pf (fun s => if data.isEmpty then s else peerWrite pf rid offset data bad s) s)

/-- A read of the window: one that is refused completes with Unsupported Request (R144), and poisoned words make the completion's EP set (R430). -/
def peerRead (pf rid offset len : Nat) (s : State) : State :=
  if !peerOpen s pf rid offset len then emit (.unsupportedRead (linkOf s pf)) (peerRefuse pf s)
  else
    let a := clayOffset s pf + offset
    let d := readBytes s.clay a len
    if poisonedIn s 9 a len then emit (.readBytes d true) (poisonConsumed 9 (count (cDev 10) s)) else emit (.readBytes d false) s

/-- PEER_WINDOW_READ (R144): a frozen link returns all ones, and DORMANT and DRY return 0 (R138, R142, R460). -/
def execPeerWindowRead (pf rid offset len : Nat) (s : State) : Host.Outcome State Fault Refusal :=
  done (
    if s.mode = .dry then emit (.readBytes (zeros len) false) s
    else if frozen s pf then emit (.readBytes (List.replicate len 0xFF) false) s
    else if s.mode = .dormant then emit (.readBytes (zeros len) false) (count (cDev 8) s)
    else peerRead pf rid offset len s)

end Sys2Proof.Machine
end

