-- ==== Sys2Proof/Machine/Tenancy.lean ====
section
/-! DEFINITION. Virtual functions: the allocation record (R150), its placement in the device's pools (R151 to R154), FUNC_CREATE,
FUNC_DESTROY and FUNC_QUERY (R155 to R158), and SPOOF_SET (R162). -/

namespace Sys2Proof.Machine

open Sys2Proof

/-! ## The allocation record (R150) -/

/-- Read an allocation record; the fields the device writes are ignored. -/
def readAlloc (b : Bytes) : Func :=
  { created := true, qpCount := fld b 2 2, vecCount := fld b 4 2, policers := fld b 6 2, cisternKib := fld b 8 4,
    emEntries := fld b 12 4, sieveEntries := fld b 16 4, cipherCtx := fld b 20 4, eaxcEntries := fld b 24 2, counterPage := bit (fld b 32 4) 0 }

/-- The record FUNC_QUERY writes: FUNC alone for a function that is not created (DESIGN CHOICE, unsafe: log 20). -/
def allocBytes (f : Nat) (r : Func) : Bytes :=
  if !r.created then toLe 2 f ++ zeros 62
  else toLe 2 f ++ toLe 2 r.qpCount ++ toLe 2 r.vecCount ++ toLe 2 r.policers ++ toLe 4 r.cisternKib ++ toLe 4 r.emEntries ++
    toLe 4 r.sieveEntries ++ toLe 4 r.cipherCtx ++ toLe 2 r.eaxcEntries ++ zeros 2 ++ toLe 2 r.qpBase ++ toLe 2 r.vecBase ++
    toLe 4 (b2n r.counterPage) ++ zeros 28

/-- Every field of a record lies in its range (R150). -/
def allocInRange (f : Nat) (r : Func) : Bool :=
  decide (f ≤ 1025) && decide (1 ≤ r.qpCount) && decide (r.qpCount ≤ (if isVf f then 256 else 16384)) &&
  decide (1 ≤ r.vecCount) && decide (r.vecCount ≤ (if isVf f then 256 else 2048)) && decide (r.policers ≤ 16384) &&
  !(isVf f && r.cisternKib == 0xFFFFFFFF) && decide (r.emEntries ≤ 33554432) && decide (r.sieveEntries ≤ 65536) &&
  decide (r.cipherCtx ≤ 131072) && decide (r.eaxcEntries ≤ 512)

/-! ## Placement (R151, R152) -/

/-- The records of every other function. -/
def otherFuncs (s : State) (f : Nat) : List Func := (s.funcs.filter fun (x : Nat × Func) => x.1 != f && x.2.created).map (·.2)

/-- The lowest-numbered free block of `n` beside the blocks taken, given by base and count: it starts at 0 or at the end of one of them. -/
def lowestBlock (taken : List (Nat × Nat)) (n : Nat) : Nat :=
  let free (a : Nat) : Bool := taken.all fun (t : Nat × Nat) => decide (a + n ≤ t.1) || decide (t.1 + t.2 ≤ a)
  let starts := (0 :: taken.map fun (t : Nat × Nat) => t.1 + t.2).filter free
  starts.foldl min (starts.headD 0)

/-- A record with its blocks of queue pairs and vectors assigned. -/
def placeAlloc (s : State) (f : Nat) (r : Func) : Func :=
  let others := otherFuncs s f
  { r with
    qpBase := lowestBlock (others.map fun (o : Func) => (o.qpBase, o.qpCount)) r.qpCount
    vecBase := lowestBlock (others.map fun (o : Func) => (o.vecBase, o.vecCount)) r.vecCount }

/-- The record offset of the first field that does not fit in what no other function holds (R151, R152). -/
def allocMisfit (s : State) (f : Nat) (r : Func) : Option Nat :=
  let others := otherFuncs s f
  let sum (g : Func → Nat) : Nat := (others.map g).sum
  let r := placeAlloc s f r
  let fields : List (Nat × Bool) := [
    (2, decide (r.qpBase + r.qpCount ≤ 16384)),
    (4, decide (r.vecBase + r.vecCount ≤ 8192)),
    (6, decide (sum (·.policers) + r.policers ≤ 16384)),
    (8, r.cisternKib == 0xFFFFFFFF || decide (sum quotaHeld + r.cisternKib ≤ quotaTotal s)),
    (12, decide (sum (·.emEntries) + r.emEntries ≤ 33554432)),
    (16, decide (sum (·.sieveEntries) + r.sieveEntries ≤ 65536)),
    (20, decide (sum (·.cipherCtx) + r.cipherCtx ≤ 131072)),
    (24, decide (sum (·.eaxcEntries) + r.eaxcEntries ≤ 16384))]
  (fields.find? fun x => !x.2).map (·.1)

/-! ## Installing a record (R71, R152, R156, R444) -/

/-- A function whose block moves keeps its queue pairs under their new numbers; one that a smaller QP_COUNT leaves out goes (DESIGN CHOICE, unsafe: log 20). -/
def rebaseQps (f base count : Nat) (s : State) : State :=
  let mine := s.rings.qps.filter fun (x : Nat × Qp) => x.2.fn == f && x.2.state != 0
  let s := mine.foldl (fun t x => if x.2.idx < count then t else haltQp x.1 t) s
  let kept := mine.filter fun (x : Nat × Qp) => decide (x.2.idx < count)
  let move (n : Nat) : Nat := match kept.find? fun (x : Nat × Qp) => x.1 == n with
    | some x => base + x.2.idx
    | none => n
  let qps := mine.foldl (fun (st : Store Qp) x => Store.set {} x.1 {} st) s.rings.qps
  let qps := kept.foldl (fun (st : Store Qp) x => Store.set {} (base + x.2.idx) (qpAt s x.1) st) qps
  let moveUse (u : ReadUse) : ReadUse := match u with
    | .fetch n => .fetch (move n)
    | .txData n f => .txData (move n) f
    | u => u
  let tags := s.rings.tags.map fun (t : ReadTag) => { t with use := moveUse t.use }
  let readQ := s.rings.readQ.map fun (w : WaitRead) => { w with use := moveUse w.use }
  { s with rings := { s.rings with qps := qps, tags := tags, readQ := readQ } }

/-- The channel entry of a function: its requester ID and that of its managing physical function (R71, R161, R457). -/
def funcChannel (s : State) (f : Nat) : ChanEntry :=
  { masterA := BitVec.ofNat 32 (ridOf s f), masterB := BitVec.ofNat 32 (ridOf s (pfOf f)), valid := true,
    commands := !isVf f, priv := !isVf f, box := 4 + 2 * f }

/-- Store a function's record and channel entry in one step (R156). What its allow lists and grants hold stays. -/
def installFunc (f : Nat) (r : Func) (s : State) : State :=
  let old := funcOf s f
  let s := if old.created then rebaseQps f r.qpBase r.qpCount s else s
  let keep : Func := { old with
    created := true, qpCount := r.qpCount, vecCount := r.vecCount, policers := r.policers, cisternKib := r.cisternKib,
    emEntries := r.emEntries, sieveEntries := r.sieveEntries, cipherCtx := r.cipherCtx, eaxcEntries := r.eaxcEntries,
    qpBase := r.qpBase, vecBase := r.vecBase, counterPage := r.counterPage }
  wmCheck { s with funcs := Store.set {} f keep s.funcs, chanTab := Store.set {} (4 + f) (funcChannel s f) s.chanTab }

/-- FUNC_CREATE sets the created function's counter block to 0 (R444). -/
def clearFnCounters (f : Nat) (s : State) : State :=
  { s with counters := (List.range 32).foldl (fun st i => Store.set 0 (cFn f i) 0 st) s.counters }

/-! ## Class 0x03 (R155 to R158) -/

/-- The checks that every operation on a function makes: its number, whose function it is, and another channel's command on it. -/
def funcRefused (r : CmdRef) (f : Nat) (s : State) : Option Answer :=
  if 1025 < f then some (err stBadLength 0)
  else if isVf f && (match chanFn s r.chan with
      | some g => pfOf f != pfOf g
      | none => false) then some (err stDenied 5)
  else if (funcOf s f).destroying.any (fun x => x.chan != r.chan) then some (err stBusy 0)
  else none

/-- What the shared checks need to know of FUNC_CREATE, opcode 0x0301. -/
def infoFuncCreate : OpInfo :=
  { code := 0x0301, len := lenIs 64, priv := true, gated := true, modeDetail := fun c => if isVf (arg c 0 2) then 0 else 1 }

/-- FUNC_CREATE (R150 to R156). -/
def execFuncCreate (c : Cmd) (s : State) : Host.Outcome State Fault Refusal :=
  done (runCommand infoFuncCreate
    (fun ref _ c s =>
      let f := arg c 0 2
      let r := readAlloc c.payload
      match funcRefused ref f s with
      | some a => (s, some a)
      | none =>
        if !allocInRange f r then (s, some (err stBadLength 0))
        else if !isVf f ∧ s.mode ≠ .priming then (s, some (err stState 1))
        else if isVf f ∧ (funcOf s f).created then (s, some (err stState 2))
        else if r.cipherCtx ≠ 0 ∧ !hasCipher s then (s, some (err stNoUnit 1))
        else match allocMisfit s f r with
          | some off => (s, some (err stNoResource off))
          | none =>
            let r := placeAlloc s f r
            (clearFnCounters f (installFunc f r s), some (ok (r.qpBase + 65536 * r.vecBase) f))) c s)

/-- What the shared checks need to know of FUNC_DESTROY, opcode 0x0302. -/
def infoFuncDestroy : OpInfo := { code := 0x0302, len := lenIs 8, priv := true, gated := true }

/-- FUNC_DESTROY (R157, R158): it waits while the function's FLR runs. -/
def execFuncDestroy (c : Cmd) (s : State) : Host.Outcome State Fault Refusal :=
  done (runCommand infoFuncDestroy
    (fun ref _ c s =>
      let f := arg c 0 8
      if f < 2 then (s, some (err stDenied 6))
      else match funcRefused ref f s with
        | some a => (s, some a)
        | none =>
          if !(funcOf s f).created then (s, some (err stState 0))
          else if (cfgOf s f).flr then (updFunc f (fun x => { x with destroying := some ref }) s, none)
          else
            let (n, s) := destroyFn f (pfOf f) s
            (s, some (ok n 0))) c s)

/-- What the shared checks need to know of FUNC_QUERY, opcode 0x0303. -/
def infoFuncQuery : OpInfo := { code := 0x0303, len := lenIs 16, modes := modesRead, priv := true, outOff := some 8 }

/-- FUNC_QUERY (R150, R155). -/
def execFuncQuery (c : Cmd) (s : State) : Host.Outcome State Fault Refusal :=
  done (runCommand infoFuncQuery
    (fun ref _ c s =>
      let f := arg c 0 8
      match funcRefused ref f s with
      | some a => (s, some a)
      | none => (s, some (okOut (b2n (funcOf s f).created) 0 (arg c 8 8) (allocBytes f (funcOf s f))))) c s)

/-! ## SPOOF_SET (R162, R165) -/

/-- Entry size of an allow list. -/
def spoofSize (list : Nat) : Nat := [8, 2, 8, 24, 4].getD list 4

/-- Most entries of an allow list; an eAxC list is bounded by EAXC_ENTRIES. -/
def spoofMost (list : Nat) : Nat := [16, 16, 32, 32].getD list 65535

/-- A prefix length of an entry lies out of range. -/
def badPrefix (list : Nat) (e : Bytes) : Bool :=
  (list == 2 && decide (32 < fld e 4 1)) || (list == 3 && decide (128 < fld e 16 1))

/-- What the shared checks need to know of SPOOF_SET, opcode 0x0304. -/
def infoSpoofSet : OpInfo := { code := 0x0304, len := lenIn 8 4104, priv := true, gated := true }

/-- SPOOF_SET (R162): the list is replaced whole, between two frames of the function (R165). -/
def execSpoofSet (c : Cmd) (s : State) : Host.Outcome State Fault Refusal :=
  done (runCommand infoSpoofSet
    (fun ref _ c s =>
      let f := arg c 0 2
      let l := arg c 2 1
      let n := arg c 4 2
      match funcRefused ref f s with
      | some a => (s, some a)
      | none =>
        let es := records (spoofSize l) (n + 1) (slice c.payload 8 (n * spoofSize l))
        if 4 < l ∨ spoofMost l < n ∨ c.payloadLen ≠ 8 + n * spoofSize l ∨ es.any (badPrefix l) then (s, some (err stBadLength 0))
        else if l = 4 ∧ (funcOf s f).eaxcEntries < n then (s, some (err stQuota 0))
        else (updFunc f (fun x => { x with spoof := Store.set {} l { enable := bit (arg c 3 1) 0, entries := es } x.spoof }) s, some (ok n 0))) c s)

end Sys2Proof.Machine
end

