-- ==== Sys2Proof/Machine/CommonCore.lean ====
section
/-! DEFINITION. The common command core (R14, R57 to R60): IDENTIFY, CAPABILITY, RESET_UNIT (R18, R78, R400), ECHO, STATUS_OF, CHANNEL_BIND
(R69, R72, R73, R457), and the time-out of a command (R49 to R51). -/

namespace Sys2Proof.Machine

open Sys2Proof

/-! ## The status record (R58) -/

/-- Stratum of a unit. -/
def stratumOf : Target → Nat
  | .engine _ => 0
  | .well _ => 1
  | .aquifer _ => 3
  | _ => 2

/-- Index of a unit within its parent; a unit with no parent has 0xFFFE (R52). -/
def indexOf (s : State) : Target → Nat
  | .engine e => e % 8
  | .well w => w
  | .aquifer l => ((levelAt s (l + 1)).map (·.index)).getD 0xFFFE
  | _ => ((levelAt s 0).map (·.index)).getD 0xFFFE

/-- CAP of a unit: an aquifer's is the AND of its members'. -/
def capField (s : State) : Target → Nat
  | .engine _ => 0
  | .well _ => 0xFF
  | .aquifer l => (otherMembers s l).foldl (fun a k => Nat.land a (memberAt s k).caps.toNat) (capUnits s)
  | _ => capUnits s

/-- Children present in a unit. -/
def childrenOf (s : State) : Target → Nat
  | .engine _ => 0
  | .well _ => 8
  | .aquifer l => (levelKeys s l).length
  | _ => wellCount s

/-- Hottest sensor of a unit, in 1/16 degree C (R413). -/
def tempOf (s : State) : Target → Int
  | .engine e => s.power.sensors.getD (e / 8) 0
  | .well w => s.power.sensors.getD w 0
  | _ => hottest s

/-- A unit is clock-gated or power-gated (R408). -/
def asleep (s : State) : Target → Bool
  | .engine e => s.power.engGated.getLsbD e || !wellAwake s (e / 8)
  | .well w => !wellAwake s w
  | _ => false

/-- Mode a unit reports: its device's, or 7 for an aquifer whose members differ (R16, R17). -/
def modeField (s : State) : Target → Nat
  | .aquifer l => aquiferMode s l
  | _ => s.mode.code

/-- Events pending in a unit: event sources belong to the device (DESIGN CHOICE, unsafe: log 20). -/
def eventsIn (s : State) : Target → Nat
  | .engine _ => 0
  | .well _ => 0
  | _ => evtPending s

/-- Bytes 0 to 59 of the status record. TEMP, EVENTS_PENDING, the flags and what else belongs to one device are, in an aquifer's record, its
gateway's own (R58 names a source for CAP alone; DESIGN CHOICE, unsafe: log 20). -/
def statusFields (s : State) (t : Target) : Bytes :=
  toLe 1 (stratumOf t) ++ toLe 1 (modeField s t) ++ toLe 2 (indexOf s t) ++ toLe 4 (capField s t) ++ toLe 8 Config.serial.toNat ++
  toLe 4 ((s.boot.image.map fun i => i.fwVersion.toNat).getD 0) ++ toLe 2 (childrenOf s t) ++
  toLe 2 (b2n s.entropyReady + 2 * b2n (!unlocked s) + 4 * b2n (asleep s t) + 8 * b2n (s.fault.latched || s.fault.uncorr) + 16 * b2n s.blocked) ++
  toLe 8 (nowNs s) ++ toLe 4 (eventsIn s t) ++ toLe 2 (unsigned 16 (tempOf s t)) ++ zeros 2 ++
  toLe 8 (Store.get 0 (unitCode t) s.accepted) ++ toLe 8 (Store.get 0 (unitCode t) s.cmdFailed) ++ toLe 4 s.blockReason

/-- The status record of a unit. -/
def statusRecord (s : State) (t : Target) : Bytes := statusFields s t ++ toLe 4 (crc32c (statusFields s t))

/-- What the shared checks need to know of IDENTIFY, opcode 0x0101. -/
def infoIdentify : OpInfo := { code := 0x0101, len := lenIs 8, modes := modesRead, vf := true, outOff := some 0 }

/-- IDENTIFY (R57, R58). -/
def execIdentify (c : Cmd) (s : State) : Host.Outcome State Fault Refusal :=
  done (runCommand infoIdentify
    (readBody fun t c s =>
      if arg c 0 8 % 64 ≠ 0 then err stBadLength 0
      else okOut Config.serial.toNat (stratumOf t + 256 * indexOf s t + 2 ^ 24 * modeField s t) (arg c 0 8) (statusRecord s t)) c s)

/-- What the shared checks need to know of CAPABILITY, opcode 0x0102. -/
def infoCapability : OpInfo := { code := 0x0102, modes := modesRead, vf := true }

/-- CAPABILITY (R57). -/
def execCapability (c : Cmd) (s : State) : Host.Outcome State Fault Refusal :=
  done (runCommand infoCapability
    (readBody fun t _ s => ok (capField s t) (childrenOf s t)) c s)

/-! ## RESET_UNIT (R18, R59, R78, R244, R257, R400) -/

/-- Packets that an engine program holds in a well, or in one engine of it. -/
def heldIn (s : State) (w : Nat) (e : Option Nat) : List Nat :=
  if !wellAwake s w then []
  else (s.cis.engine.filter fun p => (engineUse s p.num).2.1 == w && (match e with
    | some i => Config.engineOf p.num % 8 == i
    | none => true)).map (·.num)

/-- A unit's packets are dropped and counted under its well's owner identity: the one counter of that owner (DESIGN CHOICE, unsafe: log 20). -/
def dropUnit (w : Nat) (nums : List Nat) (s : State) : State :=
  let (gone, s) := purge (fun p => nums.contains p.num) s
  gone.foldl (fun t p => dropPkt p (count (cOwnerPoison (ownWell w)) t)) s

/-- Insert a number into a falling list. -/
def insertDown (k : Nat) : List Nat → List Nat
  | [] => [k]
  | a :: r => if a ≤ k then k :: a :: r else a :: insertDown k r

/-- The reset of a unit, as a command's body. -/
def resetBody (straps : Straps) : Body := fun r t c s =>
  let due (s : State) : State := { s with boot := { s.boot with resetDue := some straps } }
  match t with
  | .well w => (bumpGen (ownWell w) (dropUnit w (heldIn s w none) s), some (ok 0 0))
  | .engine e => (dropUnit (e / 8) (heldIn s (e / 8) (some (e % 8))) s, some (ok 0 0))
  | .aquifer l =>
    if !hasPriv s c.chan then (s, some (err stDenied 0))
    else
      let g : GroupOp := { num := s.aq.nextNum, ref := r, waiting := (otherMembers s l).foldr insertDown [], level := l, ownBit := ownBit s l,
                           resetSelf := some straps }
      (resetNext 1024 g { s with aq := { s.aq with nextNum := s.aq.nextNum + 1, ops := s.aq.ops ++ [g] } }, none)
  | _ => if !hasPriv s c.chan then (s, some (err stDenied 0)) else (due s, some (ok 0 0))

/-- What the shared checks need to know of RESET_UNIT, opcode 0x0106. -/
def infoResetUnit : OpInfo := { code := 0x0106, modes := modesRead }

/-- RESET_UNIT (R18, R59): a device's reset begins when its reply has been written; the straps are those it samples (R473). -/
def execResetUnit (c : Cmd) (straps : Straps) (s : State) : Host.Outcome State Fault Refusal :=
  done (runCommand infoResetUnit (resetBody straps) c s)

/-! ## ECHO, STATUS_OF, CHANNEL_BIND -/

/-- What the shared checks need to know of ECHO, opcode 0x0107. -/
def infoEcho : OpInfo := { code := 0x0107, len := lenIn 8 4096, modes := modesRead, vf := true, outOff := some 0 }

/-- ECHO (R57): with OUT_ADDR 0 it copies nothing. -/
def execEcho (c : Cmd) (s : State) : Host.Outcome State Fault Refusal :=
  done (runCommand infoEcho
    (readBody fun _ c s =>
      let d := (c.payload.take c.payloadLen).drop 8
      if arg c 0 8 = 0 then ok (nowNs s) 0 else okOut (nowNs s) d.length (arg c 0 8) d) c s)

/-- What STATUS_OF reports of a SEQ on a channel (R60); the cache keeps the replies of the 64 values up to H (R46). -/
def statusOf (st : ChanSt) (q : Word) : Answer :=
  if st.running.any (fun x => decide (x.ref.seq = q)) then { status := stOk, detail := 1 }
  else match window st q with
    | none => { status := stOk, detail := 0 }
    | some _ =>
      match st.cache.find? (fun x => decide (x.1 = q) && decide ((st.last.getD q - q).toNat < 64)) with
      | some (_, a) => { status := stOk, detail := 2, r0 := a.status + 2 ^ 32 * a.detail, r1 := a.r0 }
      | none => { status := stOk, detail := 3 }

/-- What the shared checks need to know of STATUS_OF, opcode 0x0108. -/
def infoStatusOf : OpInfo := { code := 0x0108, len := lenIs 4, modes := modesRead, vf := true, noPath := true }

/-- STATUS_OF (R57, R60): its own channel is that of the outermost FORWARD for an inner command. -/
def execStatusOf (c : Cmd) (s : State) : Host.Outcome State Fault Refusal :=
  done (runCommand infoStatusOf
    (readBody fun _ c s => statusOf (chanSt s (rootChan s 70 c.chan)) (BitVec.ofNat 32 (arg c 0 4))) c s)

/-- A channel table entry as CHANNEL_BIND carries it (R69). -/
def readEntry (b : Bytes) : ChanEntry :=
  { masterA := BitVec.ofNat 32 (fld b 0 4), masterB := BitVec.ofNat 32 (fld b 4 4), valid := bit (fld b 8 2) 0, commands := bit (fld b 8 2) 1,
    priv := bit (fld b 8 2) 2, box := fld b 10 2 }

/-- A master identity has a KIND, an ID and a LINK that R69 lists: a box number below 2,072, a member index below 64 (R62, R385), and LINK 1 only for
a requester while there are two links. -/
def masterOk (s : State) (m : Word) : Bool :=
  let k := m.toNat / 2 ^ 28
  let id := m.toNat % 65536
  decide (k ≤ 4) && !(k == 1 && decide (95 < id)) && !(k == 2 && decide (3 < id)) && !(k == 3 && decide (2071 < id)) && !(k == 4 && decide (63 < id)) &&
  (!m.getLsbD 16 || (k == 0 && s.boot.straps.hostBif))

/-- What the shared checks need to know of CHANNEL_BIND, opcode 0x010A. -/
def infoChannelBind : OpInfo := { code := 0x010A, len := lenIs 32, modes := [.priming], priv := true, gated := true }

/-- CHANNEL_BIND (R69, R72, R73, R457): an entry with VALID 0 removes the binding. -/
def execChannelBind (c : Cmd) (s : State) : Host.Outcome State Fault Refusal :=
  done (runCommand infoChannelBind
    -- the channel starts with an empty window and cache (DESIGN CHOICE, unsafe: log 20)
    (answer fun _ c s =>
      let ch := arg c 0 8
      let e := readEntry (slice c.payload 16 16)
      if s.served then (s, err stDenied 1)
      else if ch ≤ 1029 then (s, err stDenied 2)
      else if 4095 < ch ∨ (e.valid ∧ (e.box < 2056 ∨ 2071 < e.box ∨ !masterOk s e.masterA ∨ !masterOk s e.masterB)) then (s, err stBadLength 0)
      else
        let s := resetChan (.mailbox ch) s
        ({ s with chanTab := Store.set {} ch (if e.valid then e else {}) s.chanTab }, ok 0 0)) c s)

/-! ## The time-out of a command (R49 to R51, R243, R383, R400) -/

/-- DETAIL of a time-out: how far the command had come (R49). A COMMIT or COMB_SWITCH before its S has done nothing (R243, R383). -/
def timeoutDetail (s : State) (r : CmdRef) (stage : Nat) : Nat :=
  match s.tables.commit with
  | some x => if sameCmd r x.ref then (if x.switched then 2 else 0) else stage
  | none => if s.comb.sets.any (fun (x : Nat × CombSet) => x.2.armed.any (sameCmd r)) || s.armedMode.any (fun a => a.ref.any (sameCmd r)) then 0 else stage

/-- A command's time-out is recorded before its reply (R49, R50). A weight-bank switch whose S has come stands (R383); a group reset replies and
then resets this device (R400). -/
def timeOut (r : CmdRef) (stage : Nat) (s : State) : State :=
  let s := settleSwitch s
  match s.aq.ops.find? (fun (g : GroupOp) => sameCmd r g.ref && g.resetSelf.isSome) with
  | some g => groupDone { g with failed := g.failed ++ g.waiting.map fun m => (m, err stTimeout (if g.waiting.head? = some m then 1 else 0)), waiting := [] } s
  | none =>
    match s.comb.sets.find? (fun (x : Nat × CombSet) => x.2.armed.any (sameCmd r) && decide (x.2.switchAt ≤ s.time.t)) with
    | some x => reply r (err stTimeout 2) (switchBank x.1 s)
    | none => abandon 70 r (reply r (err stTimeout (timeoutDetail s r stage)) s)

/-- COMMAND_TIMEOUT (R49): the time-out runs from acceptance, and for an inner command from its FORWARD's entry (R55). It does not run while the
clocks are stopped. -/
def execCommandTimeout (ch : Chan) (seq : Word) (s : State) : Host.Outcome State Fault Refusal :=
  done (
    if !timeRuns s then s
    else match ch with
      | .fwd e =>
        match s.fwd.find? fun x => x.num == e && x.inner && !x.timedOut with
        | none => s
        | some x =>
          let (op, c) := parseCmd ch x.body
          timeOut { chan := ch, seq := c.seq, op := op, unit := unitCode (targetOf s c) } x.stage (advanceTo (x.since + x.remainUs * 65536000) s)
      | ch =>
        match (chanSt s ch).running.find? fun q => decide (q.ref.seq = seq) with
        | none => s
        | some q => timeOut q.ref q.stage (advanceTo (q.since + q.timeoutUs * 65536000) s))

end Sys2Proof.Machine
end

