-- ==== Sys2Proof/Machine/Image.lean ====
section
/-! DEFINITION. Table images (R96 to R99, R479), firmware images and slots (R80, R84 to R87, R105), owner keys (R106), random output (R93, R94)
and certificates (R88, R89, R103). -/

namespace Sys2Proof.Machine

open Sys2Proof

/-! ## What a device read of an image returns -/

/-- A range of an image reads good: the bytes came, and no fault or poison lies in it. -/
def readGood (img : HostData) (off n : Nat) : Bool :=
  decide (off + n ≤ img.data.length) && (match img.badAt with
    | some b => decide (b < off) || decide (off + n ≤ b)
    | none => true)

/-! ## Table images (R96 to R99) -/

/-- Section TYPEs, and whether one is allowed in PROVING and FLOWING (R97). -/
def sectionTypes : List (Nat × Bool) := [
  (0x0001, false), (0x0002, false), (0x0003, false), (0x0010, true), (0x0011, true), (0x0012, true), (0x0013, true), (0x0014, true),
  (0x0020, false), (0x0021, false), (0x0030, true), (0x0031, true), (0x0032, true), (0x0040, true), (0x0041, true), (0x0050, true)]

/-- A section-table entry (R96). -/
structure SectionEntry where
  ty : Nat := 0
  instanceNo : Nat := 0
  offset : Nat := 0
  len : Nat := 0
  crc : Nat := 0
  deriving DecidableEq, Repr

/-- Read a section-table entry. -/
def readSection (b : Bytes) : SectionEntry :=
  { ty := fld b 0 2, instanceNo := fld b 2 2, offset := fld b 4 4, len := fld b 8 4, crc := fld b 12 4 }

/-- The section table of an image. -/
def sectionTable (d : Bytes) : List SectionEntry := (records 16 (fld d 6 2) (slice d 256 (16 * fld d 6 2))).map readSection

/-- A malformed header, section table or entry, as the qualifier of reason 0x0013 (R98). -/
def imageMalformed (img : HostData) (len : Nat) : Option Nat :=
  let d := img.data
  let n := fld d 6 2
  let body := fld d 20 4
  if !readGood img 0 256 || decide (len < 256) || fld d 0 4 != 0x42544C43 || fld d 4 2 != 1 || fld d 8 4 != 0x9632 ||
      fld d 252 4 != crc32c (d.take 252) || n == 0 || decide (1024 < n) || decide (body < 16 * n) || decide (len < 256 + body) ||
      !readGood img 256 (16 * n) then some 0xFFFF
  else (sectionTable d).findIdx? fun e => !(sectionTypes.any fun t => t.1 == e.ty) || decide (body < 16 * n + e.offset + e.len)

/-- The image's owner signature holds, or no owner is active (R96, R98). -/
def ownerSigned (s : State) (d : Bytes) : Bool :=
  match s.boot.activeOwner with
  | none => true
  | some _ => Config.ecdsaVerify ((s.boot.image.map (·.ownerPub)).getD []) (Config.sha384 (d.take 80)) (slice d 80 96)

/-- How a section ends: written, or the status that IMAGE_LOAD answers and the reason's code (R189, R247, R479). -/
abbrev SectionEnd := Option (Nat × Nat) × State

/-- A refused record or a malformed body. -/
def sectionBad (s : State) : SectionEnd := (some (stDenied, 0x0013), s)

/-- A body that is the payload of a write command (R216, R479): its header's TARGET, and COUNT records of a size. -/
def writeSection (w : Writer) (size : Nat) (targetOk : Bool) (b : Bytes) (s : State) : SectionEnd :=
  let n := fld b 8 4
  if !targetOk || n == 0 || b.length != 16 + n * size then sectionBad s
  else match w (fld b 0 2) (fld b 4 4) (records size n (b.drop 16)) s with
    | .ok t => (none, t)
    | .error _ => sectionBad s

/-- A body that is a row of records alone. -/
def recordSection (size : Nat) (ok : Bytes → Bool) (put : Bytes → State → State) (b : Bytes) (s : State) : SectionEnd :=
  let l := records size b.length b
  if b.isEmpty || b.length % size != 0 || l.any (fun r => !ok r) then sectionBad s
  else (none, l.foldl (fun t r => put r t) s)

/-- The end of an exact-match or Sieve section whose descriptor or record failed (R247). -/
def roomEnd (a : Answer) : Option (Nat × Nat) :=
  if a.status = stQuota ∨ a.status = stNoResource then some (a.status, 0x0015) else some (stDenied, 0x0013)

/-- An exact-match section: a descriptor, then records. -/
def emSection (n : Nat) (b : Bytes) (s : State) : SectionEnd :=
  let l := records 80 b.length (b.drop 32)
  if b.length < 32 ∨ (b.length - 32) % 80 ≠ 0 ∨ fld b 0 1 ≠ n then sectionBad s
  else match emDefine (b.take 32) s with
    | .error a => (roomEnd a, s)
    | .ok s =>
      if l.any fun r => !(fld r 0 1 == 1 || fld r 0 1 == 2) then sectionBad s
      else
        let (_, f, s) := applyRecords (emRecord n) 0 l s
        (f.bind roomEnd, s)

/-- A Sieve section: a descriptor, then records. -/
def sieveSection (n : Nat) (b : Bytes) (s : State) : SectionEnd :=
  let l := records 48 b.length (b.drop 32)
  if b.length < 32 ∨ (b.length - 32) % 48 ≠ 0 ∨ fld b 0 1 ≠ n then sectionBad s
  else match sieveDefine (b.take 32) s with
    | .error a => (roomEnd a, s)
    | .ok s =>
      if l.any (sieveBad (sieveAt s n)) then sectionBad s
      else
        let (_, _, f, s) := applySieve n 0 0 l s
        (f.bind roomEnd, s)

/-- Carrier records one after another, each sized by its own PERIOD_SLOTS; `fuel` bounds their number. -/
def carrierRecs : Nat → Bytes → Option (List Bytes)
  | 0, _ => none
  | fuel + 1, b =>
    if b.isEmpty then some []
    else
      let n := 16 + 4 * fld b 4 2
      if b.length < n then none else (carrierRecs fuel (b.drop n)).map (b.take n :: ·)

/-- Accept carrier records in order. -/
def putCarriers : List Bytes → State → SectionEnd
  | [], s => (none, s)
  | b :: r, s => match setCarrier none b s with
    | .ok t => putCarriers r t
    | .error _ => sectionBad s

/-- Write one section (R479). An owner quota record outside 1,026 to 1,058 is stored, and left to the validation gate (R480; DESIGN CHOICE, unsafe: log 34). -/
def applySection (ty n : Nat) (b : Bytes) (s : State) : SectionEnd :=
  let target := fld b 0 2
  match ty with
  | 0x0001 => if n ≠ 0 ∨ b.length ≠ 128 then sectionBad s else (none, loadLayout (readLayout b) s)
  | 0x0002 => if n ≠ 0 then sectionBad s else recordSection 8 (fun _ => true) (fun r => setQuota (fld r 0 4) (fld r 4 4)) b s
  | 0x0003 => if n ≠ 0 then sectionBad s
    else recordSection 64 (fun r => allocInRange (fld r 0 2) (readAlloc r)) (fun r t => installFunc (fld r 0 2) (placeAlloc t (fld r 0 2) (readAlloc r)) t) b s
  | 0x0010 => if n = 0xFFFF then writeSection writeBinds 4 (target == 0) b s
    else writeSection writeGraph (if fld b 4 4 = 0xFFFFFFFF then 16 else 160) (decide (n < 4) && target == n) b s
  | 0x0011 => if n = 0xFFFF then writeSection writeTrees 16 (target == 0) b s
    else if 0x0100 ≤ n then writeSection writeRules 8 (decide (n ≤ 0x010F) && target == n - 0x0100) b s
    else writeSection writeTreeSet 48 (decide (n < 16) && target == n) b s
  | 0x0012 => writeSection writeClasses 8 (n == 0 && target == 0) b s
  | 0x0013 => writeSection writeAlist 8 (n == 0 && target == 0) b s
  | 0x0014 => if n = 0xFFFF then writeSection writeSpreads 64 (target == 0) b s
    else writeSection writeIndir 2 (decide (n ≤ 1025) && target == n) b s
  | 0x0020 => emSection n b s
  | 0x0021 => sieveSection n b s
  | 0x0030 => writeSection writePolicers 32 (n == 0 && target == 0) b s
  | 0x0031 => writeSection writeSched 48 (decide (n ≤ 2) && target == n) b s
  | 0x0032 => writeSection writeCurves 8 (n == 0 && target == 0) b s
  | 0x0040 => if n ≠ 0 ∨ b.isEmpty then sectionBad s
    else match carrierRecs (b.length + 1) b with
      | some l => putCarriers l s
      | none => sectionBad s
  | 0x0041 => if b.isEmpty ∨ b.length % 32 ≠ 0 then sectionBad s
    else match writeFlows 0 n (records 32 b.length b) s with
      | .ok t => (none, t)
      | .error _ => sectionBad s
  | _ => if n ≠ 0 ∨ b.length ≠ 2112 then sectionBad s
    else match setCost b s with
      | .ok t => (none, t)
      | .error _ => sectionBad s

/-- Record an image fault (R99, R100). -/
def imageFault (reason : Nat) (s : State) : State := { s with tables := { s.tables with imageFault := some reason } }

/-- Write the sections in table order from index `i` (R99): how many were written, the failure, and the state. -/
def loadSections (img : HostData) (base : Nat) : Nat → List SectionEntry → State → Nat × Option Answer × State
  | i, [], s => (i, none, s)
  | i, e :: r, s =>
    let b := slice img.data (base + e.offset) e.len
    if !readGood img (base + e.offset) e.len || crc32c b != e.crc then
      (i, some (err stDenied (0x0011 + 65536 * i)), imageFault (0x0011 + 65536 * i) s)
    else match applySection e.ty e.instanceNo b s with
      | (none, t) => loadSections img base (i + 1) r t
      | (some (st, code), t) => (i, some (err st (code + 65536 * i)), imageFault (code + 65536 * i) t)

/-- IMAGE_LOAD once BUSY is out of the way (R98, R99, R100). -/
def loadImage (img : HostData) (len : Nat) (s : State) : State × Answer :=
  let d := img.data
  let n := fld d 6 2
  let body := fld d 20 4
  match imageMalformed img len with
  | some q => (imageFault (0x0013 + 65536 * q) s, err stDenied (0x0013 + 65536 * q))
  | none =>
    if !ownerSigned s d then (imageFault 0x0012 s, err stDenied 0x0012)
    else match (List.range 32).find? fun b => bit (fld d 12 4) b && !bit (capUnits s) b with
      | some b => (s, err stDenied (0x0020 + 65536 * b))
      | none =>
        if inService s && (sectionTable d).any (fun e => sectionTypes.any fun t => t.1 == e.ty && !t.2) then (s, err stState 0)
        else
          let id := fld d 16 4
          let (k, f, s) := loadSections img (256 + 16 * n) 0 (sectionTable d) s
          match f with
          | some a => (s, { a with r0 := k, r1 := id })
          | none =>
            let hash := BitVec.ofNat 384 (fldBe d 32 48)
            if !readGood img 256 body || Config.sha384 (slice d 256 body) != hash then
              (imageFault (0x0011 + 65536 * 0xFFFF) s, { err stDenied (0x0011 + 65536 * 0xFFFF) with r0 := k, r1 := id })
            else
              ({ s with tables := { s.tables with imageFault := none, uncorrLatch := false }
                        spdm := { s.spdm with images := s.spdm.images ++ [(BitVec.ofNat 32 id, hash)] } }, ok k id)

/-- What the shared checks need to know of IMAGE_LOAD, opcode 0x0201. -/
def infoImageLoad : OpInfo := { code := 0x0201, len := lenIs 16, gated := true }

/-- IMAGE_LOAD (R98, R99, R103): `img` is what the reads of the image return. -/
def execImageLoad (c : Cmd) (img : HostData) (s : State) : Host.Outcome State Fault Refusal :=
  done (runCommand infoImageLoad
    (answer fun _ c s => if s.tables.commit.isSome || s.tables.loading then (s, err stBusy 0) else loadImage (hostData s c img) (arg c 8 8) s) c s)

/-! ## Firmware images (R84 to R87) -/

/-- The check of a firmware image in the order of the codes of R82; 0 when it passes. `none` is a flash that does not answer. -/
def checkFw (s : State) (img : Option Bytes) : Nat :=
  match img with
  | none => 0x01
  | some b =>
    let n := fld b 20 4
    let key := fld b 24 1
    if fld b 0 4 ≠ 0x46574C43 ∨ fld b 4 2 ≠ 1 then 0x02
    else if fld b 508 4 ≠ crc32c (b.take 508) ∨ b.length < 512 then 0x03
    else if n = 0 ∨ 33553920 < n then 0x04
    else if b.length < 512 + n ∨ Config.sha384 (slice b 512 n) ≠ BitVec.ofNat 384 (fldBe b 32 48) then 0x05
    else if 3 < key ∨ s.fuses.revoked.getLsbD key ∨ !Config.ecdsaVerify (Config.celwaldKey key) (Config.sha384 (b.take 80)) (slice b 80 96) then 0x06
    else if (match s.boot.activeOwner with
        | none => false
        | some h => !bit (fld b 6 2) 0 || Config.sha384 (slice b 176 96) != h ||
            !Config.ecdsaVerify (slice b 176 96) (Config.sha384 (b.take 272)) (slice b 272 96)) then 0x07
    else if fld b 12 4 < s.fuses.floor then 0x08
    else if fld b 8 4 ≠ 0x9632 then 0x09
    else 0

/-- What the device keeps of an image that passed. OWNER_PUB counts only while an owner is active (R87). -/
def fwInfo (s : State) (b : Bytes) : FwInfo :=
  { fwVersion := BitVec.ofNat 32 (fld b 16 4), secVersion := fld b 12 4, bodyHash := BitVec.ofNat 384 (fldBe b 32 48), keyId := fld b 24 1,
    ownerPub := if s.boot.activeOwner.isSome then slice b 176 96 else [], verified := true }

/-- Slot B is primary (R80): the valid selector copy with the higher sequence decides, else slot A. -/
def primaryB (s : State) : Bool :=
  match s.fuses.selA, s.fuses.selB with
  | some a, some b => if a.seqNo < b.seqNo then b.primaryB else a.primaryB
  | some a, none => a.primaryB
  | none, some b => b.primaryB
  | none, none => false

/-- Store what is known of a slot. -/
def setSlot (slotB : Bool) (i : Option FwInfo) (s : State) : State :=
  { s with fuses := if slotB then { s.fuses with slotB := i } else { s.fuses with slotA := i } }

/-- Flash offset of a slot (R80). -/
def slotBase (slotB : Bool) : Nat := if slotB then 0x02000000 else 0

/-- What the shared checks need to know of FW_WRITE, opcode 0x0203. -/
def infoFwWrite : OpInfo := { code := 0x0203, len := lenIs 16, priv := true }

/-- FW_WRITE (R103 to R105): a read of the image that fails counts as the failure of the check that reads those bytes. What the flash holds
after the write is checked again. -/
def execFwWrite (c : Cmd) (img : HostData) (s : State) : Host.Outcome State Fault Refusal :=
  done (runCommand infoFwWrite
    (answer fun _ c s =>
      let n := arg c 8 8
      let img := hostData s c img
      let b := img.data.take n
      let slot := !primaryB s
      if n < 512 ∨ 33554432 < n then (s, err stBadLength 0)
      else
        let code := if !readGood img 0 512 then 0x03 else checkFw s (some b)
        let code := if code = 0 ∧ !readGood img 512 (fld b 20 4) then 0x05 else code
        if code ≠ 0 then (setSlot slot none s, err stDenied code)
        else
          let s := emit (.flash (slotBase slot) b) s
          let back := checkFw s (img.readBack.getD (some b))
          if back ≠ 0 then (setSlot slot none s, err stDenied back)
          else
            let i := fwInfo s b
            (setSlot slot (some i) s, ok (b2n slot) i.fwVersion.toNat)) c s)

/-- The older selector copy takes the next sequence and the slot (R80, R105). -/
def selectSlot (slotB : Bool) (s : State) : State :=
  let sa : Nat := (s.fuses.selA.map fun (x : SelCopy) => x.seqNo).getD 0
  let sb : Nat := (s.fuses.selB.map fun (x : SelCopy) => x.seqNo).getD 0
  let newB := s.fuses.selB.isNone || (s.fuses.selA.isSome && decide (sb ≤ sa))
  let copy : SelCopy := { seqNo := (max sa sb + 1) % 2 ^ 32, primaryB := slotB }
  { s with fuses := if newB then { s.fuses with selB := some copy } else { s.fuses with selA := some copy } }

/-- What the shared checks need to know of FW_ACTIVATE, opcode 0x0204. -/
def infoFwActivate : OpInfo := { code := 0x0204, len := lenIs 8, modes := [.priming], priv := true, gated := true }

/-- FW_ACTIVATE (R86, R103 to R105): the floor rises to the SEC_VERSION of the slot, and not above that of the running firmware. -/
def execFwActivate (c : Cmd) (s : State) : Host.Outcome State Fault Refusal :=
  done (runCommand infoFwActivate
    (answer fun _ c s =>
      let slot := bit (arg c 0 1) 0
      match if slot then s.fuses.slotB else s.fuses.slotA with
      | none => (s, err stState 0)
      | some i =>
        if !i.verified || decide (i.secVersion < s.fuses.floor) then (s, err stState 0)
        else
          let up := min 63 (min i.secVersion (imageId s).2)
          let floor := if bit (arg c 0 1) 1 then max s.fuses.floor up else s.fuses.floor
          let s := selectSlot slot s
          ({ s with fuses := { s.fuses with floor := floor } }, ok floor 0)) c s)

/-- What the shared checks need to know of OWNER_ENROL, opcode 0x0205. -/
def infoOwnerEnrol : OpInfo := { code := 0x0205, len := lenIs 208, modes := [.priming], priv := true, gated := true }

/-- OWNER_ENROL (R103, R104, R106). -/
def execOwnerEnrol (c : Cmd) (s : State) : Host.Outcome State Fault Refusal :=
  done (runCommand infoOwnerEnrol
    (answer fun _ c s =>
      let slot := arg c 0 8
      let pub := slice c.payload 16 96
      let sig := slice c.payload 112 96
      let msg := toLe 1 slot ++ pub ++ toLe 8 Config.serial.toNat
      if 3 < slot then (s, err stBadLength 0)
      else if slot ≠ s.fuses.ownerKeys.length then (s, err stNoResource 0)
      else if slot = 0 ∧ !s.boot.straps.ownerEn then (s, err stDenied 0)
      else if slot ≠ 0 ∧ (s.boot.activeOwner.isNone ∨ !Config.ecdsaVerify ((s.boot.image.map (·.ownerPub)).getD []) (Config.sha384 msg) sig) then
        (s, err stDenied 0)
      else ({ s with fuses := { s.fuses with ownerKeys := s.fuses.ownerKeys ++ [(slot, Config.sha384 pub)] } }, ok slot 0)) c s)

/-! ## Random output and certificates -/

/-- What the shared checks need to know of RANDOM, opcode 0x0206. -/
def infoRandom : OpInfo := { code := 0x0206, len := lenIs 16, outOff := some 0 }

/-- RANDOM (R93 to R95, R103). -/
def execRandom (c : Cmd) (s : State) : Host.Outcome State Fault Refusal :=
  done (runCommand infoRandom
    (answer fun _ c s =>
      let n := arg c 8 8
      if n = 0 ∨ 4096 < n then (s, err stBadLength 0)
      else if !s.entropyReady then (s, err stNotReady 0)
      else
        let (k, s) := drbgRequest s
        (s, okOut n 0 (arg c 0 8) ((List.range n).map (Config.drbg k)))) c s)

/-- What the shared checks need to know of CERT_READ, opcode 0x0207. -/
def infoCertRead : OpInfo := { code := 0x0207, len := lenIs 16, modes := modesRead, outOff := some 0 }

/-- CERT_READ (R89, R90, R103): slot 0 is empty while the identity is incomplete. -/
def execCertRead (c : Cmd) (s : State) : Host.Outcome State Fault Refusal :=
  done (runCommand infoCertRead
    (readBody fun _ c s =>
      let which := arg c 12 4
      let out := if which = 0 then ownChain s else Config.wrapCert (imageId s).1 (imageId s).2
      if 1 < which then err stBadLength 0
      else if arg c 8 4 < out.length then { err stBadLength 0 with r0 := out.length }
      else okOut out.length out.length (arg c 0 8) out) c s)

end Sys2Proof.Machine
end

