-- ==== Sys2Proof/Machine/Spdm.lean ====
section
/-! DEFINITION. The SPDM responder (R89 to R92, R94), the entropy source (R93, R95), and the end of a wake (R91, R110). Message codes and layouts
are those of DMTF DSP0274, which R91 names: PRESUMED (log 16). -/

namespace Sys2Proof.Machine

open Sys2Proof

/-! ## Messages -/

/-- Request code of a message. -/
def spdmCode (b : Bytes) : Nat := fld b 1 1

/-- A response: version, code, two parameters and a body. -/
def spdmMsg (version code p1 p2 : Nat) (body : Bytes) : Bytes := toLe 1 version ++ toLe 1 code ++ toLe 1 p1 ++ toLe 1 p2 ++ body

/-- An ERROR response. -/
def spdmError (version code data : Nat) : Bytes := spdmMsg version 0x7F code data []

/-- InvalidRequest, UnexpectedRequest, DecryptError, UnsupportedRequest, LargeResponse, VersionMismatch and ResponseNotReady. -/
def eInvalid : Nat := 0x01
def eUnexpected : Nat := 0x04
def eDecrypt : Nat := 0x06
def eUnsupported : Nat := 0x07
def eLarge : Nat := 0x0F
def eVersion : Nat := 0x41
def eNotReady : Nat := 0x42

/-- Versions 1.2 and 1.3. -/
def versionOk (v : Nat) : Bool := v == 0x12 || v == 0x13

/-- Change the responder. -/
def updSpdm (f : SpdmSt → SpdmSt) (s : State) : State := { s with spdm := f s.spdm }

/-! ## Measurements (R92) -/

/-- A digest as it is sent, high byte first. -/
def digestBytes (d : BitVec 384) : Bytes := toBe 48 d.toNat

/-- The digest of a measurement index. -/
def measurement (s : State) (i : Nat) : BitVec 384 :=
  match i with
  | 1 => Config.romHash
  | 2 => (imageId s).1
  | 3 => Config.sha384 (toLe 1 (imageId s).2 ++ toLe 1 s.fuses.floor ++ toLe 1 s.fuses.revoked.toNat)
  | 4 => s.boot.activeOwner.getD 0
  | _ => Config.sha384 ((s.spdm.imagesCommitted.map fun x => toLe 4 x.1.toNat ++ digestBytes x.2).flatten)

/-- A measurement block. -/
def measureBlock (s : State) (i : Nat) : Bytes := toLe 1 i ++ [1] ++ toLe 2 51 ++ toLe 1 (i - 1) ++ toLe 2 48 ++ digestBytes (measurement s i)

/-- MEASUREMENTS: the blocks an index selects, a nonce, and a signature when one is asked for, by the key of certificate slot 0 alone. -/
def measureReply (v : Nat) (b : Bytes) (s : State) : Bytes × State :=
  let op := fld b 3 1
  let signed := bit (fld b 2 1) 0
  if (5 < op ∧ op ≠ 0xFF) ∨ (signed = true ∧ (fld b 36 1 % 16 ≠ 0 ∨ s.boot.identIncomplete)) then (spdmError v eInvalid 0, s)
  else if !s.entropyReady then (spdmError v eNotReady 0, s)
  else
    let (k, s) := drbgRequest s
    let ids := if op = 0 then [] else if op = 0xFF then [1, 2, 3, 4, 5] else [op]
    let rec_ := (ids.map (measureBlock s)).flatten
    let body := toLe 1 ids.length ++ toLe 3 rec_.length ++ rec_ ++ toLe 32 (Config.nonce k).toNat ++ toLe 2 0
    let sig := if signed then Config.aliasSign (imageId s).1 (imageId s).2 (Config.sha384 (b ++ body)) else []
    (spdmMsg v 0x60 (if op = 0 then 5 else 0) 0 (body ++ sig), s)

/-! ## Requests -/

/-- An answer whose body only DSP0274 fixes: a free value of the request and of a count that tells exchanges apart. -/
def openReply (v code : Nat) (b : Bytes) (s : State) : Bytes × State :=
  let (k, s) := drbgRequest s
  (spdmMsg v (code % 128) 0 0 (Config.spdmBody code v b k), s)

/-- The connection is set up: GET_VERSION, GET_CAPABILITIES and NEGOTIATE_ALGORITHMS have been answered. -/
def connected (s : State) : Bool := s.spdm.version && s.spdm.caps && s.spdm.algs

/-- The algorithm tables of a NEGOTIATE_ALGORITHMS request: type and the choices offered, `fuel` at most. -/
def algTables : Nat → Bytes → List (Nat × Nat)
  | 0, _ => []
  | fuel + 1, b => if b.length < 4 then [] else (fld b 0 1, fld b 2 2) :: algTables fuel (b.drop (4 + 4 * (fld b 1 1 % 16)))

/-- What the responder selects of a table: secp384r1, AES-256-GCM, no mutual authentication, the key schedule (R91). -/
def algPick (t : Nat × Nat) : Nat :=
  if t.1 = 2 then Nat.land t.2 0x10 else if t.1 = 3 then Nat.land t.2 0x02 else if t.1 = 5 then Nat.land t.2 0x01 else 0

/-- ALGORITHMS: ECDSA P-384 and SHA-384 must be offered, and of each table what is supported is selected (R91). -/
def algsReply (v : Nat) (b : Bytes) (s : State) : Bytes × State :=
  if !bit (fld b 8 4) 7 ∨ !bit (fld b 12 4) 1 then (spdmError v eInvalid 0, s)
  else
    let ts := algTables (fld b 2 1) (b.drop (32 + 4 * (fld b 28 1 + fld b 29 1)))
    let out := ts.map fun t => (t.1, algPick t)
    let n := 36 + 4 * out.length
    (spdmMsg v 0x63 out.length 0 (toLe 2 n ++ toLe 1 1 ++ toLe 1 0 ++ toLe 4 0x04 ++ toLe 4 0x80 ++ toLe 4 0x02 ++ zeros 16 ++
       (out.map fun t => toLe 1 t.1 ++ toLe 1 0x20 ++ toLe 2 t.2).flatten),
     updSpdm (fun x => { x with algs := true, kex := out.contains (2, 0x10) && out.contains (3, 0x02) }) s)

/-- The requests that make a connection. -/
def setupReply (code v : Nat) (b : Bytes) (s : State) : Bytes × State :=
  if code = 0x84 then
    (spdmMsg 0x10 0x04 0 0 (toLe 1 0 ++ toLe 1 2 ++ toLe 2 0x1200 ++ toLe 2 0x1300),
     updSpdm (fun x => { images := x.images, imagesCommitted := x.imagesCommitted, version := true }) s)
  else if code = 0xE1 then
    if !s.spdm.version then (spdmError v eUnexpected 0, s)
    else openReply v code b (updSpdm (fun x => { x with caps := true, xfer := fld b 12 4 }) s)
  else
    if !s.spdm.caps then (spdmError v eUnexpected 0, s) else algsReply v b s

/-- Requests on slot 0's certificates: a slot that is not provisioned is refused (R90). -/
def certReply (code v : Nat) (b : Bytes) (s : State) : Bytes × State :=
  let chain := ownChain s
  if code = 0x81 then
    (if s.boot.identIncomplete then spdmMsg v 0x01 0 0 [] else spdmMsg v 0x01 0 1 (digestBytes (Config.sha384 chain)), s)
  else if fld b 2 1 % 16 ≠ 0 ∨ s.boot.identIncomplete ∨ chain.length < fld b 4 2 then (spdmError v eInvalid 0, s)
  else
    let d := slice chain (fld b 4 2) (fld b 6 2)
    (spdmMsg v 0x02 0 0 (toLe 2 d.length ++ toLe 2 (chain.length - fld b 4 2 - d.length) ++ d), s)

/-- Requests that need a nonce or a key exchange (R94). -/
def nonceReply (code v : Nat) (b : Bytes) (s : State) : Bytes × State :=
  if !s.entropyReady then (spdmError v eNotReady 0, s)
  else if s.boot.identIncomplete ∨ fld b 2 1 % 16 ≠ 0 ∧ code = 0x83 ∨ fld b 3 1 % 16 ≠ 0 ∧ code = 0xE4 then (spdmError v eInvalid 0, s)
  else if code = 0xE4 ∧ !s.spdm.kex then (spdmError v eUnexpected 0, s)
  else if code = 0xE4 then openReply v code b (updSpdm (fun x => { x with session := 1, keyGen := 0 }) s)
  else openReply v code b s

/-- Requests within a session. -/
def sessionReply (code v : Nat) (b : Bytes) (s : State) : Bytes × State :=
  if code = 0xE5 then
    if s.spdm.session ≠ 1 then (spdmError v eUnexpected 0, s)
    else if Config.spdmFinishOk b s.cis.draws then openReply v code b (updSpdm (fun x => { x with session := 2 }) s)
    else (spdmError v eDecrypt 0, updSpdm (fun x => { x with session := 0 }) s)
  else if s.spdm.session ≠ 2 then (spdmError v eUnexpected 0, s)
  else if code = 0xE8 then (spdmMsg v 0x68 0 0 [], s)
  else if code = 0xE9 then (spdmMsg v 0x69 (fld b 2 1) (fld b 3 1) [], updSpdm (fun x => { x with keyGen := x.keyGen + 1 }) s)
  else (spdmMsg v 0x6C 0 0 [], updSpdm (fun x => { x with session := 0, keyGen := 0 }) s)

/-- The answer to a request that is not itself a chunk. -/
def spdmReply (b : Bytes) (s : State) : Bytes × State :=
  let code := spdmCode b
  let v := fld b 0 1
  if code = 0x84 then setupReply code v b s
  else if !versionOk v then (spdmError 0x12 eVersion 0, s)
  else if code = 0xE1 ∨ code = 0xE3 then setupReply code v b s
  else if !connected s then (spdmError v eUnexpected 0, s)
  else if code = 0x81 ∨ code = 0x82 then certReply code v b s
  else if code = 0xE0 then measureReply v b s
  else if code = 0x83 ∨ code = 0xE4 then nonceReply code v b s
  else if code = 0xE5 ∨ code = 0xE8 ∨ code = 0xE9 ∨ code = 0xEC then sessionReply code v b s
  else (spdmError v eUnsupported code, s)

/-- A response longer than the requester takes is kept for CHUNK_GET. -/
def sizedReply (r : Bytes × State) : Bytes × State :=
  let (b, s) := r
  if s.spdm.xfer ≠ 0 ∧ s.spdm.xfer < b.length then
    (spdmMsg (fld b 0 1) 0x7F eLarge 0 [0], updSpdm (fun x => { x with chunkOut := b }) s)
  else (b, s)

/-- CHUNK_SEND: chunks are gathered; the last one runs the whole request, and its answer is in the acknowledgement. -/
def chunkSendReply (b : Bytes) (s : State) : Bytes × State :=
  let v := fld b 0 1
  let first := decide (fld b 4 2 = 0)
  let d := slice b (if first then 16 else 12) (fld b 8 4)
  let ack (tail : Bytes) (s : State) : Bytes × State := (spdmMsg v 0x05 0 (fld b 3 1) (toLe 2 (fld b 4 2) ++ tail), s)
  if !connected s then (spdmError v eUnexpected 0, s)
  else
    let whole := (if first then [] else s.spdm.chunkIn) ++ d
    if !bit (fld b 2 1) 0 then ack [] (updSpdm (fun x => { x with chunkIn := whole }) s)
    else
      let (r, s) := spdmReply whole (updSpdm (fun x => { x with chunkIn := [] }) s)
      ack r s

/-- CHUNK_GET: the next part of the response that was kept. -/
def chunkGetReply (b : Bytes) (s : State) : Bytes × State :=
  let v := fld b 0 1
  let n := s.spdm.xfer - 16
  let i := fld b 4 2
  let out := s.spdm.chunkOut
  if out.isEmpty ∨ n = 0 ∨ out.length ≤ i * n then (spdmError v eUnexpected 0, s)
  else
    let d := slice out (i * n) n
    let last := decide (out.length ≤ (i + 1) * n)
    (spdmMsg v 0x06 (b2n last) (fld b 3 1) (toLe 2 i ++ toLe 2 0 ++ toLe 4 d.length ++ (if i = 0 then toLe 4 out.length else []) ++ d),
     if last then updSpdm (fun x => { x with chunkOut := [] }) s else s)

/-- Answer one request. -/
def spdmAnswer (b : Bytes) (s : State) : State :=
  let (r, s) :=
    if spdmCode b = 0x85 then chunkSendReply b s
    else if spdmCode b = 0x86 then chunkGetReply b s
    else sizedReply (spdmReply b s)
  emit (.spdm r) s

/-- A request arrives (R91): one that arrives in DORMANT is held until wake; in DRY there is no responder. -/
def spdmRequest (code : Nat) (m : SpdmMsg) (s : State) : State :=
  if s.mode = .dry ∨ spdmCode m.data ≠ code ∨ 2 < m.transport then s
  else if s.mode = .dormant then updSpdm (fun x => { x with held := x.held ++ [(m.transport, m.data)] }) s
  else spdmAnswer m.data s

/-- GET_VERSION (R91). -/
def execGetVersion (m : SpdmMsg) (s : State) : Host.Outcome State Fault Refusal := done (spdmRequest 0x84 m s)
/-- GET_CAPABILITIES (R91). -/
def execGetCapabilities (m : SpdmMsg) (s : State) : Host.Outcome State Fault Refusal := done (spdmRequest 0xE1 m s)
/-- NEGOTIATE_ALGORITHMS (R91). -/
def execNegotiateAlgorithms (m : SpdmMsg) (s : State) : Host.Outcome State Fault Refusal := done (spdmRequest 0xE3 m s)
/-- GET_DIGESTS (R90, R91). -/
def execGetDigests (m : SpdmMsg) (s : State) : Host.Outcome State Fault Refusal := done (spdmRequest 0x81 m s)
/-- GET_CERTIFICATE (R89, R91). -/
def execGetCertificate (m : SpdmMsg) (s : State) : Host.Outcome State Fault Refusal := done (spdmRequest 0x82 m s)
/-- CHALLENGE (R91, R94). -/
def execChallenge (m : SpdmMsg) (s : State) : Host.Outcome State Fault Refusal := done (spdmRequest 0x83 m s)
/-- GET_MEASUREMENTS (R92, R94). -/
def execGetMeasurements (m : SpdmMsg) (s : State) : Host.Outcome State Fault Refusal := done (spdmRequest 0xE0 m s)
/-- KEY_EXCHANGE (R91, R94). -/
def execKeyExchange (m : SpdmMsg) (s : State) : Host.Outcome State Fault Refusal := done (spdmRequest 0xE4 m s)
/-- FINISH (R91). -/
def execFinish (m : SpdmMsg) (s : State) : Host.Outcome State Fault Refusal := done (spdmRequest 0xE5 m s)
/-- HEARTBEAT (R91). -/
def execHeartbeat (m : SpdmMsg) (s : State) : Host.Outcome State Fault Refusal := done (spdmRequest 0xE8 m s)
/-- KEY_UPDATE (R91). -/
def execKeyUpdate (m : SpdmMsg) (s : State) : Host.Outcome State Fault Refusal := done (spdmRequest 0xE9 m s)
/-- END_SESSION (R91). -/
def execEndSession (m : SpdmMsg) (s : State) : Host.Outcome State Fault Refusal := done (spdmRequest 0xEC m s)
/-- CHUNK_SEND (R91). -/
def execChunkSend (m : SpdmMsg) (s : State) : Host.Outcome State Fault Refusal := done (spdmRequest 0x85 m s)
/-- CHUNK_GET (R91). -/
def execChunkGet (m : SpdmMsg) (s : State) : Host.Outcome State Fault Refusal := done (spdmRequest 0x86 m s)

/-! ## The end of a wake, and entropy -/

/-- WAKE_DONE (R110): requests held for the responder are answered (R91). -/
def execWakeDone (s : State) : Host.Outcome State Fault Refusal :=
  done (if s.mode = .dormant ∧ s.wh.waking then
      let l := s.spdm.held
      l.foldl (fun t x => spdmAnswer x.2 t) (updSpdm (fun x => { x with held := [] }) (wakeUp s))
    else s)

/-- ENTROPY_READY (R93, R286): BOOT_NONCE is drawn the first time. -/
def execEntropyReady (s : State) : Host.Outcome State Fault Refusal :=
  done (if s.mode = .dry ∨ s.entropyReady ∨ s.entropyFailed then s
    else
      let s := { s with entropyReady := true }
      if s.cipher.nonce.isSome then s
      else
        let (k, s) := drbgRequest s
        { s with cipher := { s.cipher with nonce := some ((Config.nonce k).setWidth 128) } })

/-- ENTROPY_FAIL (R95): the source stays stopped until a reset. -/
def execEntropyFail (s : State) : Host.Outcome State Fault Refusal :=
  done (if s.mode = .dry ∨ s.entropyFailed then s else raise 65 0 { s with entropyReady := false, entropyFailed := true })

end Sys2Proof.Machine
end

