-- ==== Sys2Proof/Machine/Boot.lean ====
section
/-! DEFINITION. Power, resets and the boot (R22, R75 to R87, R90, R470 to R473). -/

namespace Sys2Proof.Machine

open Sys2Proof

/-! ## Power and resets (R75, R470, R472) -/

/-- POWER_ON (R75). -/
def execPowerOn (straps : Straps) (s : State) : Host.Outcome State Fault Refusal := done (resetDevice 0 straps s)

/-- SYS_RST_N (R75, R472): without the wellhead's supply there is nothing to reset. -/
def execSysRstN (straps : Straps) (s : State) : Host.Outcome State Fault Refusal :=
  done (if s.boot.powered then resetDevice 1 straps s else s)

/-- POWER_LOSS (R22, R470): the device is in DRY, and holds nothing until the supply returns. -/
def execPowerLoss (s : State) : Host.Outcome State Fault Refusal :=
  let t := resetDevice 0 s.boot.straps s
  done { t with boot := { t.boot with powered := false, stage := 0 }, wh := { t.wh with clocksStopped := false } }

/-- WATCHDOG_RESET (R75): firmware runs once DRY is left. -/
def execWatchdogReset (straps : Straps) (s : State) : Host.Outcome State Fault Refusal :=
  done (if s.mode = .dry then s else resetDevice 3 straps s)

/-! ## The boot (R79 to R87, R470) -/

/-- The boot holds in DRY for a fatal failure of R82; a new reset is the only way out. -/
def bootHeld (s : State) : Bool := s.boot.failed && s.boot.stage == 0

/-- The boot runs: in DRY, with its supplies, and not held. -/
def bootRuns (s : State) : Bool := s.mode == .dry && s.boot.powered && !s.boot.supplyStopped && !bootHeld s

/-- STAGE (R81). Between two reports the ROM passes through 0 to 3 on the way to a slot's result, 2 and 3 on the way to the second slot's, and 4 and
5 after a slot has passed: how far it has come is a free value of the wellhead's count (log 10). -/
def bootStage (s : State) : Nat :=
  let k := Config.romStage (s.wh.ticks * 30517578125 + s.wh.tickAcc)
  if !bootRuns s || s.boot.supplyStopped then s.boot.stage
  else if s.boot.stage = 0 then k % 4
  else if s.boot.stage = 2 then 2 + k % 2
  else if s.boot.stage = 4 then 4 + k % 2
  else s.boot.stage

/-- The boot waits for recovery (R83). -/
def awaitsRecovery (s : State) : Bool := bootRuns s && s.boot.stage == 0xF

/-- FAIL_CODE keeps the first failure met in this boot (R81). -/
def noteFail (code : Nat) (b : BootSt) : BootSt := { b with failCode := if b.failCode = 0 then code else b.failCode }

/-- The slot the boot ROM tries (R80, R85): the primary one, and the other after it failed. -/
def triedB (s : State) : Bool := primaryB s != s.boot.fallback

/-- A slot passed: its image is the one this boot runs. -/
def takeSlot (slotB : Bool) (b : Bytes) (s : State) : State :=
  let s := setSlot slotB (some (fwInfo s b)) s
  { s with boot := { s.boot with image := some (fwInfo s b), slotUsed := slotB, stage := 4 } }

/-- A slot failed: after the primary the secondary is tried, and after both the device waits for recovery (R83, R85). -/
def failSlot (slotB : Bool) (code : Nat) (s : State) : State :=
  let s := setSlot slotB none s
  let b := noteFail code s.boot
  { s with boot := if b.fallback then { b with failed := true, stage := 0xF } else { b with fallback := true, stage := 2 } }

/-- BOOT_SLOT_VERIFIED (R80 to R87): the ROM reports on the slot it tries, whose contents are `image`; none is a flash that does not answer. -/
def execBootSlotVerified (slotB : Bool) (image : Option Bytes) (s : State) : Host.Outcome State Fault Refusal :=
  done (
    if !bootRuns s || s.boot.stage == 0xF || s.boot.image.isSome || slotB != triedB s then s
    else
      let code := checkFw s image
      if code = 0 then takeSlot slotB (image.getD []) s else failSlot slotB code s)

/-- CLAY_TRAINING_DONE (R79, R82): a failure is fatal to the boot. -/
def execClayTrainingDone (trained : Bool) (s : State) : Host.Outcome State Fault Refusal :=
  done (
    if !bootRuns s || s.boot.clayTrained then s
    else if trained then { s with boot := { s.boot with clayTrained := true } }
    else { s with boot := { noteFail 0x0A s.boot with failed := true, stage := 0, image := none } })

/-- ENTRY_CAUSE on leaving DRY, by LAST_RESET (R21). -/
def resetCause (last : Nat) : Nat := if last = 2 then 0x08 else if last = 3 then 0x07 else 0x00

/-- The device as it leaves DRY (R20, R21, R69, R71, R79, R81, R90, R480). The time goes on from what the wellhead kept. -/
def leaveDry (certOk : Bool) (s : State) : State :=
  let b := s.boot
  let t := { s with
    mode := .priming
    transit := none
    entryCause := resetCause b.lastReset
    boot := { b with stage := 6, done := true, failed := false, identIncomplete := !certOk }
    funcs := State.resetFuncs
    chanTab := State.resetChanTab.map fun (x : Nat × ChanEntry) => (x.1, { x.2 with masterA := BitVec.ofNat 32 (ridOf s (x.1 - 4)), masterB := BitVec.ofNat 32 (ridOf s (x.1 - 4)) })
    evt := State.reset.evt
    time := { s.time with t := s.time.coarse + s.wh.ticks * seepTick }
    wh := { s.wh with clocksStopped := false, ticks := 0, tickAcc := 0 } }
  let t := if certOk then t else raise 66 0 t
  let t := if b.fallback then raise 67 0 t else t
  intxAll t

/-- DRY_LEFT (R79): an image passed and Clay is trained; `certOk` says that the device certificate is present and matches (R90). -/
def execDryLeft (certOk : Bool) (s : State) : Host.Outcome State Fault Refusal :=
  done (if bootRuns s && s.boot.image.isSome && s.boot.clayTrained then leaveDry certOk s else s)

/-- BOOT_RESTART (R470): the boot that a supply fault stopped starts again. A boot held by a fatal failure stays held. -/
def execBootRestart (s : State) : Host.Outcome State Fault Refusal :=
  let b := { s.boot with supplyStopped := false }
  done (
    if s.mode ≠ .dry ∨ !s.boot.powered ∨ !s.boot.supplyStopped then s
    else if bootHeld s then { s with boot := b }
    else { s with boot := { b with stage := if b.straps.bootSrc then 0xF else 0, failCode := 0, failed := false, fallback := false, recovery := false,
                                   slotUsed := false, image := none, clayTrained := false } })

/-! ## Recovery (R83) -/

/-- RETRY_FLASH while STAGE is 0xF: a new attempt from flash, starting with the primary slot. -/
def retryFlash (s : State) : State :=
  if awaitsRecovery s then
    { s with boot := { s.boot with stage := 2, failCode := 0, failed := false, fallback := false, recovery := false, slotUsed := false } }
  else s

/-- The recovery window's bytes from its start. -/
def windowBytes (s : State) (n : Nat) : Bytes := Store.run 0 0 n s.boot.window

/-- LOAD_RECOVERY while STAGE is 0xF: the image in the window is checked as a slot image is. -/
def loadRecovery (s : State) : State :=
  if awaitsRecovery s then
    let body := fld (windowBytes s 512) 20 4
    let b := windowBytes s (512 + min body 33553920)
    let code := checkFw s (some b)
    if code = 0 then { s with boot := { s.boot with image := some (fwInfo s b), recovery := true, failed := false, stage := 4 } }
    else { s with boot := { s.boot with failCode := code, stage := 0xF } }
  else s

/-- BOOT_CTRL takes writes from the physical functions (R81, R83). -/
def bootCtrl (fn : Nat) (value : Word) (s : State) : State :=
  if 2 ≤ fn then s
  else if value.getLsbD 1 then retryFlash s
  else if value.getLsbD 0 then loadRecovery s
  else s

/-- RETRY_FLASH (R83). -/
def execRetryFlash (fn : Nat) (s : State) : Host.Outcome State Fault Refusal := done (bootCtrl fn 2 s)

/-- LOAD_RECOVERY (R83). -/
def execLoadRecovery (fn : Nat) (s : State) : Host.Outcome State Fault Refusal := done (bootCtrl fn 1 s)

/-- A read of the recovery window (R83, R119): its bytes while it is open, else 0. -/
def readWindow (fn off n : Nat) (s : State) : Nat :=
  if 2 ≤ fn ∨ s.boot.stage ≠ 0xF ∨ 0x02000000 < off + n then 0 else fld (Store.run 0 off n s.boot.window) 0 n

/-- Bytes written into the open recovery window (R83). -/
def writeWindow (fn off : Nat) (d : Bytes) (s : State) : State :=
  if fn ≠ 0 ∨ !awaitsRecovery s ∨ 0x02000000 < off + d.length then s
  else { s with boot := { s.boot with window := Store.setMany 0 off d s.boot.window } }

/-- RECOVERY_WINDOW_WRITE (R83): `offset` counts from the window's start. -/
def execRecoveryWindowWrite (fn offset : Nat) (data : Bytes) (s : State) : Host.Outcome State Fault Refusal := done (writeWindow fn offset data s)

end Sys2Proof.Machine
end

