-- ==== Sys2Proof/Machine/Registers.lean ====
section
/-! DEFINITION. Accesses of the host to registers, windows and configuration space (R9 to R12, R117 to R128, R138, R139, R142, R145, R159, R336,
R406, R437, R441, R447, R453 to R461). A write to a place with a row of its own does what the row does. -/

namespace Sys2Proof.Machine

open Sys2Proof

/-- The state after a row that a register access comes to. -/
def asRow (o : Host.Outcome State Fault Refusal) (s : State) : State :=
  match o with
  | .next t => t
  | _ => s

/-- Half `i` of a 64-bit register. -/
def half (v : BitVec 64) (i : Nat) : Nat := v.toNat / 2 ^ (32 * i) % 2 ^ 32

/-- A 64-bit register with half `i` written. -/
def putHalf (v : BitVec 64) (i : Nat) (w : Word) : BitVec 64 :=
  if i = 0 then BitVec.ofNat 64 (v.toNat / 2 ^ 32 * 2 ^ 32 + w.toNat) else BitVec.ofNat 64 (w.toNat * 2 ^ 32 + v.toNat % 2 ^ 32)

/-! ## BAR0 of a physical function: reads -/

/-- BOOT_STATUS (R81). -/
def bootStatus (s : State) : Nat :=
  let b := s.boot
  b.lastReset * 2 ^ 24 + b.failCode * 2 ^ 16 + bootStage s * 2 ^ 12 + 64 * b2n b.identIncomplete + 32 * b2n b.ownerEnrolled + 16 * b2n b.slotUsed +
  8 * b2n b.recovery + 4 * b2n b.fallback + 2 * b2n b.failed + b2n b.done

/-- HOST_LINK_STATUS of a physical function (R145). -/
def linkStatus (s : State) (pf : Nat) : Nat :=
  let x := linkAt s (linkOf s pf)
  2 ^ 23 * b2n x.frozen + 2 ^ 20 * x.lstate + 2 ^ 16 * linkOf s pf + 2 ^ 15 * b2n s.boot.straps.hostBif + 2 ^ 14 * b2n x.flit + 256 * x.width +
  16 * x.rate + b2n x.up

/-- The peer registers of a physical function. -/
def peerAt (s : State) (pf : Nat) : PeerRegs := Store.get {} pf s.peers

/-- Change the peer registers of a physical function. -/
def updPeer (pf : Nat) (g : PeerRegs → PeerRegs) (s : State) : State := { s with peers := Store.upd {} pf g s.peers }

/-- The host interface family (R145). -/
def readHostIf (s : State) (pf off : Nat) : Nat :=
  let p := peerAt s pf
  if off = 0x100 then linkStatus s pf
  else if off = 0x104 then 65536 * vecBacked s pf + intMode s pf
  else if 0x120 ≤ off ∧ off < 0x160 then
    let n := (off - 0x120) / 16
    let r := if off % 16 < 8 then Store.get 0 n p.base else Store.get 0 n p.limit
    half r (off % 8 / 4)
  else if off = 0x160 ∨ off = 0x164 then half p.win (off % 8 / 4)
  else if 0x180 ≤ off ∧ off < 0x1A0 then (Store.get 0 ((off - 0x180) / 4) p.allow).toNat
  else 0

/-- TIME_STATUS (R336). -/
def timeStatus (s : State) : Nat := 65536 * min 0xFFFF s.time.steps + 16 * s.time.cfg.source + 4 * b2n (unlocked s) + s.time.state.code

/-- A read of TIME_NOW_LO latches the whole of device time (R336). -/
def readTimeLo (pf : Nat) (s : State) : Nat × State :=
  (nowNs s % 2 ^ 32, { s with time := { s.time with latch := Store.set 0 pf s.time.t s.time.latch } })

/-- The hottest sensor: the lowest of those that read the most. -/
def hottestSensor (s : State) : Nat := (s.power.sensors.findIdx? fun x => decide (x = hottest s)).getD 0

/-- The wellhead family (R406). -/
def readWellhead (s : State) (off : Nat) : Nat :=
  match off with
  | 0x404 => (s.wh.wakeEn ||| 0x82#8).toNat
  | 0x408 => 256 * s.wh.first + s.wh.latched.toNat
  | 0x40C => s.wh.timer.toNat
  | 0x410 => 2 ^ 27 * limitCode s + 2 ^ 16 * hottestSensor s + ((hottest s) % 65536).toNat
  | _ => 0

/-- One bit for each of 32 sources from `32n`. -/
def sourceBits (f : Nat → Bool) (n : Nat) : Nat := ((List.range 32).map fun i => b2n (f (32 * n + i)) * 2 ^ i).sum

/-- The source EVT_ROUTE_SEL selects, none for a higher value (R441). -/
def selected (s : State) (pf : Nat) : Option Nat :=
  let v := Store.get 0 pf s.evt.sel
  if v < 1536 then some v else none

/-- FAULT_STATUS (R437). -/
def faultStatus (s : State) : Nat :=
  s.fault.cause * 2 ^ 24 + s.fault.memory * 2 ^ 16 + min 255 s.fault.count * 256 + 2 * b2n s.fault.uncorr + b2n s.fault.latched

/-- A watermark slot. -/
def wmAt (s : State) (n : Nat) : Wm := Store.get {} n s.cis.wms

/-- A register of a watermark slot (R272). -/
def readWm (s : State) (n off : Nat) : Nat :=
  let w := wmAt s n
  match off with
  | 0 => w.src.toNat
  | 4 => w.thresh.toNat
  | 8 => wmLive s w
  | _ => wmStatus w

/-- A register of a Pump channel (R320). -/
def readPump (c : PumpCh) (off : Nat) : Nat :=
  match off with
  | 0x00 => half c.src 0
  | 0x04 => half c.src 1
  | 0x08 => half c.dst 0
  | 0x0C => half c.dst 1
  | 0x10 => c.count.toNat
  | 0x14 => c.shape.toNat
  | 0x18 => c.ctrl.toNat
  | _ => 65536 * (c.runs % 65536) + 256 * c.lastStatus + c.state

/-- A 32-bit read of the register region of a physical function's BAR0 (R453). -/
def readPf (pf off : Nat) (s : State) : Nat × State :=
  if off = 0x10 then (capUnits s, s)
  else if off = 0x14 then (devMode s, s)
  else if off = 0x18 then (bootStatus s, s)
  else if off = 0x20 then (b2n s.served, s)
  else if 0x100 ≤ off ∧ off < 0x1A0 then (readHostIf s pf off, s)
  else if 0x200 ≤ off ∧ off < 0x208 then (half (admAt s pf).sq (off % 8 / 4), s)
  else if 0x208 ≤ off ∧ off < 0x210 then (half (admAt s pf).cq (off % 8 / 4), s)
  else if off = 0x210 then ((admAt s pf).ctrl.toNat, s)
  else if off = 0x300 then readTimeLo pf s
  else if off = 0x304 then (Store.get 0 pf s.time.latch / 2 ^ 48 % 2 ^ 32, s)
  else if off = 0x308 then (Store.get 0 pf s.time.latch % 65536, s)
  else if off = 0x30C then (timeStatus s, s)
  else if 0x400 ≤ off ∧ off < 0x414 then (readWellhead s off, s)
  else if 0x800 ≤ off ∧ off < 0x8C0 then (sourceBits (evtStatus s) ((off - 0x800) / 4), s)
  else if 0x900 ≤ off ∧ off < 0x9C0 then (sourceBits (evtEnable s) ((off - 0x900) / 4), s)
  else if off = 0xA00 then (Store.get 0 pf s.evt.sel, s)
  else if off = 0xA04 then (((selected s pf).map fun n => (evtRoute s n).toNat).getD 0, s)
  else if off = 0xA08 then (((selected s pf).map fun n => (evtDetail s n).toNat).getD 0, s)
  else if off = 0xA0C then (evtSummary s, s)
  else if off = 0xA20 then (faultStatus s, s)
  else if 0xA28 ≤ off ∧ off < 0xA30 then (half (BitVec.ofNat 64 s.fault.addr) (off % 8 / 4), s)
  else if 0xA30 ≤ off ∧ off < 0xA38 then (half (BitVec.ofNat 64 s.fault.time) (off % 8 / 4), s)
  else if 0xB00 ≤ off ∧ off < 0xB40 then ((Store.get 0 (16 * pf + (off - 0xB00) / 4) s.evt.mboxPend).toNat, s)
  else if 0x2000 ≤ off ∧ off < 0x2400 then (readWm s ((off - 0x2000) / 16) (off % 16), s)
  else if 0x8000 ≤ off ∧ off < 0x10000 then readPage pf (off - 0x8000) s
  else if 0x10000 ≤ off ∧ off < 0x12000 then
    let ch := (off - 0x10000) / 32
    if ch = 255 then (0, s) else if pumpOwner s pf ch then (readPump (pumpAt s ch) (off % 32), s) else (0, badAccess s)
  else if 0x12000 ≤ off ∧ off < 0x12080 then (0, if pcqFor (pcqAt s ((off - 0x12000) / 4)) pf then s else badAccess s)
  else if 0x20000 ≤ off ∧ off < 0x30300 then readBox pf ((off - 0x20000) / 32) (off % 32) s
  else (0, s)

/-! ## BAR0 of a physical function: writes -/

/-- A write to an RWL register of the host interface (R146, R459). -/
def writePeer (pf off : Nat) (v : Word) (s : State) : State :=
  if s.served then badAccess s
  else
    let i := off % 8 / 4
    let n := (off - 0x120) / 16
    if off < 0x160 then
      if off % 16 < 8 then updPeer pf (fun p => { p with base := Store.upd 0 n (fun r => putHalf r i v &&& 0xFFFFFFFFFFFFF000#64) p.base }) s
      else updPeer pf (fun p => { p with limit := Store.upd 0 n (fun r => putHalf r i v &&& 0xFFFFFFFFFFFFF001#64) p.limit }) s
    else if off < 0x168 then updPeer pf (fun p => { p with win := putHalf p.win i v &&& 0xFFFFFFFFFF000001#64 }) s
    else updPeer pf (fun p => { p with allow := Store.set 0 ((off - 0x180) / 4) (v &&& 0x8001FFFF#32) p.allow }) s

/-- A write to ADM_SQ_BASE or ADM_CQ_BASE, ignored while ENABLE is 1 (R312). -/
def writeAdmBase (pf off : Nat) (v : Word) (s : State) : State :=
  let put (r : BitVec 64) : BitVec 64 := putHalf r (off % 8 / 4) v &&& 0xFFFFFFFFFFFFF000#64
  if (admAt s pf).ctrl.getLsbD 0 then s
  else updAdm pf (fun r => if off < 0x208 then { r with sq := put r.sq } else { r with cq := put r.cq }) s

/-- A write to a wellhead register but WH_WAKE (R406). -/
def writeWellhead (off : Nat) (v : Word) (s : State) : State :=
  match off with
  | 0x404 => { s with wh := { s.wh with wakeEn := v.setWidth 8 ||| 0x82#8 } }
  | 0x408 => { s with wh := { s.wh with latched := s.wh.latched &&& ~~~(v.setWidth 8) } }
  | 0x40C => { s with wh := { s.wh with timer := v } }
  | _ => s

/-- A write to EVT_STATUS_n: each 1 clears its source. -/
def clearSources (n : Nat) (v : Word) (s : State) : State :=
  (List.range 32).foldl (fun t i => if v.getLsbD i then clearEvt (32 * n + i) t else t) s

/-- A write to EVT_ROUTE, for the selected source. One of a reserved source or of an absent unit is ignored, as its enable is (R6, R439; the spec
does not say whether the route of a reserved source stores a write: DEDUCED, unsafe: log 42). -/
def writeRoute (pf : Nat) (v : Word) (s : State) : State :=
  match selected s pf with
  | some n => if evtAssigned s n then intxAll { s with evt := { s.evt with route := Store.set 0 n (v &&& 0xE0000FFF#32) s.evt.route } } else s
  | none => s

/-- A write to a register of a watermark slot (R272). -/
def writeWm (n off : Nat) (v : Word) (s : State) : State :=
  match off with
  | 0 => wmWrite n (some v) none s
  | 4 => wmWrite n none (some v) s
  | 12 => if v.getLsbD 0 then { s with cis := { s.cis with wms := Store.upd {} n (fun w => { w with crossed := false }) s.cis.wms } } else s
  | _ => s

/-- A write to a register of a Pump channel, by its owner (R320, R324). -/
def writePump (ch off : Nat) (v : Word) (s : State) : State :=
  let idle := (pumpAt s ch).state == 0
  let put (g : PumpCh → PumpCh) : State := if idle then updPump ch g s else s
  match off with
  | 0x00 => put fun c => { c with src := putHalf c.src 0 v }
  | 0x04 => put fun c => { c with src := putHalf c.src 1 v }
  | 0x08 => put fun c => { c with dst := putHalf c.dst 0 v }
  | 0x0C => put fun c => { c with dst := putHalf c.dst 1 v }
  | 0x10 => put fun c => { c with count := v }
  | 0x14 => put fun c => { c with shape := v &&& 0x03FFFFFF#32 }
  | 0x18 => writeChCtrl ch v s
  | _ => s

/-- A 32-bit write to the register region of a physical function's BAR0 (R453), outside DRY and DORMANT. -/
def writePf (pf off : Nat) (v : Word) (s : State) : State :=
  if (0x120 ≤ off ∧ off < 0x168) ∨ (0x180 ≤ off ∧ off < 0x1A0) then writePeer pf off v s
  else if 0x200 ≤ off ∧ off < 0x210 then writeAdmBase pf off v s
  else if off = 0x210 then writeAdmCtrl pf v s
  else if off = 0x400 then asRow (execWhWake pf v s) s
  else if 0x404 ≤ off ∧ off < 0x414 then writeWellhead off v s
  else if 0x800 ≤ off ∧ off < 0x8C0 then clearSources ((off - 0x800) / 4) v s
  else if 0x900 ≤ off ∧ off < 0x9C0 then writeEnables ((off - 0x900) / 4) v s
  else if off = 0xA00 then { s with evt := { s.evt with sel := Store.set 0 pf (v.toNat % 2048) s.evt.sel } }
  else if off = 0xA04 then writeRoute pf v s
  else if off = 0xA20 then clearFault v s
  else if 0xB00 ≤ off ∧ off < 0xB40 then
    { s with evt := { s.evt with mboxPend := Store.upd 0 (16 * pf + (off - 0xB00) / 4) (fun w => w &&& ~~~v) s.evt.mboxPend } }
  else if 0x2000 ≤ off ∧ off < 0x2400 then writeWm ((off - 0x2000) / 16) (off % 16) v s
  else if 0x10000 ≤ off ∧ off < 0x12000 then
    let ch := (off - 0x10000) / 32
    if ch = 255 then s else if pumpOwner s pf ch then writePump ch (off % 32) v s else badAccess s
  else if 0x12000 ≤ off ∧ off < 0x12080 then asRow (execPcqHead pf ((off - 0x12000) / 4) v s) s
  else if 0x20000 ≤ off ∧ off < 0x30300 then writeBox pf ((off - 0x20000) / 32) (off % 32) v s
  else s

/-! ## BAR0 of a virtual function (R159, R160, R461) -/

/-- A 32-bit read of a virtual function's BAR0: one that is enumerated and not created reads 0 (R148). -/
def readVf (f off : Nat) (s : State) : Nat × State :=
  if !live s f then (0, s)
  else if off = 0 then (65536 * (funcOf s f).qpCount + f, s)
  else if off = 0x10 then (capUnits s, s)
  else if off = 0x14 then (devMode s, s)
  else if 0x100 ≤ off ∧ off < 0x120 then readBox f (4 + 2 * f) (off % 32) s
  else if 0x120 ≤ off ∧ off < 0x140 then readBox f (5 + 2 * f) (off % 32) s
  else if 0x8000 ≤ off ∧ off < 0x10000 then readPage f (off - 0x8000) s
  else (0, badAccess s)

/-- A 32-bit write to a virtual function's BAR0. -/
def writeVf (f off : Nat) (v : Word) (s : State) : State :=
  if !live s f then s
  else if off = 0 ∨ off = 0x10 ∨ off = 0x14 ∨ (0x8000 ≤ off ∧ off < 0x10000) then s
  else if 0x100 ≤ off ∧ off < 0x120 then writeBox f (4 + 2 * f) (off % 32) v s
  else if 0x120 ≤ off ∧ off < 0x140 then writeBox f (5 + 2 * f) (off % 32) v s
  else badAccess s

/-! ## BAR4: the MSI-X table and pending bits (R118, R125, R126, R159) -/

/-- Where the pending bit array of a function lies. -/
def pbaBase (f : Nat) : Nat := if isVf f then 0x2000 else 0x8000

/-- A 32-bit read of BAR4. -/
def readMsix (s : State) (f off : Nat) : Nat :=
  let e := off / 16
  if e < tableSize f then
    if vecBacked s f ≤ e then (if off % 16 = 12 then 1 else 0)
    else
      let m := msixAt s f e
      match off % 16 with
      | 0 => half m.addr 0
      | 4 => half m.addr 1
      | 8 => m.data.toNat
      | _ => b2n m.mask
  else if pbaBase f ≤ off ∧ off < pbaBase f + tableSize f / 8 then
    sourceBits (fun i => decide (i < vecBacked s f) && (msixAt s f i).pend) ((off - pbaBase f) / 4)
  else 0

/-- A 32-bit write to BAR4: entries that are not backed ignore it (R125). -/
def writeMsix (f off : Nat) (v : Word) (s : State) : State :=
  let e := off / 16
  if tableSize f ≤ e ∨ vecBacked s f ≤ e then s
  else match off % 16 with
    | 0 => updMsix f e (fun m => { m with addr := putHalf m.addr 0 (v &&& 0xFFFFFFFC#32) }) s
    | 4 => updMsix f e (fun m => { m with addr := putHalf m.addr 1 v }) s
    | 8 => updMsix f e (fun m => { m with data := v }) s
    | _ => if v.getLsbD 0 then updMsix f e (fun m => { m with mask := true }) s else unmaskEntry f e s

/-! ## Configuration space (R113, R115 to R117, R124, R126, R130, R133, R134, R136, R139, R140, R142). From 0x1000 on stand capability registers
whose offsets the spec does not give (DESIGN CHOICE, unsafe: log 28). -/

/-- CONT_STATUS of a physical function (R139). -/
def contStatus (s : State) (pf : Nat) : Nat :=
  let x := linkAt s (linkOf s pf)
  256 * x.cause + 8 * b2n (cfgOf s pf).relRefused + 4 * b2n (s.mode == .shutIn) + b2n x.frozen

/-- Subsystem Vendor ID and subsystem ID (R117). -/
def subsystemId (f : Nat) : Nat := ((Config.subsystem.map (·.toNat)).getD ((if isVf f then 0x9633 else 0x9632) * 65536 + Config.vendorId.toNat))

/-- Sizes of the windows of a function, by base address register pair (R118, R159). -/
def barSize (vf : Bool) (pair : Nat) : Nat :=
  (if vf then [65536, 1048576, 16384] else [67108864, 67108864, 65536]).getD pair 0

/-- A base address register: the low one of a pair says 64-bit, non-prefetchable memory, and its address bits below the window's size read 0
(R118, R159; PCIe's coding, PRESUMED: log 4). -/
def readBar (vf : Bool) (bars : Store Word) (n : Nat) : Nat :=
  let v := (Store.get 0 n bars).toNat
  if n % 2 = 0 then v / barSize vf (n / 2) * barSize vf (n / 2) + 4 else v

/-- Capability IDs of what R113 lists, standard ones first: PCI Express, MSI-X; AER, SR-IOV, ARI, ATS, L1 PM Substates, containment DVSEC, data
object exchange, Device 3. A virtual function has no SR-IOV, L1, DVSEC or exchange of its own (PRESUMED, unsafe: log 4). -/
def capIds (f : Nat) : List Nat :=
  [0x10, 0x11, 0x0001, 0x000E, 0x000F] ++ (if isVf f then [] else [0x0010, 0x001E, 0x0023, 0x002E, 0x002F])

/-- Log 2 of a size in units of 128 bytes, as Device Control codes it. -/
def sizeCode (n : Nat) : Nat := ((List.range 6).find? fun k => 128 * 2 ^ k == n).getD 0

/-- A 32-bit read of configuration space. -/
def readCfg (s : State) (f off : Nat) : Nat :=
  let c := cfgOf s f
  match off with
  | 0x000 => (if isVf f then 0x9633 else 0x9632) * 65536 + Config.vendorId.toNat
  | 0x004 => 2 ^ 20 + 2 ^ 19 * b2n (!isVf f && intxCond s f) + 1024 * b2n (!isVf f && c.intxDis) + 4 * b2n c.bme
  | 0x008 => 0x02000000 + Config.stepping.toNat
  | 0x02C => subsystemId f
  | 0x030 => if isVf f then 0 else c.rom.toNat
  | 0x03C => if isVf f then 0 else 256 * intxPin s f
  | 0x1000 => 2 ^ 31 * b2n c.msixEn + 2 ^ 30 * b2n c.fnMask + 2 ^ 16 * (tableSize f - 1)
  | 0x1001 => 2 ^ 21 * b2n c.flr + 4096 * sizeCode c.mrrs + 32 * sizeCode c.mps + 16 * b2n c.relaxed
  | 0x1002 => c.cto + 256 * c.ido + 4096 * (c.tagEn % 2)
  | 0x1003 => 2 ^ 31 * b2n c.ats
  | 0x1004 => 2 * b2n (linkAt s (linkOf s f)).aspmL1
  | 0x1005 => if isVf f then 0 else 65536 * c.numVfs + 16 * b2n c.ari + b2n c.vfEnable
  | 0x1006 => if isVf f then 0 else 65536 * 512 + 512
  | 0x1007 => 4 * (c.tagEn / 2 % 2) + 8 * b2n (linkAt s (linkOf s f)).l0pEn
  | 0x1008 => if isVf f then 0 else (linkAt s (linkOf s f)).l1ss
  | 0x1009 => c.aerUnc.toNat
  | 0x100A => c.aerUncMask.toNat
  | 0x100B => c.aerUncSev.toNat
  | 0x100C => c.aerCor.toNat
  | 0x100D => c.aerCorMask.toNat
  | 0x100E => 0xA0 + 64 * (c.ecrc % 2) + 256 * (c.ecrc / 2 % 2)
  | _ =>
    let x := linkAt s (linkOf s f)
    if 0x10 ≤ off ∧ off < 0x28 then (if isVf f then 0 else readBar false c.bars ((off - 0x10) / 4))
    else if 0x1010 ≤ off ∧ off < 0x1016 then (if isVf f then 0 else readBar true c.vfBars (off - 0x1010))
    else if 0x1100 ≤ off then (capIds f).getD (off - 0x1100) 0
    else if isVf f then 0
    else match off with
      | 0x400 => Config.dvsecNext.toNat * 2 ^ 20 + 0x10023
      | 0x404 => 0x02000000 + Config.vendorId.toNat
      | 0x408 => 1
      | 0x40C => contStatus s f
      | 0x410 => x.time % 2 ^ 32
      | 0x414 => x.time / 2 ^ 32 % 2 ^ 32
      | 0x41C => x.count % 2 ^ 32
      | _ => 0

/-- Device Control: FLR, Max_Read_Request_Size, Max_Payload_Size and Enable Relaxed Ordering (R113, R115, R133); a size the device does not
support leaves the field. -/
def writeDevCtl (f : Nat) (v : Word) (s : State) : State :=
  let mps := bits v.toNat 5 3
  let mrrs := bits v.toNat 12 3
  let s := updCfg f (fun c => { c with relaxed := v.getLsbD 4, mps := if mps ≤ 2 then 128 * 2 ^ mps else c.mps,
                                       mrrs := if mrrs ≤ 5 then 128 * 2 ^ mrrs else c.mrrs }) s
  if v.getLsbD 15 then asRow (execFlr f s) s else s

/-- A 32-bit write to configuration space. -/
def writeCfg (f off : Nat) (v : Word) (s : State) : State :=
  let c := cfgOf s f
  match off with
  | 0x004 =>
    let s := if v.getLsbD 2 == c.bme then s else setBme f (v.getLsbD 2) s
    if isVf f then s else intxAll (updCfg f (fun c => { c with intxDis := v.getLsbD 10 }) s)
  | 0x1000 => setMsixCtl f (v.getLsbD 31) (v.getLsbD 30) s
  | 0x1001 => writeDevCtl f v s
  | 0x1002 => updCfg f (fun c => { c with cto := v.toNat % 32, ido := bits v.toNat 8 2, tagEn := c.tagEn / 2 * 2 + bits v.toNat 12 1 }) s
  | 0x1003 => if v.getLsbD 31 then updCfg f (fun c => { c with ats := true }) s else if c.ats then atsOff f s else s
  | 0x1004 => if isVf f then s else updLink (linkOf s f) (fun x => { x with aspmL1 := v.getLsbD 1 }) s
  | 0x1005 =>
    let s := if isVf f then s else updCfg f (fun c => { c with ari := v.getLsbD 4 }) s
    if v.getLsbD 0 then asRow (execVfEnableSet f (v.toNat / 65536) s) s
    else
      let s := asRow (execVfEnableClear f s) s
      if isVf f ∨ 512 < v.toNat / 65536 then s else updCfg f (fun c => { c with numVfs := v.toNat / 65536 }) s
  | 0x030 => if isVf f then s else updCfg f (fun c => { c with rom := v &&& 0xFFF00001#32 }) s
  | 0x1007 =>
    let s := updCfg f (fun c => { c with tagEn := c.tagEn % 2 + 2 * bits v.toNat 2 1 }) s
    if isVf f then s else updLink (linkOf s f) (fun x => { x with l0pEn := v.getLsbD 3 }) s
  | 0x1008 => if isVf f then s else updLink (linkOf s f) (fun x => { x with l1ss := v.toNat % 16 }) s
  | 0x1009 => updCfg f (fun c => { c with aerUnc := c.aerUnc &&& ~~~v }) s
  | 0x100A => updCfg f (fun c => { c with aerUncMask := v }) s
  | 0x100B => updCfg f (fun c => { c with aerUncSev := v }) s
  | 0x100C => updCfg f (fun c => { c with aerCor := c.aerCor &&& ~~~v }) s
  | 0x100D => updCfg f (fun c => { c with aerCorMask := v }) s
  | 0x100E => updCfg f (fun c => { c with ecrc := bits v.toNat 6 1 + 2 * bits v.toNat 8 1 }) s
  | 0x40C => if !isVf f && v.getLsbD 3 then updCfg f (fun c => { c with relRefused := false }) s else s
  | 0x418 => if v.getLsbD 0 then asRow (execContRelease f (v.toNat / 256 % 256) s) s else s
  | _ =>
    if isVf f then s
    else if 0x10 ≤ off ∧ off < 0x28 then updCfg f (fun c => { c with bars := Store.set 0 ((off - 0x10) / 4) v c.bars }) s
    else if 0x1010 ≤ off ∧ off < 0x1016 then updCfg f (fun c => { c with vfBars := Store.set 0 (off - 0x1010) v c.vfBars }) s
    else s

/-! ## Accesses -/

/-- The 32-bit accesses that an access is split into (R120): one, or the two of an aligned 64-bit access; none for any other size or alignment. -/
def parts (a : RegAccess) : List Nat :=
  if a.size = 4 ∧ a.offset % 4 = 0 then [a.offset] else if a.size = 8 ∧ a.offset % 8 = 0 then [a.offset, a.offset + 4] else []

/-- Read the parts of an access, the lower address first. -/
def readParts (k : Nat → State → Nat × State) : List Nat → State → Nat × State
  | [], s => (0, s)
  | o :: r, s =>
    let (v, s) := k o s
    let (w, s) := readParts k r s
    (v + 2 ^ 32 * w, s)

/-- Write the parts of an access, the lower address first. -/
def writeParts (k : Nat → Word → State → State) (value : Nat) : List Nat → State → State
  | [], s => s
  | o :: r, s => writeParts k (value / 2 ^ 32) r (k o (BitVec.ofNat 32 value) s)

/-- A read of registers: a bad size or alignment returns 0 and counts (R120). -/
def readRegs (k : Nat → State → Nat × State) (a : RegAccess) (s : State) : Nat × State :=
  if (parts a).isEmpty then (0, badAccess s) else readParts k (parts a) s

/-- A write to registers: one with a bad size or alignment is ignored and counts (R120). -/
def writeRegs (k : Nat → Word → State → State) (a : RegAccess) (value : Nat) (s : State) : State :=
  if (parts a).isEmpty then badAccess s else writeParts k value (parts a) s

/-- The function decodes memory windows: a physical one, or an enumerated virtual one. -/
def decodes (s : State) (f : Nat) : Bool := s.boot.powered && answersCfg s f

/-- A register of BAR0 that answers in DORMANT (R142). -/
def dormantReads (f off : Nat) : Bool :=
  off == 0x10 || off == 0x14 || (!isVf f && (off == 0x18 || off == 0x100 || (decide (0x400 ≤ off) && decide (off < 0x414))))

/-- A 32-bit read of BAR0: in DORMANT only what answers there (R142). -/
def readBar0 (f off : Nat) (s : State) : Nat × State :=
  if s.mode = .dormant ∧ !dormantReads f off then (0, count (cDev 8) s)
  else if isVf f then (if off < 0x10000 then readVf f off s else (0, s))
  else readPf f off s

/-- What a memory window reads as on a link that is not frozen (R81, R119, R120, R142, R460). -/
def windowRead (f : Nat) (a : RegAccess) (s : State) : Nat × State :=
  if s.mode = .dry then
    if a.bar ≠ 0 ∨ isVf f then (0, s)
    else if 0x02000000 ≤ a.offset then (readWindow f (a.offset - 0x02000000) a.size s, s)
    else readRegs (fun o s => (if o = 0x18 then bootStatus s else 0, s)) a s
  else if s.mode = .dormant ∧ (a.bar ≠ 0 ∨ (parts a).isEmpty ∨ 0x01000000 ≤ a.offset) then (0, count (cDev 8) s)
  else if a.bar = 0 ∧ a.offset < 0x01000000 then readRegs (readBar0 f) a s
  else if a.bar = 4 then readRegs (fun o s => (readMsix s f o, s)) a s
  else (0, s)

/-- A read of an aligned part of configuration space. -/
def cfgRead (f : Nat) (a : RegAccess) (s : State) : Nat :=
  let d := if 0x1000 ≤ a.offset then a.offset else a.offset / 4 * 4
  let at_ := if 0x1000 ≤ a.offset then 0 else a.offset % 4
  readCfg s f d / 2 ^ (8 * at_) % 2 ^ (8 * min 4 a.size)

/-- The bytes of the expansion ROM window (R118, R123). -/
def romRead (s : State) (a : RegAccess) : Nat :=
  fld ((List.range a.size).map fun i => if s.mode = .dry ∨ 2 ^ 20 ≤ a.offset + i then 0xFF#8 else Config.romByte (a.offset + i)) 0 a.size

/-- REGISTER_READ (R119 to R121, R123, R125, R138, R142, R159, R453 to R461). -/
def execRegisterRead (fn : Nat) (a : RegAccess) (s : State) : Host.Outcome State Fault Refusal :=
  done (
    if !decodes s fn then s
    else if a.bar = 255 then emit (.readData (cfgRead fn a s)) s
    else if a.bar = 6 ∧ (isVf fn ∨ !(cfgOf s fn).rom.getLsbD 0) then s
    else if s.mode ≠ .dry ∧ frozen s fn then emit (.readData (2 ^ (8 * a.size) - 1)) s
    else if a.bar = 6 ∧ s.mode ≠ .dormant then emit (.readData (romRead s a)) s
    else if a.bar = 0 ∧ !isVf fn ∧ 0x01000000 ≤ a.offset ∧ a.offset < 0x02000000 ∧ s.mode ≠ .dry then
      asRow (execPeerWindowRead fn (a.rid.getD (ridOf s fn)) (a.offset - 0x01000000) a.size s) s
    else onHostRead fn a.size true true (windowRead fn a) s)

/-- A doorbell page (R121): the two doorbells are 32 bits wide, and every other write is stray. -/
def writeDoorbells (fn : Nat) (a : RegAccess) (value : Nat) (s : State) : State :=
  let q := a.offset / 4096
  if a.size = 4 ∧ a.offset % 4096 = 0 then asRow (execSubmissionDoorbell fn q (BitVec.ofNat 32 value) s) s
  else if a.size = 4 ∧ a.offset % 4096 = 8 then asRow (execCompletionDoorbell fn q (BitVec.ofNat 32 value) s) s
  else if s.mode = .dry then s
  else if frozen s fn then count (cDev 6) s
  else count (cDev 4) s

/-- A write to a function's BAR0 in DRY (R81, R83, R460). -/
def writeDry (fn : Nat) (a : RegAccess) (value : Nat) (s : State) : State :=
  if a.bar ≠ 0 ∨ a.bad then s
  else if 0x02000000 ≤ a.offset then writeWindow fn (a.offset - 0x02000000) (toLe a.size value) s
  else writeRegs (fun o v s => if o = 0x1C then bootCtrl fn v s else s) a value s

/-- A 32-bit write to BAR0: in DORMANT only WH_WAKE acts (R142, R407). -/
def writeBar0 (f off : Nat) (v : Word) (s : State) : State :=
  if s.mode = .dormant then (if off = 0x400 ∧ !isVf f then asRow (execWhWake f v s) s else count (cDev 8) s)
  else if isVf f then (if off < 0x10000 then writeVf f off v s else s)
  else writePf f off v s

/-- A register that only the manager of the function may write: the RWL registers of the host interface (R145, R146). -/
def managed (f off : Nat) : Bool :=
  !isVf f && ((decide (0x120 ≤ off) && decide (off < 0x168)) || (decide (0x180 ≤ off) && decide (off < 0x1A0)))

/-- A write to the windows of BAR0 and BAR4, outside DRY: one of another requester to what only the manager may write is ignored and counts
(R146). -/
def windowWrite (fn : Nat) (a : RegAccess) (value : Nat) (s : State) : State :=
  if s.mode = .dormant ∧ (a.bar ≠ 0 ∨ (parts a).isEmpty ∨ 0x01000000 ≤ a.offset) then count (cDev 8) s
  else if a.bar = 0 ∧ a.offset < 0x01000000 then
    writeRegs (fun o v s => if a.rid.isSome && s.mode != .dormant && managed fn o then badAccess s else writeBar0 fn o v s) a value s
  else if a.bar = 4 then writeRegs (writeMsix fn) a value s
  else s

/-- Poison arrives in a write to a register or a doorbell (R431): the write is discarded, counted and logged. -/
def poisonedWrite (fn : Nat) (s : State) : State := logAdvisory fn 12 (count (cDev 11) s)

/-- A write of the host to a register or a window (R9, R119 to R122, R125, R138, R142, R146, R431, R453 to R461). -/
def hostRegWrite (fn : Nat) (a : RegAccess) (value : Nat) (s : State) : State :=
  if !decodes s fn then s
  else if a.bar = 255 then (if a.bad ∨ a.size ≠ 4 ∨ (a.offset < 0x1000 ∧ a.offset % 4 ≠ 0) then s else writeCfg fn a.offset (BitVec.ofNat 32 value) s)
  else if s.mode = .dry then writeDry fn a value s
  else if frozen s fn then count (cDev 6) s
  else if a.bar = 0 ∧ !isVf fn ∧ 0x01000000 ≤ a.offset ∧ a.offset < 0x02000000 then
    asRow (execPeerWindowWrite fn (a.rid.getD (ridOf s fn)) (a.offset - 0x01000000) (toLe a.size value) a.bad s) s
  else if a.bad then poisonedWrite fn s
  else if a.bar = 2 then writeDoorbells fn a value s
  else windowWrite fn a value s

/-- REGISTER_WRITE (R9). -/
def execRegisterWrite (fn : Nat) (a : RegAccess) (value : Nat) (s : State) : Host.Outcome State Fault Refusal := done (hostRegWrite fn a value s)

/-- WATERMARK_REGISTER_WRITE (R272): a write into the watermark family; an access elsewhere is none of its. -/
def execWatermarkRegisterWrite (fn : Nat) (a : RegAccess) (value : Nat) (s : State) : Host.Outcome State Fault Refusal :=
  done (if a.bar = 0 ∧ 0x2000 ≤ a.offset ∧ a.offset < 0x2400 then hostRegWrite fn a value s else s)

/-- TIME_NOW_LO_READ (R336): a 32-bit read of TIME_NOW_LO in BAR0 of a physical function. -/
def execTimeNowLoRead (pf : Nat) (s : State) : Host.Outcome State Fault Refusal :=
  done (if !decodes s pf then s else onHostRead pf 4 false false (fun s => if isVf pf then (0, badAccess s) else readTimeLo pf s) s)

end Sys2Proof.Machine
end

