-- ==== Sys2Proof/Machine/Forward.lean ====
section
/-! DEFINITION. FORWARD (R56): a command inside a command, issued by the unit at the end of the outer path. -/

namespace Sys2Proof.Machine

open Sys2Proof

/-! ## The opcodes an inner command may have. IMAGE_LOAD, FW_WRITE, MOD_READ, MOD_WRITE and RESET_UNIT need what stands outside the block (an image,
a module, the straps): a command of theirs waits at its forwarding entry until its row is presented on that channel (DESIGN CHOICE, unsafe: log 20). -/

/-- Opcodes of class 0x01. -/
def opClass01 (n : Nat) (c : Cmd) (s : State) : Option (Host.Outcome State Fault Refusal) :=
  match n with
  | 1 => some (execIdentify c s)
  | 2 => some (execCapability c s)
  | 3 => some (execModeGet c s)
  | 4 => some (execModeSet c s)
  | 5 => some (execCountersRead c s)
  | 7 => some (execEcho c s)
  | 8 => some (execStatusOf c s)
  | 10 => some (execChannelBind c s)
  | _ => none

/-- Opcodes of class 0x02. -/
def opClass02 (n : Nat) (c : Cmd) (s : State) : Option (Host.Outcome State Fault Refusal) :=
  match n with
  | 2 => some (execGateCheck c s)
  | 4 => some (execFwActivate c s)
  | 5 => some (execOwnerEnrol c s)
  | 6 => some (execRandom c s)
  | 7 => some (execCertRead c s)
  | _ => none

/-- Opcodes of class 0x03. -/
def opClass03 (n : Nat) (c : Cmd) (s : State) : Option (Host.Outcome State Fault Refusal) :=
  match n with
  | 1 => some (execFuncCreate c s)
  | 2 => some (execFuncDestroy c s)
  | 3 => some (execFuncQuery c s)
  | 4 => some (execSpoofSet c s)
  | _ => none

/-- Opcodes of class 0x04. -/
def opClass04 (n : Nat) (c : Cmd) (s : State) : Option (Host.Outcome State Fault Refusal) :=
  match n with
  | 1 => some (execQueueCreate c s)
  | 2 => some (execQueueStop c s)
  | 3 => some (execQueueStart c s)
  | 4 => some (execQueueDestroy c s)
  | 5 => some (execQueueQuery c s)
  | _ => none

/-- Opcodes of class 0x05. -/
def opClass05 (n : Nat) (c : Cmd) (s : State) : Option (Host.Outcome State Fault Refusal) :=
  match n with
  | 1 => some (execPumpAssign c s)
  | 2 => some (execPcqSet c s)
  | 3 => some (execPumpRecover c s)
  | 4 => some (execPumpStatus c s)
  | _ => none

/-- Opcodes of class 0x06. -/
def opClass06 (n : Nat) (c : Cmd) (s : State) : Option (Host.Outcome State Fault Refusal) :=
  match n with
  | 1 => some (execPortConfig c s)
  | 2 => some (execPortStatus c s)
  | 5 => some (execPortLoopback c s)
  | 6 => some (execTestgenSet c s)
  | 7 => some (execTestgenStatus c s)
  | _ => none

/-- Opcodes of class 0x07. -/
def opClass07 (n : Nat) (c : Cmd) (s : State) : Option (Host.Outcome State Fault Refusal) :=
  match n with
  | 1 => some (execGraphWrite c s)
  | 2 => some (execBindSet c s)
  | 3 => some (execTreeWrite c s)
  | 4 => some (execTreesetWrite c s)
  | 5 => some (execRuleWrite c s)
  | 6 => some (execClassWrite c s)
  | 7 => some (execAlistWrite c s)
  | 8 => some (execSpreadSet c s)
  | 9 => some (execIndirWrite c s)
  | 10 => some (execFlowcntRead c s)
  | 11 => some (execProgramList c s)
  | _ => none

/-- Opcodes of class 0x08. -/
def opClass08 (n : Nat) (c : Cmd) (s : State) : Option (Host.Outcome State Fault Refusal) :=
  match n with
  | 1 => some (execEmDefine c s)
  | 2 => some (execEmUpdate c s)
  | 3 => some (execCommit c s)
  | 4 => some (execEmLookup c s)
  | 5 => some (execEmAgedRead c s)
  | 6 => some (execSieveDefine c s)
  | 7 => some (execSieveUpdate c s)
  | 8 => some (execSieveSearch c s)
  | 9 => some (execSieveStep c s)
  | 10 => some (execEpochGet c s)
  | _ => none

/-- Opcodes of class 0x09. -/
def opClass09 (n : Nat) (c : Cmd) (s : State) : Option (Host.Outcome State Fault Refusal) :=
  match n with
  | 1 => some (execPolicerWrite c s)
  | 2 => some (execPolicerRead c s)
  | 3 => some (execSchedWrite c s)
  | 4 => some (execCurveWrite c s)
  | 5 => some (execPortBufSet c s)
  | 6 => some (execQueueStatus c s)
  | _ => none

/-- Opcodes of class 0x0A. -/
def opClass0A (n : Nat) (c : Cmd) (s : State) : Option (Host.Outcome State Fault Refusal) :=
  match n with
  | 1 => some (execPoolLayout c s)
  | 2 => some (execQuotaSet c s)
  | 3 => some (execOwnerQuery c s)
  | 4 => some (execForfeit c s)
  | 5 => some (execSiltRead c s)
  | 6 => some (execSiltReclaim c s)
  | 7 => some (execPoolStatus c s)
  | 8 => some (execWmSet c s)
  | 9 => some (execWmRead c s)
  | _ => none

/-- Opcodes of class 0x0B. -/
def opClass0B (n : Nat) (c : Cmd) (s : State) : Option (Host.Outcome State Fault Refusal) :=
  match n with
  | 1 => some (execCtxLoad c s)
  | 2 => some (execCtxDelete c s)
  | 3 => some (execCtxRead c s)
  | 4 => some (execCtxUpdate c s)
  | 5 => some (execCipherStatus c s)
  | _ => none

/-- Opcodes of class 0x0C. -/
def opClass0C (n : Nat) (c : Cmd) (s : State) : Option (Host.Outcome State Fault Refusal) :=
  match n with
  | 1 => some (execTimeConfig c s)
  | 2 => some (execTimeGet c s)
  | 3 => some (execTimeAdjust c s)
  | 4 => some (execTimePortSet c s)
  | 5 => some (execPpsInRead c s)
  | 6 => some (execSynceSet c s)
  | _ => none

/-- Opcodes of class 0x0D. -/
def opClass0D (n : Nat) (c : Cmd) (s : State) : Option (Host.Outcome State Fault Refusal) :=
  match n with
  | 1 => some (execFhCarrierSet c s)
  | 2 => some (execFhFlowSet c s)
  | 3 => some (execFhFlowStatus c s)
  | 4 => some (execFhGridQuery c s)
  | _ => none

/-- Opcodes of class 0x0E. -/
def opClass0E (n : Nat) (c : Cmd) (s : State) : Option (Host.Outcome State Fault Refusal) :=
  match n with
  | 1 => some (execCombSetWrite c s)
  | 2 => some (execCombCflowWrite c s)
  | 3 => some (execCombWeights c s)
  | 4 => some (execCombSwitch c s)
  | 5 => some (execCombStatus c s)
  | _ => none

/-- Opcodes of class 0x0F. -/
def opClass0F (n : Nat) (c : Cmd) (s : State) : Option (Host.Outcome State Fault Refusal) :=
  match n with
  | 1 => some (execAqConfig c s)
  | 2 => some (execAqJoin c s)
  | 3 => some (execAqLeave c s)
  | 4 => some (execAqStatus c s)
  | 5 => some (execAqCertRead c s)
  | _ => none

/-- Opcodes of class 0x10. -/
def opClass10 (n : Nat) (c : Cmd) (s : State) : Option (Host.Outcome State Fault Refusal) :=
  match n with
  | 1 => some (execPowerPolicy c s)
  | 2 => some (execPowerCostSet c s)
  | 3 => some (execPowerPlanSet c s)
  | 4 => some (execPowerStatus c s)
  | 5 => some (execPowerTelemetry c s)
  | 6 => some (execPowerVfRead c s)
  | _ => none

/-- Opcodes of class 0x11. -/
def opClass11 (n : Nat) (c : Cmd) (s : State) : Option (Host.Outcome State Fault Refusal) :=
  match n with
  | 1 => some (execCntGrant c s)
  | 2 => some (execMonConfig c s)
  | 3 => some (execMonRead c s)
  | 4 => some (execCntCtxRead c s)
  | _ => none

/-- The row of an opcode that needs no more than its command packet. -/
def opRow (op : Nat) (c : Cmd) (s : State) : Option (Host.Outcome State Fault Refusal) :=
  match op / 256 with
  | 0x01 => opClass01 (op % 256) c s
  | 0x02 => opClass02 (op % 256) c s
  | 0x03 => opClass03 (op % 256) c s
  | 0x04 => opClass04 (op % 256) c s
  | 0x05 => opClass05 (op % 256) c s
  | 0x06 => opClass06 (op % 256) c s
  | 0x07 => opClass07 (op % 256) c s
  | 0x08 => opClass08 (op % 256) c s
  | 0x09 => opClass09 (op % 256) c s
  | 0x0A => opClass0A (op % 256) c s
  | 0x0B => opClass0B (op % 256) c s
  | 0x0C => opClass0C (op % 256) c s
  | 0x0D => opClass0D (op % 256) c s
  | 0x0E => opClass0E (op % 256) c s
  | 0x0F => opClass0F (op % 256) c s
  | 0x10 => opClass10 (op % 256) c s
  | 0x11 => opClass11 (op % 256) c s
  | _ => none

/-- An inner command whose opcode does not exist (R45). -/
def innerUnknown (op : Nat) (c : Cmd) (s : State) : State :=
  runCommand { code := op, len := fun _ => true, vf := true, known := false, cap := classCap op } (readBody fun _ _ _ => err stBadOpcode 0) c s

/-- The inner packet is malformed (R56): its header does not set INLINE, or its length is not that of the payload that carries it. -/
def innerBad (b : Bytes) : Bool := !bit (fld b 2 2) 0 || 64 + fld b 24 4 != b.length

/-- The inner packet's CRC holds (R39). -/
def innerGood (b : Bytes) : Bool := decide (crc32c (b.take 60 ++ b.drop 64) = fld b 60 4)

/-- Issue the inner command of a FORWARD (R55, R56): its forwarding entry, or the answer when there is none to be had. A FORWARD
refused here has no inner reply to carry, and its REMOTE is that of any other answer of the unit (DESIGN CHOICE, unsafe: log 20). -/
def innerEntry (r : CmdRef) (t : Target) (b : Bytes) (s : State) : Except Answer (Nat × State) :=
  let us := if fld b 28 4 = 0 then 100000 else fld b 28 4
  if !innerGood b then .error (err stBadCheck 0)
  else if innerBad b then .error (err stBadLength 0)
  else if us * 10 < 22 then .error (err stTimeout 0)
  else match freeFwd s with
    | none => .error (err stBusy 0)
    | some n => .ok (n, putFwd { num := n, origin := r, inner := true, body := b, member := unitCode t, since := s.time.t, remainUs := forwardTimeout (1000 * us) } s)

/-- Run an inner command at its entry: a FORWARD nests by `nest`. -/
def runInner (nest : Cmd → State → State) (n : Nat) (b : Bytes) (s : State) : State :=
  let (op, c) := parseCmd (.fwd n) b
  if op = 0x0109 then nest c s
  else if !opKnown op then innerUnknown op c s
  else match opRow op c s with
    | some o => asRow o s
    | none => s

/-- What the shared checks need to know of FORWARD (R56, R57). -/
def forwardInfo : OpInfo := { code := 0x0109, len := lenIn 64 4160, modes := modesRead }

/-- FORWARD with `fuel` levels of nesting left: a payload holds at most 65 headers. -/
def forwardN : Nat → Cmd → State → State
  | 0, _, s => s
  | fuel + 1, c, s =>
    runCommand forwardInfo (fun r t c s =>
      match innerEntry r t c.payload s with
      | .error a => (s, some a)
      | .ok (n, s) => (runInner (forwardN fuel) n c.payload s, none)) c s

/-- FORWARD (R56). -/
def execForward (c : Cmd) (s : State) : Host.Outcome State Fault Refusal := done (forwardN 66 c s)

end Sys2Proof.Machine
end

