-- ==== Sys2Proof/Machine/Dispatch.lean ====
section
/-! DEFINITION. The dispatch: one arm per constructor of `Instr`, each one direct call of that command's meaning. -/

namespace Sys2Proof.Machine

open Sys2Proof

def exec (i : Instr) (s : State) : Host.Outcome State Fault Refusal :=
  match i with
  | .powerOn straps => Sys2Proof.Machine.execPowerOn straps s
  | .sysRstN straps => Sys2Proof.Machine.execSysRstN straps s
  | .powerLoss => Sys2Proof.Machine.execPowerLoss s
  | .watchdogReset straps => Sys2Proof.Machine.execWatchdogReset straps s
  | .bootSlotVerified slotB image => Sys2Proof.Machine.execBootSlotVerified slotB image s
  | .clayTrainingDone ok => Sys2Proof.Machine.execClayTrainingDone ok s
  | .dryLeft certOk => Sys2Proof.Machine.execDryLeft certOk s
  | .bootRestart => Sys2Proof.Machine.execBootRestart s
  | .retryFlash fn => Sys2Proof.Machine.execRetryFlash fn s
  | .loadRecovery fn => Sys2Proof.Machine.execLoadRecovery fn s
  | .recoveryWindowWrite fn offset data => Sys2Proof.Machine.execRecoveryWindowWrite fn offset data s
  | .entropyReady => Sys2Proof.Machine.execEntropyReady s
  | .entropyFail => Sys2Proof.Machine.execEntropyFail s
  | .identify c => Sys2Proof.Machine.execIdentify c s
  | .capability c => Sys2Proof.Machine.execCapability c s
  | .modeGet c => Sys2Proof.Machine.execModeGet c s
  | .modeSet c => Sys2Proof.Machine.execModeSet c s
  | .modeSetAtTime => Sys2Proof.Machine.execModeSetAtTime s
  | .gateDecided => Sys2Proof.Machine.execGateDecided s
  | .modeTransitionComplete => Sys2Proof.Machine.execModeTransitionComplete s
  | .dormantClocksStop => Sys2Proof.Machine.execDormantClocksStop s
  | .wakeDone => Sys2Proof.Machine.execWakeDone s
  | .wakeInN => Sys2Proof.Machine.execWakeInN s
  | .whWake fn value => Sys2Proof.Machine.execWhWake fn value s
  | .wakeTimer => Sys2Proof.Machine.execWakeTimer s
  | .portSignalDetect port => Sys2Proof.Machine.execPortSignalDetect port s
  | .resetUnit c straps => Sys2Proof.Machine.execResetUnit c straps s
  | .echo c => Sys2Proof.Machine.execEcho c s
  | .statusOf c => Sys2Proof.Machine.execStatusOf c s
  | .forward c => Sys2Proof.Machine.execForward c s
  | .channelBind c => Sys2Proof.Machine.execChannelBind c s
  | .forwardedReply entry answer => Sys2Proof.Machine.execForwardedReply entry answer s
  | .commandTimeout ch seq => Sys2Proof.Machine.execCommandTimeout ch seq s
  | .mboxDoorbell fn box value => Sys2Proof.Machine.execMboxDoorbell fn box value s
  | .mboxAck fn box value => Sys2Proof.Machine.execMboxAck fn box value s
  | .mboxTimeout box => Sys2Proof.Machine.execMboxTimeout box s
  | .imageLoad c img => Sys2Proof.Machine.execImageLoad c img s
  | .gateCheck c => Sys2Proof.Machine.execGateCheck c s
  | .fwWrite c img => Sys2Proof.Machine.execFwWrite c img s
  | .fwActivate c => Sys2Proof.Machine.execFwActivate c s
  | .ownerEnrol c => Sys2Proof.Machine.execOwnerEnrol c s
  | .random c => Sys2Proof.Machine.execRandom c s
  | .certRead c => Sys2Proof.Machine.execCertRead c s
  | .getVersion m => Sys2Proof.Machine.execGetVersion m s
  | .getCapabilities m => Sys2Proof.Machine.execGetCapabilities m s
  | .negotiateAlgorithms m => Sys2Proof.Machine.execNegotiateAlgorithms m s
  | .getDigests m => Sys2Proof.Machine.execGetDigests m s
  | .getCertificate m => Sys2Proof.Machine.execGetCertificate m s
  | .challenge m => Sys2Proof.Machine.execChallenge m s
  | .getMeasurements m => Sys2Proof.Machine.execGetMeasurements m s
  | .keyExchange m => Sys2Proof.Machine.execKeyExchange m s
  | .finish m => Sys2Proof.Machine.execFinish m s
  | .heartbeat m => Sys2Proof.Machine.execHeartbeat m s
  | .keyUpdate m => Sys2Proof.Machine.execKeyUpdate m s
  | .endSession m => Sys2Proof.Machine.execEndSession m s
  | .chunkSend m => Sys2Proof.Machine.execChunkSend m s
  | .chunkGet m => Sys2Proof.Machine.execChunkGet m s
  | .perst link => Sys2Proof.Machine.execPerst link s
  | .hotReset link => Sys2Proof.Machine.execHotReset link s
  | .linkTrained link rate width flit => Sys2Proof.Machine.execLinkTrained link rate width flit s
  | .surpriseDown link => Sys2Proof.Machine.execSurpriseDown link s
  | .pcieUncorrectableError link code => Sys2Proof.Machine.execPcieUncorrectableError link code s
  | .contRelease fn key => Sys2Proof.Machine.execContRelease fn key s
  | .flr fn => Sys2Proof.Machine.execFlr fn s
  | .flrComplete fn => Sys2Proof.Machine.execFlrComplete fn s
  | .vfEnableClear pf => Sys2Proof.Machine.execVfEnableClear pf s
  | .busMasterEnable fn on => Sys2Proof.Machine.execBusMasterEnable fn on s
  | .msixUnmask fn entry which => Sys2Proof.Machine.execMsixUnmask fn entry which s
  | .readCompletion tag data last bad => Sys2Proof.Machine.execReadCompletion tag data last bad s
  | .readTimeout tag => Sys2Proof.Machine.execReadTimeout tag s
  | .translationCompletion req ok entry => Sys2Proof.Machine.execTranslationCompletion req ok entry s
  | .invalidateRequest itag fn base size => Sys2Proof.Machine.execInvalidateRequest itag fn base size s
  | .invalidateCompletion itag fn => Sys2Proof.Machine.execInvalidateCompletion itag fn s
  | .peerWindowWrite pf rid offset data bad => Sys2Proof.Machine.execPeerWindowWrite pf rid offset data bad s
  | .peerWindowRead pf rid offset len => Sys2Proof.Machine.execPeerWindowRead pf rid offset len s
  | .registerWrite fn a value => Sys2Proof.Machine.execRegisterWrite fn a value s
  | .funcCreate c => Sys2Proof.Machine.execFuncCreate c s
  | .funcDestroy c => Sys2Proof.Machine.execFuncDestroy c s
  | .funcQuery c => Sys2Proof.Machine.execFuncQuery c s
  | .spoofSet c => Sys2Proof.Machine.execSpoofSet c s
  | .lineFrameReceive port f => Sys2Proof.Machine.execLineFrameReceive port f s
  | .pauseFrameReceive port data => Sys2Proof.Machine.execPauseFrameReceive port data s
  | .pauseExpiry port prio => Sys2Proof.Machine.execPauseExpiry port prio s
  | .pauseWatchdog port prio => Sys2Proof.Machine.execPauseWatchdog port prio s
  | .pauseXoffRepeat port prio => Sys2Proof.Machine.execPauseXoffRepeat port prio s
  | .lpiEntry port => Sys2Proof.Machine.execLpiEntry port s
  | .portLinkChange port up width => Sys2Proof.Machine.execPortLinkChange port up width s
  | .egressDequeue root => Sys2Proof.Machine.execEgressDequeue root s
  | .timedLaunch queue => Sys2Proof.Machine.execTimedLaunch queue s
  | .frameDeparture port => Sys2Proof.Machine.execFrameDeparture port s
  | .testgenFrame gen => Sys2Proof.Machine.execTestgenFrame gen s
  | .widthDownshiftTrigger port => Sys2Proof.Machine.execWidthDownshiftTrigger port s
  | .widthUpshiftTrigger port => Sys2Proof.Machine.execWidthUpshiftTrigger port s
  | .widthProposeTimeout port => Sys2Proof.Machine.execWidthProposeTimeout port s
  | .modulePoll bus present bytes states => Sys2Proof.Machine.execModulePoll bus present bytes states s
  | .modBusStretchTimeout bus => Sys2Proof.Machine.execModBusStretchTimeout bus s
  | .portConfig c => Sys2Proof.Machine.execPortConfig c s
  | .portStatus c => Sys2Proof.Machine.execPortStatus c s
  | .modRead c got => Sys2Proof.Machine.execModRead c got s
  | .modWrite c got => Sys2Proof.Machine.execModWrite c got s
  | .portLoopback c => Sys2Proof.Machine.execPortLoopback c s
  | .testgenSet c => Sys2Proof.Machine.execTestgenSet c s
  | .testgenStatus c => Sys2Proof.Machine.execTestgenStatus c s
  | .graphWrite c => Sys2Proof.Machine.execGraphWrite c s
  | .bindSet c => Sys2Proof.Machine.execBindSet c s
  | .treeWrite c => Sys2Proof.Machine.execTreeWrite c s
  | .treesetWrite c => Sys2Proof.Machine.execTreesetWrite c s
  | .ruleWrite c => Sys2Proof.Machine.execRuleWrite c s
  | .classWrite c => Sys2Proof.Machine.execClassWrite c s
  | .alistWrite c => Sys2Proof.Machine.execAlistWrite c s
  | .spreadSet c => Sys2Proof.Machine.execSpreadSet c s
  | .indirWrite c => Sys2Proof.Machine.execIndirWrite c s
  | .flowcntRead c => Sys2Proof.Machine.execFlowcntRead c s
  | .programList c => Sys2Proof.Machine.execProgramList c s
  | .engineReturn pkt r => Sys2Proof.Machine.execEngineReturn pkt r s
  | .engineBudgetExceeded pkt => Sys2Proof.Machine.execEngineBudgetExceeded pkt s
  | .learnComplete pkt => Sys2Proof.Machine.execLearnComplete pkt s
  | .emDefine c => Sys2Proof.Machine.execEmDefine c s
  | .emUpdate c => Sys2Proof.Machine.execEmUpdate c s
  | .commit c => Sys2Proof.Machine.execCommit c s
  | .commitSwitch => Sys2Proof.Machine.execCommitSwitch s
  | .epochDrainEnd => Sys2Proof.Machine.execEpochDrainEnd s
  | .drainMaxExpiry => Sys2Proof.Machine.execDrainMaxExpiry s
  | .commitDone => Sys2Proof.Machine.execCommitDone s
  | .emLookup c => Sys2Proof.Machine.execEmLookup c s
  | .emAgedRead c => Sys2Proof.Machine.execEmAgedRead c s
  | .sieveDefine c => Sys2Proof.Machine.execSieveDefine c s
  | .sieveUpdate c => Sys2Proof.Machine.execSieveUpdate c s
  | .sieveSearch c => Sys2Proof.Machine.execSieveSearch c s
  | .sieveStep c => Sys2Proof.Machine.execSieveStep c s
  | .epochGet c => Sys2Proof.Machine.execEpochGet c s
  | .sweeperVisit table index => Sys2Proof.Machine.execSweeperVisit table index s
  | .poolLayout c => Sys2Proof.Machine.execPoolLayout c s
  | .quotaSet c => Sys2Proof.Machine.execQuotaSet c s
  | .ownerQuery c => Sys2Proof.Machine.execOwnerQuery c s
  | .forfeit c => Sys2Proof.Machine.execForfeit c s
  | .siltRead c => Sys2Proof.Machine.execSiltRead c s
  | .siltReclaim c => Sys2Proof.Machine.execSiltReclaim c s
  | .siltAuditRefresh => Sys2Proof.Machine.execSiltAuditRefresh s
  | .poolStatus c => Sys2Proof.Machine.execPoolStatus c s
  | .wmSet c => Sys2Proof.Machine.execWmSet c s
  | .wmRead c => Sys2Proof.Machine.execWmRead c s
  | .watermarkRegisterWrite fn a value => Sys2Proof.Machine.execWatermarkRegisterWrite fn a value s
  | .policerWrite c => Sys2Proof.Machine.execPolicerWrite c s
  | .policerRead c => Sys2Proof.Machine.execPolicerRead c s
  | .schedWrite c => Sys2Proof.Machine.execSchedWrite c s
  | .curveWrite c => Sys2Proof.Machine.execCurveWrite c s
  | .portBufSet c => Sys2Proof.Machine.execPortBufSet c s
  | .queueStatus c => Sys2Proof.Machine.execQueueStatus c s
  | .ctxLoad c => Sys2Proof.Machine.execCtxLoad c s
  | .ctxDelete c => Sys2Proof.Machine.execCtxDelete c s
  | .ctxRead c => Sys2Proof.Machine.execCtxRead c s
  | .ctxUpdate c => Sys2Proof.Machine.execCtxUpdate c s
  | .cipherStatus c => Sys2Proof.Machine.execCipherStatus c s
  | .cipherMessageStart stream unit => Sys2Proof.Machine.execCipherMessageStart stream unit s
  | .cipherResult pkt => Sys2Proof.Machine.execCipherResult pkt s
  | .submissionDoorbell fn q value => Sys2Proof.Machine.execSubmissionDoorbell fn q value s
  | .descriptorFetchComplete qp data bad => Sys2Proof.Machine.execDescriptorFetchComplete qp data bad s
  | .txDataReadComplete qp frame data bad => Sys2Proof.Machine.execTxDataReadComplete qp frame data bad s
  | .txReadRetry qp => Sys2Proof.Machine.execTxReadRetry qp s
  | .completionDoorbell fn q value => Sys2Proof.Machine.execCompletionDoorbell fn q value s
  | .arm fn q value => Sys2Proof.Machine.execArm fn q value s
  | .moderationTimeout qp => Sys2Proof.Machine.execModerationTimeout qp s
  | .adminEnable pf value => Sys2Proof.Machine.execAdminEnable pf value s
  | .adminDisable pf value => Sys2Proof.Machine.execAdminDisable pf value s
  | .queueCreate c => Sys2Proof.Machine.execQueueCreate c s
  | .queueStop c => Sys2Proof.Machine.execQueueStop c s
  | .queueStart c => Sys2Proof.Machine.execQueueStart c s
  | .queueDestroy c => Sys2Proof.Machine.execQueueDestroy c s
  | .queueQuery c => Sys2Proof.Machine.execQueueQuery c s
  | .go fn ch value => Sys2Proof.Machine.execGo fn ch value s
  | .channelStart ch => Sys2Proof.Machine.execChannelStart ch s
  | .channelAbort fn ch value => Sys2Proof.Machine.execChannelAbort fn ch value s
  | .pumpTransferComplete ch data => Sys2Proof.Machine.execPumpTransferComplete ch data s
  | .pcqHead fn m value => Sys2Proof.Machine.execPcqHead fn m value s
  | .pumpAssign c => Sys2Proof.Machine.execPumpAssign c s
  | .pcqSet c => Sys2Proof.Machine.execPcqSet c s
  | .pumpRecover c => Sys2Proof.Machine.execPumpRecover c s
  | .pumpStatus c => Sys2Proof.Machine.execPumpStatus c s
  | .timeNowLoRead pf => Sys2Proof.Machine.execTimeNowLoRead pf s
  | .timeConfig c => Sys2Proof.Machine.execTimeConfig c s
  | .timeGet c => Sys2Proof.Machine.execTimeGet c s
  | .timeAdjust c => Sys2Proof.Machine.execTimeAdjust c s
  | .timePortSet c => Sys2Proof.Machine.execTimePortSet c s
  | .ppsInRead c => Sys2Proof.Machine.execPpsInRead c s
  | .synceSet c => Sys2Proof.Machine.execSynceSet c s
  | .ptpSync port f => Sys2Proof.Machine.execPtpSync port f s
  | .followUp port f => Sys2Proof.Machine.execFollowUp port f s
  | .delayReq port f => Sys2Proof.Machine.execDelayReq port f s
  | .delayResp port f => Sys2Proof.Machine.execDelayResp port f s
  | .announce port f => Sys2Proof.Machine.execAnnounce port f s
  | .signaling port f => Sys2Proof.Machine.execSignaling port f s
  | .ptpTransmit port kind => Sys2Proof.Machine.execPtpTransmit port kind s
  | .syncLoss => Sys2Proof.Machine.execSyncLoss s
  | .holdoverExpiry => Sys2Proof.Machine.execHoldoverExpiry s
  | .carrierResume carrier => Sys2Proof.Machine.execCarrierResume carrier s
  | .ppsInEdge => Sys2Proof.Machine.execPpsInEdge s
  | .ppsOutRise => Sys2Proof.Machine.execPpsOutRise s
  | .ppsOutFall => Sys2Proof.Machine.execPpsOutFall s
  | .synceLaneLoss pin => Sys2Proof.Machine.execSynceLaneLoss pin s
  | .synceClockReturn pin => Sys2Proof.Machine.execSynceClockReturn pin s
  | .fhCarrierSet c => Sys2Proof.Machine.execFhCarrierSet c s
  | .carrierRecordEffective carrier => Sys2Proof.Machine.execCarrierRecordEffective carrier s
  | .fhFlowSet c => Sys2Proof.Machine.execFhFlowSet c s
  | .fhFlowStatus c => Sys2Proof.Machine.execFhFlowStatus c s
  | .fhGridQuery c => Sys2Proof.Machine.execFhGridQuery c s
  | .fhWindowClose flow => Sys2Proof.Machine.execFhWindowClose flow s
  | .combSetWrite c => Sys2Proof.Machine.execCombSetWrite c s
  | .combSetDisableDone set => Sys2Proof.Machine.execCombSetDisableDone set s
  | .combCflowWrite c => Sys2Proof.Machine.execCombCflowWrite c s
  | .combWeights c => Sys2Proof.Machine.execCombWeights c s
  | .weightBankLoaded set data => Sys2Proof.Machine.execWeightBankLoaded set data s
  | .combSwitch c => Sys2Proof.Machine.execCombSwitch c s
  | .combBankSwitch set => Sys2Proof.Machine.execCombBankSwitch set s
  | .combStatus c => Sys2Proof.Machine.execCombStatus c s
  | .uplinkSymbolClose set => Sys2Proof.Machine.execUplinkSymbolClose set s
  | .uplinkRecordWrite set => Sys2Proof.Machine.execUplinkRecordWrite set s
  | .downlinkCombine set => Sys2Proof.Machine.execDownlinkCombine set s
  | .dlFrameReady set antenna => Sys2Proof.Machine.execDlFrameReady set antenna s
  | .pkt port f => Sys2Proof.Machine.execPkt port f s
  | .cmd port f => Sys2Proof.Machine.execCmd port f s
  | .rsp port f => Sys2Proof.Machine.execRsp port f s
  | .null port f => Sys2Proof.Machine.execNull port f s
  | .stitchRetryTimeout port => Sys2Proof.Machine.execStitchRetryTimeout port s
  | .stitchSignalLoss port => Sys2Proof.Machine.execStitchSignalLoss port s
  | .hello port f => Sys2Proof.Machine.execHello port f s
  | .cert port f => Sys2Proof.Machine.execCert port f s
  | .proof port f => Sys2Proof.Machine.execProof port f s
  | .admitted port f => Sys2Proof.Machine.execAdmit port f s
  | .leave port f => Sys2Proof.Machine.execLeave port f s
  | .widthPropose port f => Sys2Proof.Machine.execWidthPropose port f s
  | .widthAccept port f => Sys2Proof.Machine.execWidthAccept port f s
  | .widthRefuse port f => Sys2Proof.Machine.execWidthRefuse port f s
  | .widthSwitch port f => Sys2Proof.Machine.execWidthSwitch port f s
  | .rest port f => Sys2Proof.Machine.execRest port f s
  | .restAck port f => Sys2Proof.Machine.execRestAck port f s
  | .wake port => Sys2Proof.Machine.execWake port s
  | .ping port f => Sys2Proof.Machine.execPing port f s
  | .pong port f => Sys2Proof.Machine.execPong port f s
  | .prepare port f => Sys2Proof.Machine.execPrepare port f s
  | .confirm port f => Sys2Proof.Machine.execConfirm port f s
  | .refuse port f => Sys2Proof.Machine.execRefuse port f s
  | .abort port f => Sys2Proof.Machine.execAbort port f s
  | .confirmDeadline => Sys2Proof.Machine.execConfirmDeadline s
  | .skewMeasure => Sys2Proof.Machine.execSkewMeasure s
  | .memberRouteTimeout member => Sys2Proof.Machine.execMemberRouteTimeout member s
  | .restIdle port => Sys2Proof.Machine.execRestIdle port s
  | .restScheduledWake port => Sys2Proof.Machine.execRestScheduledWake port s
  | .wakePatternHeard port => Sys2Proof.Machine.execWakePatternHeard port s
  | .wakePatternTimeout port => Sys2Proof.Machine.execWakePatternTimeout port s
  | .aqConfig c => Sys2Proof.Machine.execAqConfig c s
  | .aqJoin c => Sys2Proof.Machine.execAqJoin c s
  | .aqLeave c => Sys2Proof.Machine.execAqLeave c s
  | .aqStatus c => Sys2Proof.Machine.execAqStatus c s
  | .aqCertRead c => Sys2Proof.Machine.execAqCertRead c s
  | .engineClockGate engine => Sys2Proof.Machine.execEngineClockGate engine s
  | .wellClockGate well => Sys2Proof.Machine.execWellClockGate well s
  | .wellPowerGate well => Sys2Proof.Machine.execWellPowerGate well s
  | .cipherUnitGate stream unit => Sys2Proof.Machine.execCipherUnitGate stream unit s
  | .mgmtCoreGate core => Sys2Proof.Machine.execMgmtCoreGate core s
  | .clayChannelPowerDown ch => Sys2Proof.Machine.execClayChannelPowerDown ch s
  | .combinerGroupGate group => Sys2Proof.Machine.execCombinerGroupGate group s
  | .unitWakeComplete kind index => Sys2Proof.Machine.execUnitWakeComplete kind index s
  | .accountingInterval util => Sys2Proof.Machine.execAccountingInterval util s
  | .pointChangeDone domain => Sys2Proof.Machine.execPointChangeDone domain s
  | .plannedWake carrier uplink => Sys2Proof.Machine.execPlannedWake carrier uplink s
  | .sensorSample readings => Sys2Proof.Machine.execSensorSample readings s
  | .powerSample rails => Sys2Proof.Machine.execPowerSample rails s
  | .thermalTrip sensor => Sys2Proof.Machine.execThermalTrip sensor s
  | .powerPolicy c => Sys2Proof.Machine.execPowerPolicy c s
  | .powerCostSet c => Sys2Proof.Machine.execPowerCostSet c s
  | .powerPlanSet c => Sys2Proof.Machine.execPowerPlanSet c s
  | .powerStatus c => Sys2Proof.Machine.execPowerStatus c s
  | .powerTelemetry c => Sys2Proof.Machine.execPowerTelemetry c s
  | .powerVfRead c => Sys2Proof.Machine.execPowerVfRead c s
  | .patrolScrub memory addr bits => Sys2Proof.Machine.execPatrolScrub memory addr bits s
  | .parityError addr => Sys2Proof.Machine.execParityError addr s
  | .firmwareStateLost => Sys2Proof.Machine.execFirmwareStateLost s
  | .supplyFault rail => Sys2Proof.Machine.execSupplyFault rail s
  | .faultStatusClear fn value => Sys2Proof.Machine.execFaultStatusClear fn value s
  | .evtEnableWrite fn n value => Sys2Proof.Machine.execEvtEnableWrite fn n value s
  | .counterPageRead fn offset => Sys2Proof.Machine.execCounterPageRead fn offset s
  | .countersRead c => Sys2Proof.Machine.execCountersRead c s
  | .cntGrant c => Sys2Proof.Machine.execCntGrant c s
  | .monConfig c => Sys2Proof.Machine.execMonConfig c s
  | .monRead c => Sys2Proof.Machine.execMonRead c s
  | .cntCtxRead c => Sys2Proof.Machine.execCntCtxRead c s
  | .lineRefclkLoss => Sys2Proof.Machine.execLineRefclkLoss s
  | .hostRefclkLoss link => Sys2Proof.Machine.execHostRefclkLoss link s
  | .seepClockLoss => Sys2Proof.Machine.execSeepClockLoss s
  | .vfEnableSet pf numVfs => Sys2Proof.Machine.execVfEnableSet pf numVfs s
  | .atsEnableClear fn => Sys2Proof.Machine.execAtsEnableClear fn s
  | .registerRead fn a => Sys2Proof.Machine.execRegisterRead fn a s
  | .modBusArbitrationLost bus => Sys2Proof.Machine.execModBusArbitrationLost bus s
  | .modBusIdle bus got => Sys2Proof.Machine.execModBusIdle bus got s
  | .lpiWake port => Sys2Proof.Machine.execLpiWake port s
  | .stitchCtrlBad port f => Sys2Proof.Machine.execStitchCtrlBad port f s
  | .engineFault pkt check => Sys2Proof.Machine.execEngineFault pkt check s

end Sys2Proof.Machine
end

