-- ==== Sys2Proof/Machine/Tick.lean ====
section
/-! DEFINITION. The passage of one nanosecond, which is what a step does when no command waits (DESIGN CHOICE, unsafe: log 11). -/

namespace Sys2Proof.Machine

open Sys2Proof

/-- One nanosecond of nominal time: device time runs at the frequency correction (R338), in steps of 2^-16 ns; with
the clocks stopped in DORMANT, in a SHUT-IN entered from it, or in a boot, the wellhead counts seep ticks of 30,517.578125 ns instead (R77, R342). -/
def tick (s : State) : State :=
  if s.wh.clocksStopped then
    let acc := s.wh.tickAcc + 1000000
    if 30517578125 ≤ acc then { s with wh := { s.wh with tickAcc := acc - 30517578125, ticks := s.wh.ticks + 1 } }
    else { s with wh := { s.wh with tickAcc := acc } }
  else if s.mode = .dry then s
  else
    let x := s.time.sub + (65536 * (1000000000000 + s.time.freqPpt)).toNat
    { s with time := { s.time with t := s.time.t + x / 1000000000000, sub := x % 1000000000000 } }

end Sys2Proof.Machine
end

