-- ==== Sys2Proof/Machine/Rows.lean ====
section
/-! DEFINITION. Which rows are command packets: the shared checks' view of each and its packet. -/

namespace Sys2Proof.Machine

open Sys2Proof

/-- The packet of a row that is a command packet (R38), with what the shared checks need to know of its opcode; none for every
other row. -/
def rowOf : Instr → Option (OpInfo × Cmd)
  | .powerOn _ => none
  | .sysRstN _ => none
  | .powerLoss => none
  | .watchdogReset _ => none
  | .bootSlotVerified _ _ => none
  | .clayTrainingDone _ => none
  | .dryLeft _ => none
  | .bootRestart => none
  | .retryFlash _ => none
  | .loadRecovery _ => none
  | .recoveryWindowWrite _ _ _ => none
  | .entropyReady => none
  | .entropyFail => none
  | .identify c => some (infoIdentify, c)
  | .capability c => some (infoCapability, c)
  | .modeGet c => some (infoModeGet, c)
  | .modeSet c => some (infoModeSet, c)
  | .modeSetAtTime => none
  | .gateDecided => none
  | .modeTransitionComplete => none
  | .dormantClocksStop => none
  | .wakeDone => none
  | .wakeInN => none
  | .whWake _ _ => none
  | .wakeTimer => none
  | .portSignalDetect _ => none
  | .resetUnit c _ => some (infoResetUnit, c)
  | .echo c => some (infoEcho, c)
  | .statusOf c => some (infoStatusOf, c)
  | .forward c => some (forwardInfo, c)
  | .channelBind c => some (infoChannelBind, c)
  | .forwardedReply _ _ => none
  | .commandTimeout _ _ => none
  | .mboxDoorbell _ _ _ => none
  | .mboxAck _ _ _ => none
  | .mboxTimeout _ => none
  | .imageLoad c _ => some (infoImageLoad, c)
  | .gateCheck c => some (infoGateCheck, c)
  | .fwWrite c _ => some (infoFwWrite, c)
  | .fwActivate c => some (infoFwActivate, c)
  | .ownerEnrol c => some (infoOwnerEnrol, c)
  | .random c => some (infoRandom, c)
  | .certRead c => some (infoCertRead, c)
  | .getVersion _ => none
  | .getCapabilities _ => none
  | .negotiateAlgorithms _ => none
  | .getDigests _ => none
  | .getCertificate _ => none
  | .challenge _ => none
  | .getMeasurements _ => none
  | .keyExchange _ => none
  | .finish _ => none
  | .heartbeat _ => none
  | .keyUpdate _ => none
  | .endSession _ => none
  | .chunkSend _ => none
  | .chunkGet _ => none
  | .perst _ => none
  | .hotReset _ => none
  | .linkTrained _ _ _ _ => none
  | .surpriseDown _ => none
  | .pcieUncorrectableError _ _ => none
  | .contRelease _ _ => none
  | .flr _ => none
  | .flrComplete _ => none
  | .vfEnableClear _ => none
  | .busMasterEnable _ _ => none
  | .msixUnmask _ _ _ => none
  | .readCompletion _ _ _ _ => none
  | .readTimeout _ => none
  | .translationCompletion _ _ _ => none
  | .invalidateRequest _ _ _ _ => none
  | .invalidateCompletion _ _ => none
  | .peerWindowWrite _ _ _ _ _ => none
  | .peerWindowRead _ _ _ _ => none
  | .registerWrite _ _ _ => none
  | .funcCreate c => some (infoFuncCreate, c)
  | .funcDestroy c => some (infoFuncDestroy, c)
  | .funcQuery c => some (infoFuncQuery, c)
  | .spoofSet c => some (infoSpoofSet, c)
  | .lineFrameReceive _ _ => none
  | .pauseFrameReceive _ _ => none
  | .pauseExpiry _ _ => none
  | .pauseWatchdog _ _ => none
  | .pauseXoffRepeat _ _ => none
  | .lpiEntry _ => none
  | .portLinkChange _ _ _ => none
  | .egressDequeue _ => none
  | .timedLaunch _ => none
  | .frameDeparture _ => none
  | .testgenFrame _ => none
  | .widthDownshiftTrigger _ => none
  | .widthUpshiftTrigger _ => none
  | .widthProposeTimeout _ => none
  | .modulePoll _ _ _ _ => none
  | .modBusStretchTimeout _ => none
  | .portConfig c => some (infoPortConfig, c)
  | .portStatus c => some (infoPortStatus, c)
  | .modRead c _ => some (infoModRead, c)
  | .modWrite c _ => some (infoModWrite, c)
  | .portLoopback c => some (infoPortLoopback, c)
  | .testgenSet c => some (infoTestgenSet, c)
  | .testgenStatus c => some (infoTestgenStatus, c)
  | .graphWrite c => some (infoGraphWrite, c)
  | .bindSet c => some (infoBindSet, c)
  | .treeWrite c => some (infoTreeWrite, c)
  | .treesetWrite c => some (infoTreesetWrite, c)
  | .ruleWrite c => some (infoRuleWrite, c)
  | .classWrite c => some (infoClassWrite, c)
  | .alistWrite c => some (infoAlistWrite, c)
  | .spreadSet c => some (infoSpreadSet, c)
  | .indirWrite c => some (infoIndirWrite, c)
  | .flowcntRead c => some (infoFlowcntRead, c)
  | .programList c => some (infoProgramList, c)
  | .engineReturn _ _ => none
  | .engineBudgetExceeded _ => none
  | .learnComplete _ => none
  | .emDefine c => some (infoEmDefine, c)
  | .emUpdate c => some (infoEmUpdate, c)
  | .commit c => some (infoCommit, c)
  | .commitSwitch => none
  | .epochDrainEnd => none
  | .drainMaxExpiry => none
  | .commitDone => none
  | .emLookup c => some (infoEmLookup, c)
  | .emAgedRead c => some (infoEmAgedRead, c)
  | .sieveDefine c => some (infoSieveDefine, c)
  | .sieveUpdate c => some (infoSieveUpdate, c)
  | .sieveSearch c => some (infoSieveSearch, c)
  | .sieveStep c => some (infoSieveStep, c)
  | .epochGet c => some (infoEpochGet, c)
  | .sweeperVisit _ _ => none
  | .poolLayout c => some (infoPoolLayout, c)
  | .quotaSet c => some (infoQuotaSet, c)
  | .ownerQuery c => some (infoOwnerQuery, c)
  | .forfeit c => some (infoForfeit, c)
  | .siltRead c => some (infoSiltRead, c)
  | .siltReclaim c => some (infoSiltReclaim, c)
  | .siltAuditRefresh => none
  | .poolStatus c => some (infoPoolStatus, c)
  | .wmSet c => some (infoWmSet, c)
  | .wmRead c => some (infoWmRead, c)
  | .watermarkRegisterWrite _ _ _ => none
  | .policerWrite c => some (infoPolicerWrite, c)
  | .policerRead c => some (infoPolicerRead, c)
  | .schedWrite c => some (infoSchedWrite, c)
  | .curveWrite c => some (infoCurveWrite, c)
  | .portBufSet c => some (infoPortBufSet, c)
  | .queueStatus c => some (infoQueueStatus, c)
  | .ctxLoad c => some (infoCtxLoad, c)
  | .ctxDelete c => some (infoCtxDelete, c)
  | .ctxRead c => some (infoCtxRead, c)
  | .ctxUpdate c => some (infoCtxUpdate, c)
  | .cipherStatus c => some (infoCipherStatus, c)
  | .cipherMessageStart _ _ => none
  | .cipherResult _ => none
  | .submissionDoorbell _ _ _ => none
  | .descriptorFetchComplete _ _ _ => none
  | .txDataReadComplete _ _ _ _ => none
  | .txReadRetry _ => none
  | .completionDoorbell _ _ _ => none
  | .arm _ _ _ => none
  | .moderationTimeout _ => none
  | .adminEnable _ _ => none
  | .adminDisable _ _ => none
  | .queueCreate c => some (infoQueueCreate, c)
  | .queueStop c => some (infoQueueStop, c)
  | .queueStart c => some (infoQueueStart, c)
  | .queueDestroy c => some (infoQueueDestroy, c)
  | .queueQuery c => some (infoQueueQuery, c)
  | .go _ _ _ => none
  | .channelStart _ => none
  | .channelAbort _ _ _ => none
  | .pumpTransferComplete _ _ => none
  | .pcqHead _ _ _ => none
  | .pumpAssign c => some (infoPumpAssign, c)
  | .pcqSet c => some (infoPcqSet, c)
  | .pumpRecover c => some (infoPumpRecover, c)
  | .pumpStatus c => some (infoPumpStatus, c)
  | .timeNowLoRead _ => none
  | .timeConfig c => some (infoTimeConfig, c)
  | .timeGet c => some (infoTimeGet, c)
  | .timeAdjust c => some (infoTimeAdjust, c)
  | .timePortSet c => some (infoTimePortSet, c)
  | .ppsInRead c => some (infoPpsInRead, c)
  | .synceSet c => some (infoSynceSet, c)
  | .ptpSync _ _ => none
  | .followUp _ _ => none
  | .delayReq _ _ => none
  | .delayResp _ _ => none
  | .announce _ _ => none
  | .signaling _ _ => none
  | .ptpTransmit _ _ => none
  | .syncLoss => none
  | .holdoverExpiry => none
  | .carrierResume _ => none
  | .ppsInEdge => none
  | .ppsOutRise => none
  | .ppsOutFall => none
  | .synceLaneLoss _ => none
  | .synceClockReturn _ => none
  | .fhCarrierSet c => some (infoFhCarrierSet, c)
  | .carrierRecordEffective _ => none
  | .fhFlowSet c => some (infoFhFlowSet, c)
  | .fhFlowStatus c => some (infoFhFlowStatus, c)
  | .fhGridQuery c => some (infoFhGridQuery, c)
  | .fhWindowClose _ => none
  | .combSetWrite c => some (infoCombSetWrite, c)
  | .combSetDisableDone _ => none
  | .combCflowWrite c => some (infoCombCflowWrite, c)
  | .combWeights c => some (infoCombWeights, c)
  | .weightBankLoaded _ _ => none
  | .combSwitch c => some (infoCombSwitch, c)
  | .combBankSwitch _ => none
  | .combStatus c => some (infoCombStatus, c)
  | .uplinkSymbolClose _ => none
  | .uplinkRecordWrite _ => none
  | .downlinkCombine _ => none
  | .dlFrameReady _ _ => none
  | .pkt _ _ => none
  | .cmd _ _ => none
  | .rsp _ _ => none
  | .null _ _ => none
  | .stitchRetryTimeout _ => none
  | .stitchSignalLoss _ => none
  | .hello _ _ => none
  | .cert _ _ => none
  | .proof _ _ => none
  | .admitted _ _ => none
  | .leave _ _ => none
  | .widthPropose _ _ => none
  | .widthAccept _ _ => none
  | .widthRefuse _ _ => none
  | .widthSwitch _ _ => none
  | .rest _ _ => none
  | .restAck _ _ => none
  | .wake _ => none
  | .ping _ _ => none
  | .pong _ _ => none
  | .prepare _ _ => none
  | .confirm _ _ => none
  | .refuse _ _ => none
  | .abort _ _ => none
  | .confirmDeadline => none
  | .skewMeasure => none
  | .memberRouteTimeout _ => none
  | .restIdle _ => none
  | .restScheduledWake _ => none
  | .wakePatternHeard _ => none
  | .wakePatternTimeout _ => none
  | .aqConfig c => some (infoAqConfig, c)
  | .aqJoin c => some (infoAqJoin, c)
  | .aqLeave c => some (infoAqLeave, c)
  | .aqStatus c => some (infoAqStatus, c)
  | .aqCertRead c => some (infoAqCertRead, c)
  | .engineClockGate _ => none
  | .wellClockGate _ => none
  | .wellPowerGate _ => none
  | .cipherUnitGate _ _ => none
  | .mgmtCoreGate _ => none
  | .clayChannelPowerDown _ => none
  | .combinerGroupGate _ => none
  | .unitWakeComplete _ _ => none
  | .accountingInterval _ => none
  | .pointChangeDone _ => none
  | .plannedWake _ _ => none
  | .sensorSample _ => none
  | .powerSample _ => none
  | .thermalTrip _ => none
  | .powerPolicy c => some (infoPowerPolicy, c)
  | .powerCostSet c => some (infoPowerCostSet, c)
  | .powerPlanSet c => some (infoPowerPlanSet, c)
  | .powerStatus c => some (infoPowerStatus, c)
  | .powerTelemetry c => some (infoPowerTelemetry, c)
  | .powerVfRead c => some (infoPowerVfRead, c)
  | .patrolScrub _ _ _ => none
  | .parityError _ => none
  | .firmwareStateLost => none
  | .supplyFault _ => none
  | .faultStatusClear _ _ => none
  | .evtEnableWrite _ _ _ => none
  | .counterPageRead _ _ => none
  | .countersRead c => some (infoCountersRead, c)
  | .cntGrant c => some (infoCntGrant, c)
  | .monConfig c => some (infoMonConfig, c)
  | .monRead c => some (infoMonRead, c)
  | .cntCtxRead c => some (infoCntCtxRead, c)
  | .lineRefclkLoss => none
  | .hostRefclkLoss _ => none
  | .seepClockLoss => none
  | .vfEnableSet _ _ => none
  | .atsEnableClear _ => none
  | .registerRead _ _ => none
  | .modBusArbitrationLost _ => none
  | .modBusIdle _ _ => none
  | .lpiWake _ => none
  | .stitchCtrlBad _ _ => none
  | .engineFault _ _ => none

end Sys2Proof.Machine
end

