-- ==== Sys2Proof/WellFormed.lean ====
section
/-! DEFINITION. Which operands a command may carry: packets whose length fields tell the truth, numbers within the
ranges the spec gives ports, functions, channels, units and queues. A meaning answers on ill-formed operands too;
claims that need well-formedness say so. -/

namespace Sys2Proof

/-- A channel the device has (R35, R69, R147). -/
def Chan.wf : Chan → Bool
  | .admin f => decide (f < 1026)
  | .mailbox c => decide (c < 4096)
  | .sideband => true
  | .link p => decide (p < 16)
  | .fwd e => decide (e < 256)

/-- A command packet whose payload is as long as it says, and whose path has at most seven hops of 16 bits (R38). -/
def Cmd.wf (c : Cmd) : Bool :=
  c.chan.wf && (c.bad || c.payload.length == c.payloadLen) && decide (c.pathLen < 256) && decide (c.hops.length ≤ 7) &&
  c.hops.all (fun h => decide (h < 65536)) && decide (c.payloadLen < 2 ^ 32)

/-- A frame on a line port has at least one byte and fits the largest frame plus its tags. -/
def RxFrame.wf (f : RxFrame) : Bool := decide (0 < f.data.length) && decide (f.data.length ≤ 65536)

/-- A frame on a stitch port is at least a header and a CRC long (R384). -/
def StitchFrame.wf (f : StitchFrame) : Bool := decide (12 ≤ f.data.length) && decide (f.data.length ≤ 9756)

/-- A register access of 1 to 8 bytes. -/
def RegAccess.wf (a : RegAccess) : Bool := (a.bar == 0 || a.bar == 2 || a.bar == 4 || a.bar == 6 || a.bar == 255) && decide (0 < a.size) && decide (a.size ≤ 8)

/-- The operands of a command lie in their ranges. -/
def Instr.wf : Instr → Bool
  | .powerOn _ => true
  | .sysRstN _ => true
  | .powerLoss => true
  | .watchdogReset _ => true
  | .bootSlotVerified _ _ => true
  | .clayTrainingDone _ => true
  | .dryLeft _ => true
  | .bootRestart => true
  | .retryFlash fn => decide (fn < 1026)
  | .loadRecovery fn => decide (fn < 1026)
  | .recoveryWindowWrite fn _ _ => decide (fn < 1026)
  | .entropyReady => true
  | .entropyFail => true
  | .identify c => c.wf
  | .capability c => c.wf
  | .modeGet c => c.wf
  | .modeSet c => c.wf
  | .modeSetAtTime => true
  | .gateDecided => true
  | .modeTransitionComplete => true
  | .dormantClocksStop => true
  | .wakeDone => true
  | .wakeInN => true
  | .whWake fn _ => decide (fn < 1026)
  | .wakeTimer => true
  | .portSignalDetect port => decide (port < 16)
  | .resetUnit c _ => c.wf
  | .echo c => c.wf
  | .statusOf c => c.wf
  | .forward c => c.wf
  | .channelBind c => c.wf
  | .forwardedReply entry _ => decide (entry < 256)
  | .commandTimeout ch _ => ch.wf
  | .mboxDoorbell fn box _ => decide (fn < 1026) && decide (box < 2072)
  | .mboxAck fn box _ => decide (fn < 1026) && decide (box < 2072)
  | .mboxTimeout box => decide (box < 2072)
  | .imageLoad c _ => c.wf
  | .gateCheck c => c.wf
  | .fwWrite c _ => c.wf
  | .fwActivate c => c.wf
  | .ownerEnrol c => c.wf
  | .random c => c.wf
  | .certRead c => c.wf
  | .getVersion _ => true
  | .getCapabilities _ => true
  | .negotiateAlgorithms _ => true
  | .getDigests _ => true
  | .getCertificate _ => true
  | .challenge _ => true
  | .getMeasurements _ => true
  | .keyExchange _ => true
  | .finish _ => true
  | .heartbeat _ => true
  | .keyUpdate _ => true
  | .endSession _ => true
  | .chunkSend _ => true
  | .chunkGet _ => true
  | .perst link => decide (link < 2)
  | .hotReset link => decide (link < 2)
  | .linkTrained link _ _ _ => decide (link < 2)
  | .surpriseDown link => decide (link < 2)
  | .pcieUncorrectableError link _ => decide (link < 2)
  | .contRelease fn key => decide (fn < 1026) && decide (key < 256)
  | .flr fn => decide (fn < 1026)
  | .flrComplete fn => decide (fn < 1026)
  | .vfEnableClear pf => decide (pf < 2)
  | .busMasterEnable fn _ => decide (fn < 1026)
  | .msixUnmask fn entry which => decide (fn < 1026) && decide (entry < 4096) && decide (which < 3)
  | .readCompletion tag _ _ bad => decide (tag < 4096) && decide (bad < 3)
  | .readTimeout tag => decide (tag < 4096)
  | .translationCompletion _ _ _ => true
  | .invalidateRequest itag fn _ _ => decide (itag < 32) && decide (fn < 1026)
  | .invalidateCompletion itag fn => decide (itag < 32) && decide (fn < 1026)
  | .peerWindowWrite pf _ _ _ _ => decide (pf < 2)
  | .peerWindowRead pf _ _ _ => decide (pf < 2)
  | .registerWrite fn a _ => decide (fn < 1026) && a.wf
  | .funcCreate c => c.wf
  | .funcDestroy c => c.wf
  | .funcQuery c => c.wf
  | .spoofSet c => c.wf
  | .lineFrameReceive port f => decide (port < 16) && f.wf
  | .pauseFrameReceive port _ => decide (port < 16)
  | .pauseExpiry port prio => decide (port < 16) && decide (prio < 8)
  | .pauseWatchdog port prio => decide (port < 16) && decide (prio < 8)
  | .pauseXoffRepeat port prio => decide (port < 16) && decide (prio < 8)
  | .lpiEntry port => decide (port < 16)
  | .portLinkChange port _ _ => decide (port < 16)
  | .egressDequeue root => decide (root < 17)
  | .timedLaunch queue => decide (queue < 4096)
  | .frameDeparture port => decide (port < 16)
  | .testgenFrame gen => decide (gen < 4)
  | .widthDownshiftTrigger port => decide (port < 16)
  | .widthUpshiftTrigger port => decide (port < 16)
  | .widthProposeTimeout port => decide (port < 16)
  | .modulePoll bus _ _ _ => decide (bus < 4)
  | .modBusStretchTimeout bus => decide (bus < 4)
  | .portConfig c => c.wf
  | .portStatus c => c.wf
  | .modRead c _ => c.wf
  | .modWrite c _ => c.wf
  | .portLoopback c => c.wf
  | .testgenSet c => c.wf
  | .testgenStatus c => c.wf
  | .graphWrite c => c.wf
  | .bindSet c => c.wf
  | .treeWrite c => c.wf
  | .treesetWrite c => c.wf
  | .ruleWrite c => c.wf
  | .classWrite c => c.wf
  | .alistWrite c => c.wf
  | .spreadSet c => c.wf
  | .indirWrite c => c.wf
  | .flowcntRead c => c.wf
  | .programList c => c.wf
  | .engineReturn _ _ => true
  | .engineBudgetExceeded _ => true
  | .learnComplete _ => true
  | .emDefine c => c.wf
  | .emUpdate c => c.wf
  | .commit c => c.wf
  | .commitSwitch => true
  | .epochDrainEnd => true
  | .drainMaxExpiry => true
  | .commitDone => true
  | .emLookup c => c.wf
  | .emAgedRead c => c.wf
  | .sieveDefine c => c.wf
  | .sieveUpdate c => c.wf
  | .sieveSearch c => c.wf
  | .sieveStep c => c.wf
  | .epochGet c => c.wf
  | .sweeperVisit table _ => decide (table < 64)
  | .poolLayout c => c.wf
  | .quotaSet c => c.wf
  | .ownerQuery c => c.wf
  | .forfeit c => c.wf
  | .siltRead c => c.wf
  | .siltReclaim c => c.wf
  | .siltAuditRefresh => true
  | .poolStatus c => c.wf
  | .wmSet c => c.wf
  | .wmRead c => c.wf
  | .watermarkRegisterWrite fn a _ => decide (fn < 1026) && a.wf
  | .policerWrite c => c.wf
  | .policerRead c => c.wf
  | .schedWrite c => c.wf
  | .curveWrite c => c.wf
  | .portBufSet c => c.wf
  | .queueStatus c => c.wf
  | .ctxLoad c => c.wf
  | .ctxDelete c => c.wf
  | .ctxRead c => c.wf
  | .ctxUpdate c => c.wf
  | .cipherStatus c => c.wf
  | .cipherMessageStart stream unit => decide (unit < if stream then 4 else 12)
  | .cipherResult _ => true
  | .submissionDoorbell fn q _ => decide (fn < 1026) && decide (q < 16384)
  | .descriptorFetchComplete qp _ _ => decide (qp < 16384)
  | .txDataReadComplete qp frame _ _ => decide (qp < 16384) && decide (frame < 65536)
  | .txReadRetry qp => decide (qp < 16384)
  | .completionDoorbell fn q _ => decide (fn < 1026) && decide (q < 16384)
  | .arm fn q _ => decide (fn < 1026) && decide (q < 16384)
  | .moderationTimeout qp => decide (qp < 16384)
  | .adminEnable pf _ => decide (pf < 2)
  | .adminDisable pf _ => decide (pf < 2)
  | .queueCreate c => c.wf
  | .queueStop c => c.wf
  | .queueStart c => c.wf
  | .queueDestroy c => c.wf
  | .queueQuery c => c.wf
  | .go fn ch _ => decide (fn < 1026) && decide (ch < 256)
  | .channelStart ch => decide (ch < 256)
  | .channelAbort fn ch _ => decide (fn < 1026) && decide (ch < 256)
  | .pumpTransferComplete ch _ => decide (ch < 256)
  | .pcqHead fn m _ => decide (fn < 1026) && decide (m < 32)
  | .pumpAssign c => c.wf
  | .pcqSet c => c.wf
  | .pumpRecover c => c.wf
  | .pumpStatus c => c.wf
  | .timeNowLoRead pf => decide (pf < 2)
  | .timeConfig c => c.wf
  | .timeGet c => c.wf
  | .timeAdjust c => c.wf
  | .timePortSet c => c.wf
  | .ppsInRead c => c.wf
  | .synceSet c => c.wf
  | .ptpSync port f => decide (port < 16) && f.wf
  | .followUp port f => decide (port < 16) && f.wf
  | .delayReq port f => decide (port < 16) && f.wf
  | .delayResp port f => decide (port < 16) && f.wf
  | .announce port f => decide (port < 16) && f.wf
  | .signaling port f => decide (port < 16) && f.wf
  | .ptpTransmit port kind => decide (port < 16) && decide (kind < 16)
  | .syncLoss => true
  | .holdoverExpiry => true
  | .carrierResume carrier => decide (carrier < 32)
  | .ppsInEdge => true
  | .ppsOutRise => true
  | .ppsOutFall => true
  | .synceLaneLoss pin => decide (pin < 2)
  | .synceClockReturn pin => decide (pin < 2)
  | .fhCarrierSet c => c.wf
  | .carrierRecordEffective carrier => decide (carrier < 32)
  | .fhFlowSet c => c.wf
  | .fhFlowStatus c => c.wf
  | .fhGridQuery c => c.wf
  | .fhWindowClose flow => decide (flow < 4096)
  | .combSetWrite c => c.wf
  | .combSetDisableDone set => decide (set < 32)
  | .combCflowWrite c => c.wf
  | .combWeights c => c.wf
  | .weightBankLoaded set _ => decide (set < 32)
  | .combSwitch c => c.wf
  | .combBankSwitch set => decide (set < 32)
  | .combStatus c => c.wf
  | .uplinkSymbolClose set => decide (set < 32)
  | .uplinkRecordWrite set => decide (set < 32)
  | .downlinkCombine set => decide (set < 32)
  | .dlFrameReady set antenna => decide (set < 32) && decide (antenna < 1024)
  | .pkt port f => decide (port < 16) && f.wf
  | .cmd port f => decide (port < 16) && f.wf
  | .rsp port f => decide (port < 16) && f.wf
  | .null port f => decide (port < 16) && f.wf
  | .stitchRetryTimeout port => decide (port < 16)
  | .stitchSignalLoss port => decide (port < 16)
  | .hello port f => decide (port < 16) && f.wf
  | .cert port f => decide (port < 16) && f.wf
  | .proof port f => decide (port < 16) && f.wf
  | .admitted port f => decide (port < 16) && f.wf
  | .leave port f => decide (port < 16) && f.wf
  | .widthPropose port f => decide (port < 16) && f.wf
  | .widthAccept port f => decide (port < 16) && f.wf
  | .widthRefuse port f => decide (port < 16) && f.wf
  | .widthSwitch port f => decide (port < 16) && f.wf
  | .rest port f => decide (port < 16) && f.wf
  | .restAck port f => decide (port < 16) && f.wf
  | .wake port => decide (port < 16)
  | .ping port f => decide (port < 16) && f.wf
  | .pong port f => decide (port < 16) && f.wf
  | .prepare port f => decide (port < 16) && f.wf
  | .confirm port f => decide (port < 16) && f.wf
  | .refuse port f => decide (port < 16) && f.wf
  | .abort port f => decide (port < 16) && f.wf
  | .confirmDeadline => true
  | .skewMeasure => true
  | .memberRouteTimeout member => decide (member < 64)
  | .restIdle port => decide (port < 16)
  | .restScheduledWake port => decide (port < 16)
  | .wakePatternHeard port => decide (port < 16)
  | .wakePatternTimeout port => decide (port < 16)
  | .aqConfig c => c.wf
  | .aqJoin c => c.wf
  | .aqLeave c => c.wf
  | .aqStatus c => c.wf
  | .aqCertRead c => c.wf
  | .engineClockGate engine => decide (engine < 96)
  | .wellClockGate well => decide (well < 12)
  | .wellPowerGate well => decide (well < 12)
  | .cipherUnitGate stream unit => decide (unit < if stream then 4 else 12)
  | .mgmtCoreGate core => decide (core < 4)
  | .clayChannelPowerDown ch => decide (ch < 256)
  | .combinerGroupGate group => decide (group < 16)
  | .unitWakeComplete kind _ => decide (kind < 16)
  | .accountingInterval _ => true
  | .pointChangeDone domain => decide (domain < 14)
  | .plannedWake carrier _ => decide (carrier < 32)
  | .sensorSample _ => true
  | .powerSample _ => true
  | .thermalTrip sensor => decide (sensor < 24)
  | .powerPolicy c => c.wf
  | .powerCostSet c => c.wf
  | .powerPlanSet c => c.wf
  | .powerStatus c => c.wf
  | .powerTelemetry c => c.wf
  | .powerVfRead c => c.wf
  | .patrolScrub memory _ _ => decide (memory < 10)
  | .parityError _ => true
  | .firmwareStateLost => true
  | .supplyFault rail => decide (rail < 8)
  | .faultStatusClear fn _ => decide (fn < 1026)
  | .evtEnableWrite fn n _ => decide (fn < 1026) && decide (n < 48)
  | .counterPageRead fn _ => decide (fn < 1026)
  | .countersRead c => c.wf
  | .cntGrant c => c.wf
  | .monConfig c => c.wf
  | .monRead c => c.wf
  | .cntCtxRead c => c.wf
  | .lineRefclkLoss => true
  | .hostRefclkLoss link => decide (link < 2)
  | .seepClockLoss => true
  | .vfEnableSet pf _ => decide (pf < 2)
  | .atsEnableClear fn => decide (fn < 1026)
  | .registerRead fn a => decide (fn < 1026) && a.wf
  | .modBusArbitrationLost bus => decide (bus < 4)
  | .modBusIdle bus _ => decide (bus < 4)
  | .lpiWake port => decide (port < 16)
  | .stitchCtrlBad port f => decide (port < 16) && f.wf
  | .engineFault _ _ => true

end Sys2Proof
end

