-- ==== Sys2Proof/Safety.lean ====
section
/-! DEFINITION. What claims are stated in: a command packet that its channel lets through (R35 to R46), the state in which
its own effect starts, how it answers, the units a reply never touches, and the invariants that every step keeps. -/

namespace Sys2Proof.Machine

open Sys2Proof

/-! ## A command packet that passes every check -/

/-- The state in which an accepted command starts: its SEQ is H, it is recorded as running, its unit has counted it, and its
channel has been told (R36, R46, R58, R67, R313). -/
def taken (op : OpInfo) (c : Cmd) (s : State) : State :=
  reportAccepted c.chan c.seq (accept (refAt op c s) c s)

/-- A command packet reaches the device on a channel of its own: the device reads the channel, nothing runs on it, and the checks 1
and 2 of R45 pass. -/
structure Arrives (op : OpInfo) (c : Cmd) (s : State) : Prop where
  /-- The channel is a channel of its own, not the command inside a FORWARD. -/
  own : ∀ e, c.chan ≠ .fwd e
  /-- The device reads the channel (R19, R35, R435). -/
  reads : readable s c.chan = true
  /-- Nothing runs on the channel. -/
  idle : (chanSt s c.chan).running = []
  /-- The CRC is good (R39). -/
  crc : cmdGood op.code c = true
  /-- The SEQ is new (R46). -/
  fresh : window (chanSt s c.chan) c.seq = none
  /-- A buffer for its payload is free, when it needs one (R254). -/
  room : staged c (taken op c s) = true

/-- The forwarding units a command passes inside the device have the time and the entries for it (R54, R55). -/
def Reaches (c : Cmd) (s : State) : Prop :=
  timeLeft (movesOf s c) (timeoutOf c * 1000) ≠ none ∧ (movesOf s c = 0 ∨ (s.fwd.filter fun x => !x.timedOut).length + movesOf s c ≤ 256)

/-- A command packet runs its own effect at a unit `t` of this device: checks 1 to 8 of R45 pass, and it is not one that a gateway
carries to the members of a group (R17, R395). -/
structure Ready (op : OpInfo) (t : Target) (c : Cmd) (s : State) : Prop where
  arrives : Arrives op c s
  reaches : Reaches c s
  /-- The path leads to the unit (R52, R53). -/
  target : targetOf s c = t
  /-- The unit is one of this device, or an aquifer it is the gateway of. -/
  unit : t ≠ .badPath ∧ ∀ m r, t ≠ .member m r
  /-- It is not carried to every member of a group. -/
  alone : (t.isAquifer && (groupClass op.code && op.code != 0x0803 || asksModes op.code)) = false
  /-- Steps 4 to 8 of R45 pass. -/
  passes : checks op t c (taken op c s) = none

/-- A command answers: the reply goes out, and what follows every command is done. One that came over a stitch link with more than 4,096 bytes of
output is not executed, and answers BAD_LENGTH (R387). -/
def answered (op : OpInfo) (c : Cmd) (s : State) (a : Answer) (u : State) : Host.Outcome State Fault Refusal :=
  if tooMuchBack c.chan a then .next (settle (reply (refAt op c s) (err stBadLength 0) (taken op c s)))
  else .next (settle (reply (refAt op c s) a u))

/-- A command runs on, and will answer later. -/
def runsOn (op : OpInfo) (c : Cmd) (s u : State) : Host.Outcome State Fault Refusal :=
  .next (settle (markStage (refAt op c s) 1 u))

/-- A command that a gateway has carried to its members ends (R17, R395): it answers, or waits for theirs. -/
def gathered (r : CmdRef) : State × Option Answer → State
  | (v, some a) => reply r a v
  | (v, none) => markStage r 1 v

/-- A table write opcode (R216, R217): BUSY under a COMMIT; else all of its records are written and the answer is OK, or none is and the
answer is BAD_LENGTH with the first refused record. -/
def WritesTable (row : Cmd → Instr) (op : OpInfo) (w : Writer) (size : Cmd → Nat) (r0 : Nat → Nat) : Prop :=
  ∀ (t : Target) (c : Cmd) (s : State), Ready op t c s → let u := taken op c s
    (tablesLocked u = true → exec (row c) s = answered op c s (err stBusy 0) u) ∧
    (tablesLocked u = false →
      (∀ v, w (arg c 0 2) (arg c 4 4) (writeRecs (size c) c) u = .ok v → exec (row c) s = answered op c s (ok (r0 (arg c 8 4)) 0) v) ∧
      (∀ i, w (arg c 0 2) (arg c 4 4) (writeRecs (size c) c) u = .error i → exec (row c) s = answered op c s (err stBadLength i) u))

/-! ## What a reply and the end of a command leave alone -/

/-- Nothing is due that a command's end carries out: no reset, and no change of mode that a wake event could overtake. -/
def Quiet (s : State) : Prop := s.boot.resetDue = none ∧ s.transit = none ∧ s.armedMode = none

/-- A host access of a function reaches the device's registers: the device is neither in DRY nor in DORMANT, the function is not
frozen, and it is live (R19, R32, R138, R148). -/
def HostUp (fn : Nat) (s : State) : Prop := s.mode ≠ .dry ∧ s.mode ≠ .dormant ∧ frozen s fn = false ∧ live s fn = true

/-- Two states hold the same in every unit that answering a command does not touch: the tables, the Cistern's buffers and queues, the
cipher contexts, the Pumps, time, the fronthaul and Combiner tables, Clay, allocations, ports, power, memory protection, the
mode, the fuses and the identity. -/
structure SameUnits (s t : State) : Prop where
  mode : t.mode = s.mode
  fuses : t.fuses = s.fuses
  boot : t.boot = s.boot
  spdm : t.spdm = s.spdm
  served : t.served = s.served
  blocked : t.blocked = s.blocked ∧ t.blockReason = s.blockReason
  chanTab : t.chanTab = s.chanTab
  links : t.links = s.links
  peers : t.peers = s.peers
  clay : t.clay = s.clay
  funcs : t.funcs = s.funcs
  ports : t.ports = s.ports
  gens : t.gens = s.gens
  modBus : t.modBus = s.modBus
  tables : t.tables = s.tables
  bufs : t.cis.bufs = s.cis.bufs ∧ t.cis.layout = s.cis.layout ∧ t.cis.queues = s.cis.queues
  cipher : t.cipher = s.cipher
  pumps : t.rings.chans = s.rings.chans ∧ t.rings.pcqs = s.rings.pcqs ∧ t.rings.sump = s.rings.sump ∧ t.rings.recover = s.rings.recover
  time : t.time = s.time
  fh : t.fh = s.fh
  comb : t.comb = s.comb
  power : t.power = s.power
  fault : t.fault = s.fault

/-- The rows that only read. -/
def onlyReads : Instr → Bool
  | .identify _ | .capability _ | .modeGet _ | .echo _ | .statusOf _ | .gateCheck _ | .certRead _ | .funcQuery _ | .portStatus _ | .testgenStatus _
  | .programList _ | .epochGet _ | .ownerQuery _ | .siltRead _ | .policerRead _ | .queueStatus _ | .cipherStatus _ | .queueQuery _ | .pumpStatus _
  | .timeGet _ | .fhGridQuery _ | .aqStatus _ | .aqCertRead _ | .powerStatus _ | .powerTelemetry _ | .powerVfRead _ | .countersRead _
  | .cntCtxRead _ => true
  | _ => false

/-! ## Invariants -/

/-- Nothing is left over between commands: a reset that a reply announced has run (R59, R400), and a DORMANT entry that a wake
event overtook has ended (R31), but one of a group, which ends at the group's instant. -/
def NothingDue (s : State) : Prop :=
  s.boot.resetDue = none ∧ (∀ x, s.transit = some x → x.abandon = false) ∧ ∀ a, s.armedMode = some a → a.abandon = true → a.cause = 5

/-- The INTx line of a physical function follows its condition (R127, R128, R138): asserted only while the condition is true or the link lets no
message out that would withdraw it, and asserted when the condition is true and the function can send the message. -/
def IntxLaw (s : State) : Prop :=
  ∀ pf, pf < 2 →
    ((cfgOf s pf).intxOn = true → (intMode s pf == 2 && intxCond s pf) = true ∨ canWithdraw s pf = false) ∧
    ((intMode s pf == 2 && intxCond s pf) = true → canIssue s pf = true → (cfgOf s pf).intxOn = true)

/-- Every watermark slot with a source has looked at its level (R273): one that is armed lies below its threshold, and one that
has crossed has not fallen below its re-arm level. -/
def WatermarkLaw (s : State) : Prop :=
  ∀ n, let w := Store.get ({} : Wm) n s.cis.wms
    1 ≤ wmKind w → wmKind w ≤ 7 →
      (w.above = false → wmLive s w < wmThreshold w) ∧
      (w.above = true → wmThreshold w * (100 - wmHyst w) ≤ wmLive s w * 100)

end Sys2Proof.Machine
end

