-- ==== Sys2Proof/Certificates/Slice0/Obligations.lean ====
section
/-! DEFINITION. The statements about the model, each a proposition for a prover. `taken` is the state in which an accepted command
starts, `answered` the next state of one that answers, `runsOn` that of one that answers later, and `settle` what follows every
command; `Ready` is a command packet that passes checks 1 to 8 of R45 at a unit of this device. -/

open Sys2Proof Sys2Proof.Machine

/-! ## The step -/

/-- A step runs the command at the front of the queue, on the state with the queue's rest. -/
def Obligations.StepRunsFront : Prop :=
  ∀ (c : Instr) (rest : List Instr) (s : State), step { s with pending := c :: rest } = exec c { s with pending := rest }

/-- With no command waiting a step lets one nanosecond pass and changes nothing but the device's clocks: no time in DRY, seep ticks while
the clocks are stopped, else device time, which advances at the frequency correction in steps of 2^-16 ns (the model's choice of
what an idle step is: log 11). -/
def Obligations.IdleStepIsOneNanosecond : Prop :=
  ∀ s : State, s.pending = [] →
    ∃ t, step s = .next t ∧ t = { s with time := t.time, wh := t.wh } ∧
      (s.wh.clocksStopped = false → s.mode = .dry → t = s) ∧
      (s.wh.clocksStopped = false → s.mode ≠ .dry → t.wh = s.wh ∧
        t.time.t * 1000000000000 + t.time.sub =
          s.time.t * 1000000000000 + s.time.sub + (65536 * (1000000000000 + s.time.freqPpt)).toNat) ∧
      (s.wh.clocksStopped = true → t.time = s.time ∧
        t.wh.ticks * 30517578125 + t.wh.tickAcc = s.wh.ticks * 30517578125 + s.wh.tickAcc + 1000000)

/-- What the spec gives the device on leaving DRY after a power-on (R16, R20, R79, R149, R225, R241, R250, R279, R385): PRIMING with cause 0, epoch 0,
nothing in service, the channel table unlocked, no aquifer, the physical functions with their default allocations and no virtual function, FATAL alone
enabled, Clay and every table empty. Where a clause follows a choice of the model and no rule, it is that of log 1. -/
def Obligations.ResetIsPriming : Prop :=
  State.reset.mode = .priming ∧ State.reset.entryCause = 0 ∧ State.reset.transit = none ∧ State.reset.served = false ∧
  State.reset.pending = [] ∧ State.reset.tables.epoch = 0 ∧ State.reset.tables.commit = none ∧ State.reset.aq.group = none ∧
  (∀ c, (chanEntry State.reset c).valid = true ↔ c = 4 ∨ c = 5) ∧ (∀ n, evtEnable State.reset n = true ↔ n = 0) ∧ State.reset.clay = [] ∧
  (∀ p, p < 2 → (funcOf State.reset p).qpCount = 64 ∧ (funcOf State.reset p).qpBase = 64 * p ∧ (funcOf State.reset p).vecCount = 64 ∧
    (funcOf State.reset p).vecBase = 64 * p ∧ (funcOf State.reset p).created = true) ∧
  (∀ v, 2 ≤ v → (funcOf State.reset v).created = false)

/-! ## What every step keeps -/

/-- Nothing is left over between commands (R31, R59, R400): from a state with nothing due, a step leaves a state with nothing due. -/
def Obligations.NothingLeftDue : Prop :=
  ∀ s t : State, NothingDue s → step s = .next t → NothingDue t

/-- The INTx lines follow their conditions after every step (R127, R128). -/
def Obligations.IntxFollowsItsCondition : Prop :=
  ∀ s t : State, IntxLaw s → step s = .next t → IntxLaw t

/-- Every watermark slot has looked at its level after every step (R273). -/
def Obligations.WatermarksHaveLooked : Prop :=
  ∀ s t : State, WatermarkLaw s → step s = .next t → WatermarkLaw t

/-- The invariants hold at reset, and Clay is in its canonical form there. -/
def Obligations.InvariantsAtReset : Prop :=
  NothingDue State.reset ∧ IntxLaw State.reset ∧ WatermarkLaw State.reset ∧ Memory.wf State.reset.clay

/-! ## Command packets: what is checked, and what is left alone -/

/-- CRC-32C (R39): over header bytes 0 to 59 and the PAYLOAD_LEN payload bytes; reflected, with an initial value and a final XOR of
0xFFFF_FFFF; and its check value over the ASCII string "123456789". -/
def Obligations.CrcOfACommand : Prop :=
  crc32c [0x31, 0x32, 0x33, 0x34, 0x35, 0x36, 0x37, 0x38, 0x39] = 0xE3069283 ∧
  (∀ b : Bytes, crc32c b = Nat.xor (crc32cFrom 0xFFFFFFFF b) 0xFFFFFFFF) ∧
  (∀ (crc : Nat) (b : Byte), crcByte 0x82F63B78 crc b = (List.range 8).foldl (fun x _ => crcBit 0x82F63B78 x) (Nat.xor crc b.toNat)) ∧
  (∀ x, crcBit 0x82F63B78 x = Nat.xor (x / 2) (x % 2 * 0x82F63B78)) ∧
  ∀ (op : Nat) (c : Cmd), (headerBytes op c).length = 60 ∧
    (cmdGood op c = true ↔ c.bad = false ∧ c.payload.length = c.payloadLen ∧ crc32c (headerBytes op c ++ c.payload) = c.crc.toNat)

/-- A command whose CRC fails (R40), on any channel of its own that the device reads with a reply credit left: it is not
executed, its SEQ does not enter the window, CMD_BAD_CHECK counts, and the channel's error path carries the failure. Where a clause follows a choice
of the model and no rule, it is that of log 20. -/
def Obligations.BadCrcIsNotExecuted : Prop :=
  ∀ (i : Instr) (op : OpInfo) (c : Cmd) (s : State), rowOf i = some (op, c) → (∀ e, c.chan ≠ .fwd e) → readable s c.chan = true →
    replyCredits s c.chan 0 ≠ 0 → startsNow op c s = false → cmdGood op.code c = false →
      exec i s = .next (settle (badCheck c.chan c.seq s)) ∧
      (badCheck c.chan c.seq s).chans = s.chans ∧ SameUnits s (badCheck c.chan c.seq s) ∧
      (c.chan = .sideband → s.mode ≠ .dry → counterOf (badCheck c.chan c.seq s) (cDev 0) = counterOf s (cDev 0) + 1)

/-- A SEQ that the window knows (R46) is not executed again: its answer is DUPLICATE, with the original status, in progress, or skipped
or evicted. -/
def Obligations.DuplicateIsNotExecuted : Prop :=
  ∀ (i : Instr) (op : OpInfo) (c : Cmd) (s : State) (a : Answer), rowOf i = some (op, c) → (∀ e, c.chan ≠ .fwd e) → readable s c.chan = true →
    replyCredits s c.chan 0 ≠ 0 → cmdGood op.code c = true → window (chanSt s c.chan) c.seq = some a →
    (∀ q ∈ (chanSt s c.chan).running, q.ref.seq = c.seq → q.stage ≠ 0) →
      a.status = stDuplicate ∧
      exec i s = .next (settle (deliverReply (refAt op c s) a (reportAccepted c.chan c.seq s)))

/-- The sequence window (R46) sorts a SEQ by its distance d = H - SEQ: new at 0x8000_0000 and above and on an unused channel; below 64
the cached reply, in progress, or skipped; else evicted. -/
def Obligations.SequenceWindow : Prop :=
  ∀ (st : ChanSt) (seq : Word),
    (st.last = none → window st seq = none) ∧
    ∀ h, st.last = some h →
      (0x80000000 ≤ (h - seq).toNat → window st seq = none) ∧
      ((h - seq).toNat < 64 → ∀ a, st.cache.find? (fun q => decide (q.1 = seq)) = some (seq, a) →
        window st seq = some { status := stDuplicate, detail := a.status, r0 := a.r0, r1 := a.r1 }) ∧
      ((h - seq).toNat < 64 → st.cache.find? (fun q => decide (q.1 = seq)) = none →
        window st seq = some { status := stDuplicate, detail := if st.running.any (fun q => decide (q.ref.seq = seq)) then 0xFF else 0xFE }) ∧
      (64 ≤ (h - seq).toNat → (h - seq).toNat < 0x80000000 → window st seq = some { status := stDuplicate, detail := 0xFE })

/-- A new command of the class and unit of one that still runs on its channel does not start (R37), nor one behind a command that has not started;
under FENCE none starts while any earlier one runs. It is recorded as accepted. With no reply credit left on its channel a command is not taken
(R36): it stays where it is, and nothing of the device changes but what follows every command. -/
def Obligations.StartsInAcceptanceOrder : Prop :=
  (∀ (i : Instr) (op : OpInfo) (c : Cmd) (s : State), rowOf i = some (op, c) → (∀ e, c.chan ≠ .fwd e) → startsNow op c s = false →
    replyCredits s c.chan 0 = 0 → exec i s = .next (settle s)) ∧
  ∀ (i : Instr) (op : OpInfo) (c : Cmd) (s : State) (q : Running), rowOf i = some (op, c) → (∀ e, c.chan ≠ .fwd e) → readable s c.chan = true →
    replyCredits s c.chan 0 ≠ 0 → cmdGood op.code c = true → window (chanSt s c.chan) c.seq = none →
    (∀ p ∈ (chanSt s c.chan).running, p.ref.seq ≠ c.seq) → q ∈ (chanSt s c.chan).running →
    (c.fence = true ∨ q.stage = 0 ∨ (opClass q.ref.op = opClass op.code ∧ q.ref.unit = unitCode (targetOf s c))) →
      exec i s = .next (settle (taken op c s)) ∧ SameUnits s (taken op c s) ∧
      (chanSt (taken op c s) c.chan).running.length = (chanSt s c.chan).running.length + 1

/-- Checks 3 to 8 of R45, in their order, decide the status of a command that arrives at a unit of this device, and the first that fails
answers with nothing executed: the unit's and its class's presence, the opcode, the length, the channel's privilege, the mode.
The DETAIL of a wrong mode is 0, but for FUNC_CREATE at a physical function, where R156 gives 1. -/
def Obligations.ChecksInOrder : Prop :=
  ∀ (i : Instr) (op : OpInfo) (c : Cmd) (s : State), rowOf i = some (op, c) → Arrives op c s → Reaches c s →
    (targetOf s c = .badPath → exec i s = answered op c s (err stBadPath 0) (taken op c s)) ∧
    (targetOf s c = .noUnit → exec i s = answered op c s (err stNoUnit 0) (taken op c s)) ∧
    (targetOf s c = .device →
      (classAbsent op s = true → exec i s = answered op c s (err stNoUnit 0) (taken op c s)) ∧
      (classAbsent op s = false →
        (op.len c = false ∨ (c.inl = true ∧ 4096 < c.payloadLen) ∨ 65536 < c.payloadLen →
          exec i s = answered op c s (err stBadLength 0) (taken op c s)) ∧
        (op.len c = true → c.payloadLen ≤ 4096 → c.pathLen = 0 →
          (onVfRing c.chan = true → op.vf = false → exec i s = answered op c s (err stDenied 4) (taken op c s)) ∧
          (c.chan = .sideband → op.modes.contains s.mode = false → exec i s = answered op c s (err stState (op.modeDetail c)) (taken op c s)) ∧
          (c.chan = .sideband → op.modes.contains s.mode = true → op.gated = true → s.transit.any (·.gate) = true →
            exec i s = answered op c s (err stBusy 0) (taken op c s)))))

/-- An absent unit answers NO_UNIT with detail 0 to every command of its opcode class and to every common core command that reaches it by
unit path, and executes none (R4): nothing but the command's own record and its reply changes. -/
def Obligations.AbsentUnitAnswersNoUnit : Prop :=
  ∀ (i : Instr) (op : OpInfo) (c : Cmd) (s : State), rowOf i = some (op, c) → Arrives op c s → Reaches c s →
    (targetOf s c = .noUnit ∨
      (classAbsent op s = true ∧ targetOf s c ≠ .badPath ∧ ∀ m r, targetOf s c ≠ .member m r)) →
      exec i s = answered op c s { status := stNoUnit, detail := 0 } (taken op c s)

/-- Answering a command touches no unit: the state in which it is taken and the state after its reply hold the same in every unit, and
what follows a command changes none either while nothing is due. A command over a stitch link whose output is more than the link takes back
(R387) is not executed: no unit changes at all. -/
def Obligations.AnswerTouchesNoUnit : Prop :=
  ∀ (op : OpInfo) (c : Cmd) (s u t : State) (a : Answer),
    SameUnits s (taken op c s) ∧ (Quiet s → Quiet (taken op c s)) ∧
    (Quiet u → tooMuchBack c.chan a = false → answered op c s a u = .next t → SameUnits u t) ∧
    (Quiet s → tooMuchBack c.chan a = true → answered op c s a u = .next t → SameUnits s t) ∧
    (Quiet u → runsOn op c s u = .next t → SameUnits u t)

/-- The rows that only read change no unit, on any channel, in any mode, on any path, with any payload. -/
def Obligations.ReadingRowsChangeNoUnit : Prop :=
  ∀ (i : Instr) (s t : State), onlyReads i = true → Quiet s → exec i s = .next t → SameUnits s t

/-- On a virtual function's admin ring no command packet changes a unit, but for QUEUE_STOP and QUEUE_DESTROY, which end what the function's
own queue pairs hold (R161). -/
def Obligations.VfRingChangesNoUnit : Prop :=
  ∀ (i : Instr) (op : OpInfo) (c : Cmd) (s t : State), rowOf i = some (op, c) → onVfRing c.chan = true →
    op.code ≠ 0x0402 → op.code ≠ 0x0404 → Quiet s → exec i s = .next t → SameUnits s t

/-- Without its rights a command packet changes no unit: a row that needs PRIV on a channel without it (R35, R69), any row in a mode it does
not run in, and any but the open operations on an open channel (R70). -/
def Obligations.NoRightNoEffect : Prop :=
  ∀ (i : Instr) (op : OpInfo) (c : Cmd) (s t : State), rowOf i = some (op, c) →
    ((op.priv = true ∧ hasPriv s c.chan = false) ∨ op.modes.contains s.mode = false ∨
      openRefused op c.chan = true) →
    Quiet s → exec i s = .next t → SameUnits s t

/-- FW_WRITE, FW_ACTIVATE and OWNER_ENROL on a channel without PRIV answer DENIED with DETAIL 3 and are not executed (R104), the open channels
0 to 3 among them. A virtual function's ring, which R161 refuses first, is the matter of the statement on VF rings. -/
def Obligations.FirmwareNeedsPriv : Prop :=
  ∀ (c : Cmd) (img : HostData) (s : State) (n : Nat), c.chan = .mailbox n → (n < 4 ∨ (chanEntry s n).priv = false) →
    targetOf s c = .device → c.payloadLen ≤ 4096 →
    (Arrives infoFwWrite c s → Reaches c s → c.payloadLen = 16 →
      exec (.fwWrite c img) s = answered infoFwWrite c s { status := stDenied, detail := 3 } (taken infoFwWrite c s)) ∧
    (Arrives infoFwActivate c s → Reaches c s → c.payloadLen = 8 →
      exec (.fwActivate c) s = answered infoFwActivate c s { status := stDenied, detail := 3 } (taken infoFwActivate c s)) ∧
    (Arrives infoOwnerEnrol c s → Reaches c s → c.payloadLen = 208 →
      exec (.ownerEnrol c) s = answered infoOwnerEnrol c s { status := stDenied, detail := 3 } (taken infoOwnerEnrol c s))

/-! ## Power, boot, identity and images -/

/-- Every reset clears SRAM, Clay, tables, allocations, the channel table and CHAN_LOCK, keeps the fuses, and enters DRY; every reset but power-on
keeps the coarse time; a failed fuse check holds the boot in DRY (R75, R77, R79, R82). Where a clause follows a choice of the model and no
rule, it is that of log 30. -/
def Obligations.EveryResetClears : Prop :=
  ∀ (source : Nat) (straps : Straps) (s : State),
    let t := resetDevice source straps s
    t.mode = .dry ∧ t.fuses = s.fuses ∧ t.pending = s.pending ∧ t.clay = [] ∧ t.tables = {} ∧ t.chanTab = [] ∧ t.served = false ∧ t.funcs = [] ∧
    t.chans = [] ∧ t.fwd = [] ∧ t.boxes = [] ∧ t.msix = [] ∧ t.ports = [] ∧ t.cipher = {} ∧ t.rings = {} ∧ t.fh = {} ∧ t.comb = {} ∧ t.aq = {} ∧
    t.evt = {} ∧ t.counters = [] ∧ t.boot.done = false ∧ t.boot.lastReset = source ∧
    (source = 0 → t.time.coarse = 0) ∧ (source ≠ 0 → s.wh.clocksStopped = false → t.time.coarse = s.time.t) ∧
    (s.fuses.intact = false → t.boot.failCode = 0x0B ∧ bootHeld t = true)

/-- The rows of power and boot have their effects (R75, R79, R81 to R85, R470). Where a clause follows a choice of the model and no rule, it is that
of log 30. -/
def Obligations.PowerAndBootRows : Prop :=
  ∀ (s : State) (straps : Straps),
    exec (.powerOn straps) s = .next (settle (resetDevice 0 straps s)) ∧
    (s.boot.powered = true → exec (.sysRstN straps) s = .next (settle (resetDevice 1 straps s))) ∧
    (s.mode ≠ .dry → exec (.watchdogReset straps) s = .next (settle (resetDevice 3 straps s))) ∧
    (let t := resetDevice 0 s.boot.straps s;
      exec .powerLoss s = .next (settle { t with boot := { t.boot with powered := false, stage := 0 }, wh := { t.wh with clocksStopped := false } })) ∧
    (bootRuns s = true → s.boot.stage ≠ 0xF → s.boot.image = none →
      (∀ b, let u := setSlot (triedB s) (some (fwInfo s b)) s
        exec (.bootSlotVerified (triedB s) (some b)) s = .next (settle (
          if checkFw s (some b) = 0 then { u with boot := { u.boot with image := some (fwInfo u b), slotUsed := triedB s, stage := 4 } }
          else failSlot (triedB s) (checkFw s (some b)) s))) ∧
      exec (.bootSlotVerified (triedB s) none) s = .next (settle (failSlot (triedB s) 1 s))) ∧
    (bootRuns s = true → s.boot.clayTrained = false →
      exec (.clayTrainingDone true) s = .next (settle { s with boot := { s.boot with clayTrained := true } }) ∧
      exec (.clayTrainingDone false) s = .next (settle { s with boot := { noteFail 0x0A s.boot with failed := true, stage := 0, image := none } })) ∧
    (bootRuns s = true → s.boot.image.isSome = true → s.boot.clayTrained = true →
      ∀ certOk, exec (.dryLeft certOk) s = .next (settle (leaveDry certOk s)) ∧ (leaveDry certOk s).mode = .priming ∧
        (leaveDry certOk s).boot.done = true) ∧
    (s.mode = .dry → s.boot.powered = true → s.boot.supplyStopped = true → bootHeld s = false →
      exec .bootRestart s = .next (settle { s with boot := {
        s.boot with supplyStopped := false, stage := if s.boot.straps.bootSrc then 0xF else 0, failCode := 0, failed := false, fallback := false,
                    recovery := false, slotUsed := false, image := none, clayTrained := false } })) ∧
    (∀ fn, fn < 2 → awaitsRecovery s = true →
      exec (.retryFlash fn) s = .next (settle { s with boot := {
        s.boot with stage := 2, failCode := 0, failed := false, fallback := false, recovery := false, slotUsed := false } }) ∧
      exec (.loadRecovery fn) s = .next (settle (loadRecovery s))) ∧
    (∀ off d, awaitsRecovery s = true → off + d.length ≤ 0x02000000 →
      exec (.recoveryWindowWrite 0 off d) s = .next (settle { s with boot := { s.boot with window := Store.setMany 0 off d s.boot.window } }))

/-- The random source and RANDOM (R93 to R95, R286): the source becomes ready once, and the first time it does BOOT_NONCE is drawn from it by one
request; it fails for good, and event 65 says so; neither does anything in DRY. RANDOM answers LEN bytes of one request, NOT_READY while the source is
not ready, and BAD_LENGTH for a LEN of 0 or above 4,096. Where a clause follows a choice of the model and no rule, it is that of logs 10 and 12. -/
def Obligations.EntropyAndRandom : Prop :=
  ∀ s : State,
    (s.mode = .dry ∨ s.entropyReady = true ∨ s.entropyFailed = true → exec .entropyReady s = .next (settle s)) ∧
    (s.mode ≠ .dry → s.entropyReady = false → s.entropyFailed = false →
      (s.cipher.nonce.isSome = true → exec .entropyReady s = .next (settle { s with entropyReady := true })) ∧
      (s.cipher.nonce = none → exec .entropyReady s = .next (settle {
        s with entropyReady := true, drbgCount := (s.drbgCount + 1) % 2 ^ 20, cis := { s.cis with draws := s.cis.draws + 1 },
               cipher := { s.cipher with nonce := some ((Config.nonce s.cis.draws).setWidth 128) } }))) ∧
    (s.mode = .dry ∨ s.entropyFailed = true → exec .entropyFail s = .next (settle s)) ∧
    (s.mode ≠ .dry → s.entropyFailed = false →
      exec .entropyFail s = .next (settle (raise 65 0 { s with entropyReady := false, entropyFailed := true }))) ∧
    (∀ t c, Ready infoRandom t c s → let u := taken infoRandom c s
      (arg c 8 8 = 0 ∨ 4096 < arg c 8 8 → exec (.random c) s = answered infoRandom c s { status := stBadLength } u) ∧
      (1 ≤ arg c 8 8 → arg c 8 8 ≤ 4096 → u.entropyReady = true →
        exec (.random c) s = answered infoRandom c s (okOut (arg c 8 8) 0 (arg c 0 8) ((List.range (arg c 8 8)).map (Config.drbg u.cis.draws)))
          { u with drbgCount := (u.drbgCount + 1) % 2 ^ 20, cis := { u.cis with draws := u.cis.draws + 1 } }) ∧
      (1 ≤ arg c 8 8 → arg c 8 8 ≤ 4096 → u.entropyReady = false →
        exec (.random c) s = answered infoRandom c s { status := stNotReady } u))

/-- The images and identity commands have their effects (R89, R98, R99, R101, R103, R105, R106). Where a clause follows a choice of the model and no
rule, it is that of logs 12, 30 and 34. -/
def Obligations.ImageCommands : Prop :=
  ∀ (t : Target) (c : Cmd) (img : HostData) (s : State),
    (Ready infoImageLoad t c s → let u := taken infoImageLoad c s
      u.tables.commit = none → u.tables.loading = false →
      exec (.imageLoad c img) s = answered infoImageLoad c s (loadImage (hostData u c img) (arg c 8 8) u).2 (loadImage (hostData u c img) (arg c 8 8) u).1) ∧
    (Ready infoGateCheck t c s →
      exec (.gateCheck c) s = answered infoGateCheck c s (ok ((gateReason (taken infoGateCheck c s)).getD 0) 0) (taken infoGateCheck c s)) ∧
    (Ready infoFwWrite t c s → let u := taken infoFwWrite c s
      let n := arg c 8 8
      let b := (hostData u c img).data.take n
      512 ≤ n → n ≤ 33554432 → readGood (hostData u c img) 0 512 = true → readGood (hostData u c img) 512 (fld b 20 4) = true →
      exec (.fwWrite c img) s =
        let slot := !primaryB u
        let v := emit (.flash (slotBase slot) b) u
        let back := checkFw v ((hostData u c img).readBack.getD (some b))
        if checkFw u (some b) ≠ 0 then answered infoFwWrite c s (err stDenied (checkFw u (some b))) (setSlot slot none u)
        else if back ≠ 0 then answered infoFwWrite c s (err stDenied back) (setSlot slot none v)
        else answered infoFwWrite c s (ok (b2n slot) (fwInfo v b).fwVersion.toNat) (setSlot slot (some (fwInfo v b)) v)) ∧
    (Ready infoFwActivate t c s → let u := taken infoFwActivate c s
      ∀ i, (if bit (arg c 0 1) 0 then u.fuses.slotB else u.fuses.slotA) = some i → i.verified = true → u.fuses.floor ≤ i.secVersion →
        let v := selectSlot (bit (arg c 0 1) 0) u
        let floor := if bit (arg c 0 1) 1 then max u.fuses.floor (min 63 (min i.secVersion (imageId u).2)) else u.fuses.floor
        exec (.fwActivate c) s = answered infoFwActivate c s (ok floor 0) { v with fuses := { v.fuses with floor := floor } }) ∧
    (Ready infoOwnerEnrol t c s → let u := taken infoOwnerEnrol c s
      u.fuses.ownerKeys = [] → u.boot.straps.ownerEn = true → arg c 0 8 = 0 →
        exec (.ownerEnrol c) s = answered infoOwnerEnrol c s (ok 0 0)
          { u with fuses := { u.fuses with ownerKeys := [(0, Config.sha384 (slice c.payload 16 96))] } }) ∧
    (Ready infoCertRead t c s → let u := taken infoCertRead c s
      arg c 12 4 = 0 → (ownChain u).length ≤ arg c 8 4 →
        exec (.certRead c) s = answered infoCertRead c s (okOut (ownChain u).length (ownChain u).length (arg c 0 8) (ownChain u)) u)

/-- An SPDM request in service of its transport is answered at once, and one that arrives in DORMANT is held until wake (R91). Where a clause follows
a choice of the model and no rule, it is that of log 16. -/
def Obligations.SpdmRequests : Prop :=
  ∀ (m : SpdmMsg) (s : State), m.transport ≤ 2 → s.mode ≠ .dry →
    let after : State := if s.mode = .dormant then { s with spdm := { s.spdm with held := s.spdm.held ++ [(m.transport, m.data)] } } else spdmAnswer m.data s
    (spdmCode m.data = 0x84 → exec (.getVersion m) s = .next (settle after)) ∧
    (spdmCode m.data = 0xE1 → exec (.getCapabilities m) s = .next (settle after)) ∧
    (spdmCode m.data = 0xE3 → exec (.negotiateAlgorithms m) s = .next (settle after)) ∧
    (spdmCode m.data = 0x81 → exec (.getDigests m) s = .next (settle after)) ∧
    (spdmCode m.data = 0x82 → exec (.getCertificate m) s = .next (settle after)) ∧
    (spdmCode m.data = 0x83 → exec (.challenge m) s = .next (settle after)) ∧
    (spdmCode m.data = 0xE0 → exec (.getMeasurements m) s = .next (settle after)) ∧
    (spdmCode m.data = 0xE4 → exec (.keyExchange m) s = .next (settle after)) ∧
    (spdmCode m.data = 0xE5 → exec (.finish m) s = .next (settle after)) ∧
    (spdmCode m.data = 0xE8 → exec (.heartbeat m) s = .next (settle after)) ∧
    (spdmCode m.data = 0xE9 → exec (.keyUpdate m) s = .next (settle after)) ∧
    (spdmCode m.data = 0xEC → exec (.endSession m) s = .next (settle after)) ∧
    (spdmCode m.data = 0x85 → exec (.chunkSend m) s = .next (settle after)) ∧
    (spdmCode m.data = 0x86 → exec (.chunkGet m) s = .next (settle after))

/-! ## The common core, modes and wake -/

/-- The reading commands of the common core answer at every unit of the device (R16, R57, R58, R60). At an aquifer the gateway asks its members for their
modes by a MODE_GET of its own, and answers MODE_GET with the mode of the aquifer in MODE and TARGET (R17): at once where no other member is there to
ask. Where a clause follows a choice of the model and
no rule, it is that of log 20. -/
def Obligations.CoreReadsAnswer : Prop :=
  ∀ (t : Target) (c : Cmd) (s : State),
    (Ready infoIdentify t c s → arg c 0 8 % 64 = 0 → let u := taken infoIdentify c s
      exec (.identify c) s = answered infoIdentify c s
        (okOut Config.serial.toNat (stratumOf t + 256 * indexOf u t + 2 ^ 24 * modeField u t) (arg c 0 8) (statusRecord u t)) u) ∧
    (Ready infoIdentify t c s → arg c 0 8 % 64 ≠ 0 →
      exec (.identify c) s = answered infoIdentify c s { status := stBadLength } (taken infoIdentify c s)) ∧
    (Ready infoCapability t c s → let u := taken infoCapability c s
      exec (.capability c) s = answered infoCapability c s (ok (capField u t) (childrenOf u t)) u) ∧
    (Ready infoModeGet t c s → exec (.modeGet c) s = answered infoModeGet c s (ok (devMode (taken infoModeGet c s)) 0) (taken infoModeGet c s)) ∧
    (∀ l, Arrives infoModeGet c s → Reaches c s → targetOf s c = .aquifer l → let u := taken infoModeGet c s
      checks infoModeGet (.aquifer l) c u = none →
        exec (.modeGet c) s = .next (settle (gathered (refAt infoModeGet c s) (carryAll { code := 0x0103 } { c with payload := [], payloadLen := 0 }
          (refAt infoModeGet c s) l (ok (aquiferMode u l * 17) 0) u))) ∧
        (otherMembers u l = [] → exec (.modeGet c) s = answered infoModeGet c s (ok (s.mode.code * 17) 0) u)) ∧
    (∀ l, Arrives infoIdentify c s → Reaches c s → targetOf s c = .aquifer l → arg c 0 8 % 64 = 0 → let u := taken infoIdentify c s
      checks infoIdentify (.aquifer l) c u = none →
        exec (.identify c) s = .next (settle (gathered (refAt infoIdentify c s) (carryAll { code := 0x0103 } { c with payload := [], payloadLen := 0 }
          (refAt infoIdentify c s) l (okOut Config.serial.toNat (stratumOf (.aquifer l) + 256 * indexOf u (.aquifer l) + 2 ^ 24 * modeField u (.aquifer l))
            (arg c 0 8) (statusRecord u (.aquifer l))) u)))) ∧
    (Ready infoEcho t c s → let u := taken infoEcho c s
      exec (.echo c) s = answered infoEcho c s
        (if arg c 0 8 = 0 then ok (nowNs u) 0
         else okOut (nowNs u) ((c.payload.take c.payloadLen).drop 8).length (arg c 0 8) ((c.payload.take c.payloadLen).drop 8)) u) ∧
    (Ready infoStatusOf t c s → let u := taken infoStatusOf c s
      exec (.statusOf c) s = answered infoStatusOf c s (statusOf (chanSt u (rootChan u 70 c.chan)) (BitVec.ofNat 32 (arg c 0 4))) u)

/-- MODE_GET at a well or an engine returns the device's mode, and MODE_SET there is not executed and answers DENIED (R16). -/
def Obligations.WellsHaveNoMode : Prop :=
  ∀ (t : Target) (c : Cmd) (s : State), ((∃ w, t = .well w) ∨ ∃ e, t = .engine e) →
    (Ready infoModeGet t c s → exec (.modeGet c) s = answered infoModeGet c s (ok (devMode (taken infoModeGet c s)) 0) (taken infoModeGet c s) ∧
      devMode (taken infoModeGet c s) % 8 = s.mode.code) ∧
    (Ready infoModeSet t c s → exec (.modeSet c) s = answered infoModeSet c s { status := stDenied } (taken infoModeSet c s))

/-- MODE_SET at a device (R22, R29): while a change is under way or armed it answers BUSY and queues nothing; to the current mode OK with no effect;
to any other that the table of R22 allows, the change begins or is armed for its instant. Where a clause follows a choice of the model and no rule, it
is that of log 31. -/
def Obligations.ModeSetAtADevice : Prop :=
  ∀ (c : Cmd) (s : State), Ready infoModeSet .device c s → s.mode ≠ .shutIn → let u := taken infoModeSet c s
    ((u.transit.isSome = true ∨ u.armedMode.isSome = true) → exec (.modeSet c) s = answered infoModeSet c s { status := stBusy } u) ∧
    (u.transit = none → u.armedMode = none → modeOf (arg c 0 1 % 8) = some s.mode →
      exec (.modeSet c) s = answered infoModeSet c s (ok s.mode.code 0) u) ∧
    (∀ m, u.transit = none → u.armedMode = none → modeOf (arg c 0 1 % 8) = some m → m ≠ s.mode → modeChange u m = .ok () →
      exec (.modeSet c) s = runsOn infoModeSet c s
        (if nowNs u < arg c 8 8 then { u with armedMode := some { ref := some (refAt infoModeSet c s), target := m, atNs := arg c 8 8 } }
         else beginMode (some (refAt infoModeSet c s)) m 1 u)) ∧
    (∀ m a, u.transit = none → u.armedMode = none → modeOf (arg c 0 1 % 8) = some m → m ≠ s.mode → modeChange u m = .error a →
      exec (.modeSet c) s = answered infoModeSet c s a u)

/-- The events of a mode change and of wake have their effects (R17, R22, R23, R107 to R110, R406, R407). Where a clause follows a choice of the model
and no rule, it is that of logs 17, 18 and 31. -/
def Obligations.ModeAndWakeEvents : Prop :=
  ∀ s : State,
    (∀ a, s.armedMode = some a → s.aq.change = none → s.transit = none → s.mode ≠ a.target → a.cause ≠ 5 → a.abandon = false → modeChange { advanceNs a.atNs s with armedMode := none } a.target = .ok () →
      exec .modeSetAtTime s = .next (settle (beginMode a.ref a.target a.cause { advanceNs a.atNs s with armedMode := none }))) ∧
    (∀ x v, s.transit = some x → x.gate = true → gateReason s = some v →
      exec .gateDecided s = .next (settle (answerMode x.ref { status := stState, detail := v, r0 := s.mode.code } (gateFails v { s with transit := none })))) ∧
    (∀ x r, s.transit = some x → x.gate = true → gateReason s = none → x.ref = some r →
      exec .gateDecided s =
        .next (settle (markStage r 1 { s with blocked := false, blockReason := 0, transit := some { x with gate := false } }))) ∧
    (∀ x, s.transit = some x → x.gate = false → x.target = .priming →
      exec .modeTransitionComplete s = .next (settle (answerMode x.ref (ok 1 0) (setMode .priming x.cause (leaveService s))))) ∧
    (∀ x, s.transit = some x → x.gate = false → x.target = .flowing → s.mode = .proving →
      exec .modeTransitionComplete s = .next (settle (answerMode x.ref (ok 3 0) (setMode .flowing x.cause s)))) ∧
    (∀ x, s.transit = some x → x.gate = false → x.target = .proving → s.mode = .priming →
      exec .modeTransitionComplete s = .next (settle (answerMode x.ref (ok 2 0) (resumeRings { setMode .proving x.cause s with served := true })))) ∧
    (∀ x, s.transit = some x → x.gate = false → x.target = .dormant → txReading s = true → exec .modeTransitionComplete s = .next (settle s)) ∧
    (∀ x, s.transit = some x → x.gate = false → x.target = .dormant → txReading s = false → (parkDevice s).transit.any (·.abandon) = false →
      let u := answerMode x.ref (ok 4 0) (raise 69 0 { parkDevice s with transit := none })
      exec .modeTransitionComplete s = .next (settle (restDevice { u with mode := .dormant, entryCause := x.cause, dormantFrom := u.mode }))) ∧
    (s.mode = .dormant → s.wh.clocksStopped = false → s.wh.waking = false →
      exec .dormantClocksStop s = .next (settle {
        s with wh := { s.wh with clocksStopped := true, ticks := 0, tickAcc := 0, timerFired := false }, time := { s.time with coarse := s.time.t } })) ∧
    (s.mode = .dormant → s.wh.waking = true → s.spdm.held = [] → exec .wakeDone s = .next (settle (updSpdm (fun x => { x with held := [] }) (wakeUp s)))) ∧
    exec .wakeInN s = .next (settle (latchWake 2 s)) ∧
    (∀ fn value, s.mode = .dormant → frozen s fn = false → isVf fn = false → value.getLsbD 0 = true →
      exec (.whWake fn value) s = .next (settle (latchWake 1 s))) ∧
    (s.mode = .dormant → s.wh.clocksStopped = true → s.wh.timer ≠ 0 → s.wh.timerFired = false →
      exec .wakeTimer s = .next (settle (latchWake 5 { s with wh := { s.wh with timerFired := true, ticks := max s.wh.ticks s.wh.timer.toNat } }))) ∧
    (∀ port, (portAt s port).cfg.wakeArm = true → port < laneCount s → exec (.portSignalDetect port) s = .next (settle (latchWake 3 s)))

/-- A wake event (R31, R109, R110): in DORMANT it is latched, and the first enabled one starts the wake. Where a clause follows a choice of the model
and no rule, it is that of log 42. -/
def Obligations.WakeEventsLatch : Prop :=
  ∀ (k : Nat) (s : State), k < 8 → s.mode = .dormant →
    (latchWake k s).wh.latched.getLsbD k = true ∧
    (∀ j, s.wh.latched.getLsbD j = true → (latchWake k s).wh.latched.getLsbD j = true) ∧
    ((latchWake k s).wh.waking = (s.wh.waking || wakeEnabled s k)) ∧
    (s.wh.waking = true → (latchWake k s).wh.first = s.wh.first) ∧
    (s.wh.waking = false → wakeEnabled s k = true → (latchWake k s).wh.first = k) ∧
    SameUnits s (latchWake k s)

/-- RESET_UNIT (R18, R59, R78): a well or an engine drops what it holds and answers; a device answers first and then resets; without PRIV a device
answers DENIED and does not reset. Where a clause follows a choice of the model and no rule, it is that of logs 20 and 43. -/
def Obligations.ResetUnitScopes : Prop :=
  ∀ (t : Target) (c : Cmd) (straps : Straps) (s : State), Ready infoResetUnit t c s → let u := taken infoResetUnit c s
    (∀ w, t = .well w → exec (.resetUnit c straps) s = answered infoResetUnit c s (ok 0 0) (bumpGen (ownWell w) (dropUnit w (heldIn u w none) u))) ∧
    (∀ e, t = .engine e → exec (.resetUnit c straps) s = answered infoResetUnit c s (ok 0 0) (dropUnit (e / 8) (heldIn u (e / 8) (some (e % 8))) u)) ∧
    (t = .device → hasPriv u c.chan = false → exec (.resetUnit c straps) s = answered infoResetUnit c s { status := stDenied } u) ∧
    (∀ l, t = .aquifer l → hasPriv u c.chan = false → exec (.resetUnit c straps) s = answered infoResetUnit c s { status := stDenied } u) ∧
    (t = .device → hasPriv u c.chan = true →
      exec (.resetUnit c straps) s = answered infoResetUnit c s (ok 0 0) { u with boot := { u.boot with resetDue := some straps } })

/-- FORWARD, CHANNEL_BIND, a returning reply and a command's time-out have their effects (R49 to R51, R54, R56, R72). Where a clause follows a choice
of the model and no rule, it is that of logs 20 and 43. -/
def Obligations.ForwardingAndBinding : Prop :=
  ∀ (t : Target) (c : Cmd) (s : State),
    (Ready forwardInfo t c s → let u := taken forwardInfo c s
      (∀ n v, innerEntry (refAt forwardInfo c s) t c.payload u = .ok (n, v) →
        exec (.forward c) s = runsOn forwardInfo c s (runInner (forwardN 65) n c.payload v)) ∧
      (∀ a, innerEntry (refAt forwardInfo c s) t c.payload u = .error a → exec (.forward c) s = answered forwardInfo c s a u)) ∧
    (Ready infoChannelBind t c s → let u := taken infoChannelBind c s
      let e := readEntry (slice c.payload 16 16)
      u.served = false → 1030 ≤ arg c 0 8 → arg c 0 8 ≤ 4095 → e.valid = true → 2056 ≤ e.box → e.box ≤ 2071 → masterOk u e.masterA = true →
      masterOk u e.masterB = true →
        exec (.channelBind c) s = answered infoChannelBind c s (ok 0 0)
          { resetChan (.mailbox (arg c 0 8)) u with chanTab := Store.set {} (arg c 0 8) e (resetChan (.mailbox (arg c 0 8)) u).chanTab }) ∧
    (∀ e x r, s.fwd.find? (fun (y : FwdEntry) => y.num == e) = some x →
      exec (.forwardedReply e r) s = .next (settle (replyArrives x { status := r.status, detail := r.detail, r0 := r.r0, r1 := r.r1, out := r.out.take 4096 } s))) ∧
    (∀ seq q, timeRuns s = true → (chanSt s .sideband).running.find? (fun q => decide (q.ref.seq = seq)) = some q →
      exec (.commandTimeout .sideband seq) s = .next (settle (timeOut q.ref q.stage (advanceTo (q.since + q.timeoutUs * 65536000) s))))

/-- A late reply that finds its entry TIMED_OUT is not delivered: the entry goes, and LATE_DISCARDED of the tag's function counts (R51). -/
def Obligations.LateReplyIsDiscarded : Prop :=
  ∀ (r : CmdRef) (a : Answer) (e : Nat) (x : FwdEntry) (f : Nat) (s : State), r.chan = .fwd e → s.fwd.find? (fun x => x.num == e) = some x → x.timedOut = true →
    chanFn { s with fwd := s.fwd.filter fun y => y.num != e } x.origin.chan = some f → s.mode ≠ .dry → a.status ≠ stInternal →
      (reply r a s).fwd = s.fwd.filter (fun y => y.num != e) ∧ (reply r a s).out = s.out ∧ (reply r a s).chans = s.chans ∧ SameUnits s (reply r a s) ∧
      counterOf (reply r a s) (cFn f 9) = counterOf s (cFn f 9) + 1

/-! ## Mailboxes -/

/-- The mailbox rows have their effects on a host access that reaches the registers (R65, R66), and MBOX_TMO's expiry on a pending notice. Where a
clause follows a choice of the model and no rule, it is that of log 33. -/
def Obligations.MailboxRows : Prop :=
  ∀ (fn b : Nat) (value : Word) (s : State),
    (HostUp fn s → exec (.mboxDoorbell fn b value) s = .next (settle (ringBox fn b value s)) ∧
      exec (.mboxAck fn b value) s = .next (settle (ackWrite fn b value s))) ∧
    (s.mode ≠ .dry → (boxAt s b).status.getLsbD 0 = true → (boxAt s b).tmo ≠ 0 →
      exec (.mboxTimeout b) s = .next (settle (updBox b (fun m => { m with status := (m.status &&& ~~~1#32) ||| 8#32, kind := 0, tmoSeq := some (noticeSeq m) }) s)))

/-- Ringing a mailbox box (R65, R70, R74): PENDING sets and nothing else of the box's notice changes; the ring is refused, in this order, while PENDING
is 1, for KIND 2 and 3, for LEN 0, for a writer that is not the box's sender, and for a command notice on a channel that takes none. A writer whose
windows do not show the box is a stranger to a bound channel's box, or has made a bad access. Where a clause follows a choice of the model and no rule,
it is that of log 33. -/
def Obligations.MailboxRing : Prop :=
  ∀ (fn b : Nat) (value : Word) (s : State), b ≤ 2071 →
    (boxView s fn b = none →
      (strangerTo s fn b = true → ringBox fn b value s = denyStranger b (refuseRing b 4 s)) ∧
      (strangerTo s fn b = false → ringBox fn b value s = badAccess s)) ∧
    ∀ send, boxView s fn b = some send →
    ((boxAt s b).status.getLsbD 0 = true → ringBox fn b value s = refuseRing b 1 s) ∧
    ((boxAt s b).status.getLsbD 0 = false →
      (2 ≤ value.toNat % 4 → ringBox fn b value s = refuseRing b 2 s) ∧
      (value.toNat % 4 < 2 → (boxAt s b).notice.toNat % 65536 = 0 → ringBox fn b value s = refuseRing b 3 s) ∧
      (value.toNat % 4 < 2 → (boxAt s b).notice.toNat % 65536 ≠ 0 → send = false → ringBox fn b value s = refuseRing b 4 s) ∧
      (value.toNat % 4 = 1 → (boxAt s b).notice.toNat % 65536 ≠ 0 → send = true → boxCommands s fn b = false →
        ringBox fn b value s = count (cDev 2) (refuseRing b 4 s)) ∧
      (∀ k, k < 2 → value.toNat % 4 = k → (k = 1 → boxCommands s fn b = true) → (boxAt s b).notice.toNat % 65536 ≠ 0 → send = true →
        ringBox fn b value s = ringReceiver b
          (updBox b (fun m => { m with status := m.status ||| 1#32, kind := k, ringer := BitVec.ofNat 32 (ridOf s fn), tmoSeq := none }) s)))

/-! ## Links, resets of functions, and host accesses -/

/-- The rows of the host links and of function resets have their effects (R76, R108, R125, R126, R133 to R141). Where a clause follows a choice of the
model and no rule, it is that of logs 30 and 31. -/
def Obligations.LinkAndFlrRows : Prop :=
  ∀ (s : State) (link fn : Nat),
    ((linkList s).contains link = true →
      exec (.perst link) s = .next (settle (resetLink link s)) ∧ exec (.hotReset link) s = .next (settle (resetLink link s)) ∧
      (∀ rate width flit, width ∈ [1, 2, 4, 8, 16] → width ≤ (if s.boot.straps.hostBif then 8 else 16) → 1 ≤ rate → rate ≤ 7 →
        exec (.linkTrained link rate width flit) s = .next (settle (updLink link (fun x =>
          { x with up := true, lstate := 0, l1sub := 0, rate := rate, width := width, flit := decide (6 ≤ rate) || flit }) s))) ∧
      (let down := aerError link 1 (updLink link (fun x => { x with up := false, lstate := 3, l1sub := 0 }) s);
        exec (.surpriseDown link) s = .next (settle (freezeLink link 1 down)) ∧ exec (.hostRefclkLoss link) s = .next (settle (freezeLink link 1 down)) ∧
        ∀ code, 2 ≤ code → code ≤ 7 →
          exec (.pcieUncorrectableError link code) s = .next (settle (freezeLink link code (aerError link code (emit (.pcieError link code) s)))))) ∧
    (fn < 2 → (linkAt s (linkOf s fn)).frozen = true → s.mode ≠ .dry → let x := linkAt s (linkOf s fn)
      (x.up = true → x.lstate = 0 → s.mode ≠ .shutIn → exec (.contRelease fn 0xA5) s =
        .next (settle (thawLink (linkOf s fn) ((linkPfs s (linkOf s fn)).foldl (fun t f => flrAll f t) s)))) ∧
      (x.up = true → x.lstate = 0 → s.mode = .shutIn → coolEnough s = true → exec (.contRelease fn 0xA5) s = .next (settle (releaseShutIn s))) ∧
      (x.up = false ∨ x.lstate ≠ 0 ∨ (s.mode = .shutIn ∧ coolEnough s = false) →
        exec (.contRelease fn 0xA5) s = .next (settle (updCfg fn (fun c => { c with relRefused := true }) s)))) ∧
    (answersCfg s fn = true →
      (∀ on, exec (.busMasterEnable fn on) s = .next (settle (setBme fn on s))) ∧
      ((cfgOf s fn).ats = true → exec (.atsEnableClear fn) s = .next (settle (atsOff fn s))) ∧
      ((cfgOf s fn).flr = true → exec (.flr fn) s = .next (settle s)) ∧
      ((cfgOf s fn).flr = false →
        (s.mode ≠ .dormant → isVf fn = true → exec (.flr fn) s = .next (settle (flrBegin fn s))) ∧
        (s.mode ≠ .dormant → isVf fn = false →
          exec (.flr fn) s = .next (settle (flrBegin fn ((vfsOf s fn).foldl (fun t v => flrBegin v t) s)))) ∧
        (s.mode = .dormant → exec (.flr fn) s = .next (settle (latchWake 7 (updCfg fn (fun c => { c with deferFlr := true }) s))))) ∧
      (HostUp fn s → ∀ entry,
        (entry < vecBacked s fn → exec (.msixUnmask fn entry 0) s = .next (settle (unmaskEntry fn entry s))) ∧
        (vecBacked s fn ≤ entry → exec (.msixUnmask fn entry 0) s = .next (settle s))) ∧
      (s.mode ≠ .dry →
        exec (.msixUnmask fn 0 1) s = .next (settle (setMsixCtl fn (cfgOf s fn).msixEn false s)) ∧
        exec (.msixUnmask fn 0 2) s = .next (settle (setMsixCtl fn true (cfgOf s fn).fnMask s)))) ∧
    ((cfgOf s fn).flr = true →
      let vs := if isVf fn then [] else vfsOf s fn
      exec (.flrComplete fn) s =
        .next (settle ((fn :: vs).foldl (fun t f => destroyDone f t) (flrEnd fn (vs.foldl (fun t v => flrWhole v t) s))))) ∧
    (fn < 2 →
      ((cfgOf s fn).vfEnable = true →
        exec (.vfEnableClear fn) s = .next (settle (updCfg fn (fun c => { c with vfEnable := false }) (flrVfs fn s)))) ∧
      (∀ n, n ≤ 512 → (cfgOf s fn).vfEnable = false →
        exec (.vfEnableSet fn n) s = .next (settle (updCfg fn (fun c => { c with vfEnable := true, numVfs := n }) s))))

/-- The completions of host reads and of address translation have their effects (R50, R51, R116, R129, R130, R132, R136, R431). Where a clause follows
a choice of the model and no rule, it is that of logs 4 and 32. -/
def Obligations.EndpointRows : Prop :=
  ∀ s : State,
    (∀ tag t data last, tagOf s tag = some t →
      let u := if last then sample 5 (pfOf t.fn) ((nowNs s : Int) - t.born) (freeTags (fun x => x.num == tag) s)
        else { s with rings := { s.rings with tags := mapWhere (fun x => x.num == tag) (fun x => { x with off := x.off + data.length }) s.rings.tags } }
      (∀ ch, t.use = .pump ch → exec (.readCompletion tag data last 0) s = .next (settle (pumpData ch t data u))) ∧
      ((∀ ch, t.use ≠ .pump ch) → exec (.readCompletion tag data last 0) s = .next (settle u)) ∧
      exec (.readCompletion tag data last 1) s = .next (settle (failRead t.use qPoisoned 0 (logAdvisory t.fn 12 u))) ∧
      exec (.readCompletion tag data last 2) s = .next (settle (failRead t.use qDmaFault 3 u))) ∧
    (∀ tag f data bad, tagOf s tag = none → s.rings.lateReads.find? (fun x => x.1 == tag) = some (tag, f) →
      exec (.readCompletion tag data false bad) s = .next (settle (count (cFn f 9) s)) ∧
      exec (.readCompletion tag data true bad) s =
        .next (settle (count (cFn f 9) { s with rings := { s.rings with lateReads := s.rings.lateReads.filter fun x => x.1 != tag } }))) ∧
    (∀ tag t, tagOf s tag = some t →
      exec (.readTimeout tag) s =
        .next (settle (failRead t.use qDmaFault 1 (timeOutReads (fun x => x.num == tag) (advanceNs (t.born + ctoNs s t.fn) s))))) ∧
    (∀ req r e, s.atsReqs.find? (fun r => r.num == req) = some r → r.stale = false → (if r.write then e.wr else e.rd) = true → 4096 ≤ e.size → e.size ≤ 2 ^ 30 →
      exec (.translationCompletion req true e) s = .next (settle (reissueHeld r.holds (cacheTranslation
        { fn := r.fn, base := r.addr / e.size * e.size, size := e.size, target := e.target / e.size * e.size, rd := e.rd, wr := e.wr }
        { s with atsReqs := s.atsReqs.filter fun x => x.num != req })))) ∧
    (∀ req r ok e, s.atsReqs.find? (fun r => r.num == req) = some r → r.stale = true →
      exec (.translationCompletion req ok e) s = .next (settle (reissueHeld r.holds { s with atsReqs := s.atsReqs.filter fun x => x.num != req }))) ∧
    (∀ req r e, s.atsReqs.find? (fun r => r.num == req) = some r → r.stale = false →
      let v := count (cDev 5) { s with atsReqs := s.atsReqs.filter fun x => x.num != req }
      let refused (u : State) : Prop := exec (.translationCompletion req false e) s = .next (settle u)
      (∀ k f tag a n rest t, r.holds = (k, .hostRead f tag a n) :: rest → tagOf v tag = some t →
        refused (reissueHeld rest (failRead t.use qDmaFault 2 (freeTags (fun x => x.num == tag) v)))) ∧
      (∀ f a d ro bad rest, r.holds = (.rx, .hostWrite f a d ro bad) :: rest → refused (reissueHeld (faultCqe rest) (count (cFn f 19) v))) ∧
      (∀ ch f a d ro bad rest, r.holds = (.dest ch, .hostWrite f a d ro bad) :: rest →
        refused (failPump ch qDmaFault 2 (reissueHeld (rest.filter fun x => x.1 != .dest ch) v)))) ∧
    (∀ itag fn base size, answersCfg s fn = true → s.mode ≠ .dry →
      ∃ t, exec (.invalidateRequest itag fn base size) s = .next (settle t) ∧
        t.atc = s.atc.filter (fun e => !(e.fn == fn && overlaps e.base e.size base size)) ∧
        (∃ r, t.invReqs = s.invReqs ++ [r] ∧ r.itag = itag ∧ r.fn = fn) ∧ (∀ r ∈ t.atsReqs, r.fn = fn → overlaps r.addr 1 base size = true → r.stale = true) ∧
        SameUnits s t) ∧
    (∀ itag fn r, s.invReqs.find? (fun (r : InvReq) => r.itag == itag && r.fn == fn) = some r → frozen s fn = false →
      (∀ t ∈ s.rings.tags, r.waits.contains t.num = false) →
      exec (.invalidateCompletion itag fn) s =
        .next (settle (emit (.invCompletion fn itag) { s with invReqs := s.invReqs.filter fun x => !decide (x = r) })))

/-- A write into the open peer window (R144) stores its bytes at CLAY_OFFSET plus the offset, changes no other byte of Clay and no other unit, and
keeps Clay in its canonical form; a read answers with the bytes there. Where a clause follows a choice of the model and no rule, it is that of logs 3
and 32. -/
def Obligations.PeerWindowStores : Prop :=
  ∀ (pf rid offset : Nat) (data : Bytes) (s : State), HostUp pf s → Quiet s → data ≠ [] → peerOpen s pf rid offset data.length = true →
    Store.get [] 9 s.fault.poison = [] →
    (∃ t, exec (.peerWindowWrite pf rid offset data false) s = .next t ∧
      (∀ i, i < data.length → Store.get 0 (clayOffset s pf + offset + i) t.clay = data.getD i 0) ∧
      (∀ a, a < clayOffset s pf + offset ∨ clayOffset s pf + offset + data.length ≤ a → Store.get 0 a t.clay = Store.get 0 a s.clay) ∧
      (Memory.wf s.clay → Memory.wf t.clay) ∧ SameUnits { s with clay := t.clay, fault := t.fault } t) ∧
    exec (.peerWindowRead pf rid offset data.length) s =
      .next (settle (emit (.readBytes (readBytes s.clay (clayOffset s pf + offset) data.length) false) s))

/-- The rows that stand for writes and reads of named registers (R9, R20, R32, R81, R118 to R121, R125, R138, R142, R145, R146, R159, R272, R302, R304,
R308, R311, R312, R315, R320, R321, R324, R325, R336, R406, R431, R437, R441, R442, R447, R453 to R461): what an access does that does not reach a
register (a function that is not there, DRY, a frozen link, DORMANT, poison, a bad size or alignment, a requester without the right), and what one does
that reaches a register, register by register. Where a clause follows a choice of the model and no rule, it is that of logs 28, 32 and 38. -/
def Obligations.RegisterRows : Prop :=
  ∀ (fn : Nat) (s : State),
    -- accesses that reach no register
    (∀ a v, decodes s fn = false → exec (.registerWrite fn a v) s = .next (settle s) ∧ exec (.registerRead fn a) s = .next (settle s)) ∧
    (decodes s fn = true → s.mode = .dry → ∀ off rid v, off % 4 = 0 → off < 0x02000000 →
      (off ≠ 0x1C → exec (.registerWrite fn ⟨0, off, 4, false, rid⟩ v) s = .next (settle s)) ∧
      (isVf fn = false → exec (.registerRead fn ⟨0, off, 4, false, rid⟩) s =
        .next (settle (emit (.readData (if off = 0x18 then bootStatus s else 0)) s)))) ∧
    (decodes s fn = true → s.mode ≠ .dry → frozen s fn = true → ∀ a v,
      (a.bar ≠ 255 → exec (.registerWrite fn a v) s = .next (settle (count (cDev 6) s))) ∧
      (a.bar ≠ 255 → a.bar ≠ 6 → exec (.registerRead fn a) s = .next (settle (emit (.readData (2 ^ (8 * a.size) - 1)) s)))) ∧
    (decodes s fn = true → s.mode = .dormant → frozen s fn = false → ∀ off rid v, off % 4 = 0 → off < 0x01000000 →
      (off ≠ 0x400 → exec (.registerWrite fn ⟨0, off, 4, false, rid⟩ v) s = .next (settle (count (cDev 8) s))) ∧
      (dormantReads fn off = false → exec (.registerRead fn ⟨0, off, 4, false, rid⟩) s =
        .next (settle (emit (.readData 0) (count (cDev 8) s))))) ∧
    (HostUp fn s → decodes s fn = true →
      (∀ off size rid v, off < 0x01000000 → exec (.registerWrite fn ⟨0, off, size, true, rid⟩ v) s = .next (settle (logAdvisory fn 12 (count (cDev 11) s)))) ∧
      (∀ off size rid v, off < 0x01000000 → ¬ (size = 4 ∧ off % 4 = 0) → ¬ (size = 8 ∧ off % 8 = 0) →
        exec (.registerWrite fn ⟨0, off, size, false, rid⟩ v) s = .next (settle (count (cDev 3) s)) ∧
        exec (.registerRead fn ⟨0, off, size, false, rid⟩) s = .next (settle (emit (.readData 0) (count (cDev 3) s)))) ∧
      -- what only the manager may write, and only until the configuration is locked
      (∀ off rid v, off % 4 = 0 → managed fn off = true → s.served = true ∨ rid.isSome = true →
        exec (.registerWrite fn ⟨0, off, 4, false, rid⟩ v) s = .next (settle (count (cDev 3) s))) ∧
      -- writes of registers of a physical function
      (isVf fn = false → ∀ (v : Word) rid,
        let wr (off : Nat) : Host.Outcome State Fault Refusal := exec (.registerWrite fn ⟨0, off, 4, false, rid⟩ v.toNat) s
        (∀ off ∈ [0x10, 0x14, 0x18, 0x20, 0x24, 0x100, 0x104, 0x30C, 0xA0C, 0x2008], wr off = .next (settle s)) ∧
        wr 0xA00 = .next (settle { s with evt := { s.evt with sel := Store.set 0 fn (v.toNat % 2048) s.evt.sel } }) ∧
        wr 0x404 = .next (settle { s with wh := { s.wh with wakeEn := v.setWidth 8 ||| 0x82#8 } }) ∧
        wr 0x408 = .next (settle { s with wh := { s.wh with latched := s.wh.latched &&& ~~~(v.setWidth 8) } }) ∧
        wr 0x40C = .next (settle { s with wh := { s.wh with timer := v } }) ∧
        ((admAt s fn).ctrl.getLsbD 0 = true → wr 0x200 = .next (settle s)) ∧
        ((admAt s fn).ctrl.getLsbD 0 = false → wr 0x200 =
          .next (settle (updAdm fn (fun r => { r with sq := putHalf r.sq 0 v &&& 0xFFFFFFFFFFFFF000#64 }) s))) ∧
        (s.served = false → rid = none → wr 0x160 =
          .next (settle (updPeer fn (fun p => { p with win := putHalf p.win 0 v &&& 0xFFFFFFFFFF000001#64 }) s))) ∧
        (∀ ch, ch < 255 → pumpOwner s fn ch = true →
          ((pumpAt s ch).state = 0 → wr (0x10010 + 32 * ch) = .next (settle (updPump ch (fun c => { c with count := v }) s))) ∧
          ((pumpAt s ch).state ≠ 0 → wr (0x10010 + 32 * ch) = .next (settle s)))) ∧
      (isVf fn = true → ∀ rid v, exec (.registerWrite fn ⟨0, 0x14, 4, false, rid⟩ v) s = .next (settle s) ∧
        exec (.registerWrite fn ⟨0, 0x400, 4, false, rid⟩ v) s = .next (settle (count (cDev 3) s))) ∧
      (∀ e (v : Word) rid, e < tableSize fn → e < vecBacked s fn →
        exec (.registerWrite fn ⟨4, 16 * e + 8, 4, false, rid⟩ v.toNat) s = .next (settle (updMsix fn e (fun m => { m with data := v }) s))) ∧
      -- a watermark slot
      (isVf fn = false → ∀ n (v : Word) rid, n < 64 →
        let wm (off : Nat) : Host.Outcome State Fault Refusal := exec (.watermarkRegisterWrite fn ⟨0, 0x2000 + 16 * n + off, 4, false, rid⟩ v.toNat) s
        let put (g : Wm → Wm) : State := { s with cis := { s.cis with wms := Store.upd {} n g s.cis.wms } }
        wm 0 = .next (settle (wmSlot n (put fun w => { w with src := v &&& 0xF800FFFF#32, above := false, count := 0 }))) ∧
        wm 4 = .next (settle (wmSlot n (put fun w => { w with thresh := v, above := false, count := 0 }))) ∧
        wm 8 = .next (settle s) ∧
        (v.getLsbD 0 = true → wm 12 = .next (settle (put fun w => { w with crossed := false })))) ∧
      -- reads
      (isVf fn = false → ∀ rid,
        let rd (off : Nat) (v : Nat) : Prop := exec (.registerRead fn ⟨0, off, 4, false, rid⟩) s = .next (settle (emit (.readData v) s))
        rd 0x10 (capUnits s) ∧ rd 0x14 (devMode s) ∧ rd 0x18 (bootStatus s) ∧ rd 0x20 (b2n s.served) ∧ rd 0x24 0 ∧
        rd 0x100 (linkStatus s fn) ∧ rd 0x104 (65536 * vecBacked s fn + intMode s fn) ∧ rd 0x210 (admAt s fn).ctrl.toNat ∧
        rd 0x304 (Store.get 0 fn s.time.latch / 2 ^ 48 % 2 ^ 32) ∧ rd 0x308 (Store.get 0 fn s.time.latch % 65536) ∧ rd 0x30C (timeStatus s) ∧
        rd 0x404 (s.wh.wakeEn ||| 0x82#8).toNat ∧ rd 0xA20 (faultStatus s) ∧
        (∀ n, n < 64 → rd (0x2008 + 16 * n) (wmLive s (wmAt s n))) ∧
        (∀ ch, ch < 255 → pumpOwner s fn ch = true → rd (0x10010 + 32 * ch) (pumpAt s ch).count.toNat)) ∧
      (isVf fn = true → ∀ rid,
        let rd (off : Nat) (v : Nat) : Prop := exec (.registerRead fn ⟨0, off, 4, false, rid⟩) s = .next (settle (emit (.readData v) s))
        rd 0 (65536 * (funcOf s fn).qpCount + fn) ∧ rd 0x10 (capUnits s) ∧ rd 0x14 (devMode s) ∧
        exec (.registerRead fn ⟨0, 0x18, 4, false, rid⟩) s = .next (settle (emit (.readData 0) (count (cDev 3) s)))) ∧
      (∀ e rid, e < tableSize fn → e < vecBacked s fn → exec (.registerRead fn ⟨4, 16 * e + 8, 4, false, rid⟩) s =
        .next (settle (emit (.readData (msixAt s fn e).data.toNat) s)))) ∧
    (decodes s fn = true → ∀ a, a.bar = 255 → exec (.registerRead fn a) s = .next (settle (emit (.readData (cfgRead fn a s)) s))) ∧
    -- TIME_NOW_LO latches the whole of device time
    (isVf fn = false → decodes s fn = true →
      (HostUp fn s → exec (.timeNowLoRead fn) s =
        .next (settle (emit (.readData (nowNs s % 2 ^ 32)) { s with time := { s.time with latch := Store.set 0 fn s.time.t s.time.latch } }))) ∧
      (s.mode ≠ .dry → frozen s fn = true → exec (.timeNowLoRead fn) s = .next (settle (emit (.readData 0xFFFFFFFF) s))) ∧
      (s.mode = .dormant → frozen s fn = false → exec (.timeNowLoRead fn) s = .next (settle (emit (.readData 0) (count (cDev 8) s)))) ∧
      (s.mode = .dry → exec (.timeNowLoRead fn) s = .next (settle (emit (.readData 0) s)))) ∧
    -- a counter page: a LO register latches its counter with the time, and HI and the stamp are of that reading
    (HostUp fn s →
      (∀ off, off % 4 ≠ 0 → exec (.counterPageRead fn off) s = .next (settle (emit (.readData 0) (count (cDev 3) s)))) ∧
      (∀ off, off % 4 = 0 → (funcOf s fn).counterPage = false → exec (.counterPageRead fn off) s = .next (settle (emit (.readData 0) s))) ∧
      ((funcOf s fn).counterPage = true →
        (∀ k, k < 32 → exec (.counterPageRead fn (8 * k)) s = .next (settle (emit (.readData (counterValue s (cFn fn k) % 2 ^ 32))
          (updFunc fn (fun x => { x with latch := { counter := 8 * k, value := BitVec.ofNat 64 (counterValue s (cFn fn k)),
                                                    time24 := BitVec.ofNat 24 (nowNs s), used := true } }) s)))) ∧
        (∀ k, k < 64 → exec (.counterPageRead fn (0x100 + 8 * k)) s = .next (settle (emit (.readData (counterValue s (grantOf s fn k) % 2 ^ 32))
          (updFunc fn (fun x => { x with latch := { counter := 0x100 + 8 * k, value := BitVec.ofNat 64 (counterValue s (grantOf s fn k)),
                                                    time24 := BitVec.ofNat 24 (nowNs s), used := true } }) s)))) ∧
        (∀ k, k < 96 → exec (.counterPageRead fn (8 * k + 4)) s = .next (settle (emit (.readData (
          if (funcOf s fn).latch.used && (funcOf s fn).latch.counter == 8 * k then (funcOf s fn).latch.value.toNat / 2 ^ 32 else 0)) s))) ∧
        exec (.counterPageRead fn 0x300) s = .next (settle (emit (.readData (funcOf s fn).latch.time24.toNat) s)))) ∧
    -- FAULT_STATUS: bit 1 clears UNCORR, bit 0 the latch and what it recorded
    (HostUp fn s → ∀ v, (isVf fn = true → exec (.faultStatusClear fn v) s = .next (settle (count (cDev 3) s))) ∧
      (isVf fn = false → ∃ t, exec (.faultStatusClear fn v) s = .next (settle t) ∧ t = { s with fault := t.fault, out := t.out } ∧
        t.fault.uncorr = (s.fault.uncorr && !v.getLsbD 1) ∧ t.fault.latched = (s.fault.latched && !v.getLsbD 0) ∧
        (v.getLsbD 0 = true → t.fault.cause = 0 ∧ t.fault.memory = 0 ∧ t.fault.count = 0 ∧ t.fault.addr = 0 ∧ t.fault.time = 0) ∧
        (v.getLsbD 0 = false → t.fault = { s.fault with uncorr := t.fault.uncorr }))) ∧
    -- EVT_ENABLE_n: one bit for each source
    (HostUp fn s → ∀ n v, n < 48 → (isVf fn = true → exec (.evtEnableWrite fn n v) s = .next (settle (count (cDev 3) s))) ∧
      (isVf fn = false → ∃ t, exec (.evtEnableWrite fn n v) s = .next (settle t) ∧
        (∀ i, i < 32 → evtAssigned s (32 * n + i) = true → evtEnable t (32 * n + i) = v.getLsbD i) ∧
        (∀ k, (k / 32 ≠ n ∨ evtAssigned s k = false) → evtEnable t k = evtEnable s k) ∧ t.evt.status = s.evt.status)) ∧
    -- ADM_CTRL
    (HostUp fn s → isVf fn = true → ∀ v : Word,
      exec (.adminEnable fn v) s = .next (settle (count (cDev 3) s)) ∧ exec (.adminDisable fn v) s = .next (settle (count (cDev 3) s))) ∧
    (HostUp fn s → isVf fn = false → ∀ v : Word,
      ((admAt s fn).ctrl.getLsbD 0 = false → v.getLsbD 0 = true → ∃ t, exec (.adminEnable fn v) s = .next (settle t) ∧ t = { s with rings := t.rings } ∧
        (admAt t fn).ctrl.getLsbD 1 = admOk v ∧ (admAt t fn).ctrl.getLsbD 2 = !admOk v ∧
        (admOk v = true → let q := qpAt t (adminQp s fn)
          q.fn = fn ∧ q.idx = 0 ∧ q.ty = 2 ∧ q.state = 1 ∧ q.log2Sq = admLog2Sq v ∧ q.log2Cq = admLog2Cq v ∧ q.vector = admVector v ∧
          q.sqAddr = (admAt s fn).sq.toNat ∧ q.cqAddr = (admAt s fn).cq.toNat ∧ q.tail = 0 ∧ q.head = 0) ∧
        (admOk v = false → t.rings.qps = s.rings.qps)) ∧
      ((admAt s fn).ctrl.getLsbD 0 = true → v.getLsbD 0 = false → ∃ t, exec (.adminDisable fn v) s = .next (settle t) ∧
        (admAt t fn).ctrl.getLsbD 0 = false ∧ (admAt t fn).ctrl.getLsbD 1 = false ∧ (qpAt t (adminQp s fn)).state = 0) ∧
      ((admAt s fn).ctrl.getLsbD 0 = true ∨ v.getLsbD 0 = false → exec (.adminEnable fn v) s = .next (settle s)) ∧
      ((admAt s fn).ctrl.getLsbD 0 = false ∨ v.getLsbD 0 = true → exec (.adminDisable fn v) s = .next (settle s))) ∧
    -- doorbells
    (s.mode ≠ .dry → frozen s fn = false → ∀ q (v : Word), doorbellOk s fn q = false →
      exec (.submissionDoorbell fn q v) s = .next (settle (count (cDev 4) s)) ∧ exec (.completionDoorbell fn q v) s = .next (settle (count (cDev 4) s)) ∧
      exec (.arm fn q v) s = .next (settle (count (cDev 4) s))) ∧
    (s.mode ≠ .dry → s.mode ≠ .dormant → frozen s fn = false → ∀ q (v : Word), doorbellOk s fn q = true →
      let n := devQp s fn q
      let p := qpAt s n
      ((p.ty = 2 → s.transit = none ∧ s.armedMode = none) →
        (sqSize p ≤ v.toNat % 65536 → exec (.submissionDoorbell fn q v) s = .next (settle (count (cDev 4) s))) ∧
        (v.toNat % 65536 < sqSize p → exec (.submissionDoorbell fn q v) s = .next (settle (kickQp n
          (updQp n (fun r => { r with tail := v.toNat % 65536, due := entriesTo r (v.toNat % 65536), latched := r.fetching }) s))))) ∧
      (v.getLsbD 16 = false →
        (cqSize p ≤ v.toNat % 65536 → exec (.completionDoorbell fn q v) s = .next (settle (kickQp n (count (cDev 12) s)))) ∧
        (v.toNat % 65536 < cqSize p → ∀ d, d = (v.toNat % 65536 + cqSize p - p.head) % cqSize p → 0 < d →
          (d ≤ p.used → exec (.completionDoorbell fn q v) s =
            .next (settle (kickQp n (updQp n (fun r => { r with head := v.toNat % 65536, used := r.used - d }) s)))) ∧
          (p.used < d → exec (.completionDoorbell fn q v) s = .next (settle (kickQp n (count (cDev 12) s)))))) ∧
      (v.toNat % 65536 = p.head → p.head < cqSize p → p.used = 0 → exec (.arm fn q v) s =
        .next (settle (kickQp n (updQp n (fun r => { r with arm := true }) (updQp n (fun r => { r with head := p.head }) s))))) ∧
      exec (.arm fn q v) s = exec (.completionDoorbell fn q (v ||| 0x10000#32)) s) ∧
    (s.mode = .dormant → frozen s fn = false → ∀ q (v : Word), doorbellOk s fn q = true → let n := devQp s fn q
      ((qpAt s n).ty ≠ 2 → exec (.submissionDoorbell fn q v) s = .next (settle (updQp n (fun r => { r with latchTail := some v }) s))) ∧
      exec (.completionDoorbell fn q v) s = .next (settle (updQp n (fun r => { r with latchHead := some v }) s))) ∧
    -- a Pump channel's GO and ABORT
    (HostUp fn s → ∀ ch (v : Word), let c := pumpAt s ch
      (pumpOwner s fn ch = false → exec (.go fn ch v) s = .next (settle (count (cDev 3) s)) ∧ exec (.channelAbort fn ch v) s = .next (settle (count (cDev 3) s))) ∧
      (pumpOwner s fn ch = true → v.getLsbD 1 = false →
        (c.state ≠ 0 → exec (.go fn ch v) s = .next (settle (count (cDev 13) s))) ∧
        (c.state = 0 → let u := updPump ch (pumpCtrl (v ||| 1#32)) s
          (inService s = false → exec (.go fn ch v) s = .next (settle (count (cDev 14) u))) ∧
          (inService s = true → pcqFor (pcqAt s (chPcq (pumpAt u ch))) (pumpPf ch (pumpAt u ch)) = false → exec (.go fn ch v) s =
            .next (settle (count (cDev 15) (updPump ch (fun c => { c with lastStatus := qMalformed }) u)))) ∧
          (inService s = true → pcqFor (pcqAt s (chPcq (pumpAt u ch))) (pumpPf ch (pumpAt u ch)) = true → exec (.go fn ch v) s =
            .next (settle (updPump ch (fun c => { c with state := 1, ctrl := c.ctrl ||| 1#32, done := 0 }) u))))) ∧
      (pumpOwner s fn ch = true → v.getLsbD 0 = false →
        (c.state = 0 → exec (.channelAbort fn ch v) s = .next (settle (updPump ch (pumpCtrl (v ||| 2#32)) s))) ∧
        (c.state = 1 → pcqFree (pcqAt s (chPcq c)) = false →
          exec (.channelAbort fn ch v) s = .next (settle (updPump ch (fun c => { c with ctrl := c.ctrl ||| 2#32 }) s))) ∧
        (c.state = 1 → pcqFree (pcqAt s (chPcq c)) = true → exec (.channelAbort fn ch v) s =
          .next (settle (endPump ch qAborted 0 0 (updPcq (chPcq c) (fun p => { p with reserved := p.reserved + 1 }) s)))) ∧
        (c.state = 3 → c.done = c.count.toNat → exec (.channelAbort fn ch v) s = .next (settle (endPump ch (if c.bad then qPoisoned else qOk) 0 c.done s))) ∧
        (c.state = 2 ∨ c.state = 4 ∨ (c.state = 3 ∧ c.done ≠ c.count.toNat) → exec (.channelAbort fn ch v) s =
          .next (settle (endPump ch qAborted 0 (if chMode c = 0 then c.done else 0) s))))) ∧
    -- PCQ_HEAD
    (HostUp fn s → ∀ m (v : Word), let p := pcqAt s m
      (pcqFor p fn = false → exec (.pcqHead fn m v) s = .next (settle (count (cDev 3) s))) ∧
      (pcqFor p fn = true → v.getLsbD 16 = false → let h := v.toNat % 65536
        (∀ d, d = (h + pcqSize p - p.head) % pcqSize p → h < pcqSize p → 0 < d → d ≤ p.unread.length →
          exec (.pcqHead fn m v) s = .next (settle (updPcq m (fun p => { p with head := h, unread := p.unread.drop d }) s))) ∧
        (pcqSize p ≤ h → exec (.pcqHead fn m v) s = .next (settle (count (cDev 12) s)))) ∧
      (pcqFor p fn = true → v.getLsbD 16 = true → v.toNat % 65536 = p.head → p.head < pcqSize p → p.unread = [] →
        exec (.pcqHead fn m v) s = .next (settle (updPcq m (fun p => { p with arm := true }) (updPcq m (fun q => { q with head := p.head, unread := [] }) s)))))

/-! ## Tenancy -/

/-- The tenancy commands have their effects (R147 to R158, R162, R165). Where a clause follows a choice of the model and no rule, it is that of logs
20 and 31. -/
def Obligations.TenancyCommands : Prop :=
  ∀ (t : Target) (c : Cmd) (s : State),
    (Ready infoFuncCreate t c s → let u := taken infoFuncCreate c s
      let f := arg c 0 2
      let r := readAlloc c.payload
      funcRefused (refAt infoFuncCreate c s) f u = none → allocInRange f r = true → (if isVf f then (funcOf u f).created = false else u.mode = .priming) →
      (r.cipherCtx = 0 ∨ hasCipher u = true) → allocMisfit u f r = none →
        let p := placeAlloc u f r
        exec (.funcCreate c) s = answered infoFuncCreate c s (ok (p.qpBase + 65536 * p.vecBase) f) (clearFnCounters f (installFunc f p u))) ∧
    (Ready infoFuncDestroy t c s → let u := taken infoFuncDestroy c s
      let f := arg c 0 8
      2 ≤ f → funcRefused (refAt infoFuncDestroy c s) f u = none → (funcOf u f).created = true →
        ((cfgOf u f).flr = false → exec (.funcDestroy c) s = answered infoFuncDestroy c s (ok (destroyFn f (pfOf f) u).1 0) (destroyFn f (pfOf f) u).2) ∧
        ((cfgOf u f).flr = true →
          exec (.funcDestroy c) s = runsOn infoFuncDestroy c s (updFunc f (fun x => { x with destroying := some (refAt infoFuncDestroy c s) }) u))) ∧
    (Ready infoFuncQuery t c s → let u := taken infoFuncQuery c s
      let f := arg c 0 8
      funcRefused (refAt infoFuncQuery c s) f u = none →
        exec (.funcQuery c) s = answered infoFuncQuery c s (okOut (b2n (funcOf u f).created) 0 (arg c 8 8) (allocBytes f (funcOf u f))) u) ∧
    (Ready infoSpoofSet t c s → let u := taken infoSpoofSet c s
      let f := arg c 0 2
      let l := arg c 2 1
      let n := arg c 4 2
      let es := records (spoofSize l) (n + 1) (slice c.payload 8 (n * spoofSize l))
      funcRefused (refAt infoSpoofSet c s) f u = none → l ≤ 4 → (l = 4 → n ≤ (funcOf u f).eaxcEntries) → n ≤ spoofMost l → c.payloadLen = 8 + n * spoofSize l → es.any (badPrefix l) = false →
        exec (.spoofSet c) s = answered infoSpoofSet c s (ok n 0)
          (updFunc f (fun x => { x with spoof := Store.set {} l { enable := bit (arg c 3 1) 0, entries := es } x.spoof }) u))

/-! ## Ports -/

/-- A frame that a port receives, its pause frames and precision-time messages among them, is taken by the port's one receive path (R169 to R174,
R271, R340), and the pause clocks run. Where a clause follows a choice of the model and no rule, it is that of logs 14 and 42. -/
def Obligations.LineAndPauseRows : Prop :=
  ∀ (port : Nat) (f : RxFrame) (s : State),
    exec (.lineFrameReceive port f) s = .next (settle (lineReceive port f s)) ∧
    exec (.pauseFrameReceive port f.data) s = .next (settle (lineReceive port { data := f.data, fcs := BitVec.ofNat 32 (fcs32 f.data) } s)) ∧
    exec (.ptpSync port f) s = .next (settle (lineReceive port f s)) ∧ exec (.followUp port f) s = .next (settle (lineReceive port f s)) ∧
    exec (.delayReq port f) s = .next (settle (lineReceive port f s)) ∧ exec (.delayResp port f) s = .next (settle (lineReceive port f s)) ∧
    exec (.announce port f) s = .next (settle (lineReceive port f s)) ∧ exec (.signaling port f) s = .next (settle (lineReceive port f s)) ∧
    (∀ prio, (heldAt s port prio).on = true →
      exec (.pauseExpiry port prio) s = .next (settle (updHeld port prio (fun h => { h with on := false }) (advanceTo (heldAt s port prio).upTo s)))) ∧
    (∀ prio, let h := heldAt s port prio
      let wd := (portAt s port).cfg.pauseWd * 1000000 * 65536
      (h.tripped = true → exec (.pauseWatchdog port prio) s =
        .next (settle (updHeld port prio (fun h => { h with tripped := false, on := false }) (advanceTo (h.lastPause + wd) s)))) ∧
      (h.tripped = false → h.on = true → h.since + wd ≤ h.upTo → exec (.pauseWatchdog port prio) s =
        .next (settle (raise (400 + port) 0 (count (cPort port 11)
          (updHeld port prio (fun h => { h with tripped := true, on := false }) (advanceTo (h.since + wd) s))))))) ∧
    (∀ prio, (heldAt s port prio).xoff = true → pauseGen s port prio = true →
      ((heldAt s port prio).xonKib * 1024 ≤ ingressBytes s port prio →
        exec (.pauseXoffRepeat port prio) s = .next (settle (sendPause port prio 0xFFFF s))) ∧
      (ingressBytes s port prio < (heldAt s port prio).xonKib * 1024 →
        exec (.pauseXoffRepeat port prio) s = .next (settle (pauseCheckOne port prio s)))) ∧
    (∀ t c, Ready infoPortBufSet t c s → let u := taken infoPortBufSet c s
      let p := arg c 0 1
      let k := arg c 1 1
      p ≤ 15 → k ≤ 7 → arg c 4 4 < arg c 2 2 → p < laneCount u →
        exec (.portBufSet c) s = answered infoPortBufSet c s (ok 0 0)
          (pauseCheckOne p k (updHeld p k (fun h => { h with xoffKib := arg c 2 2, xonKib := arg c 4 4 }) u)))

/-- The rows of a port's sender have their effects (R25, R169, R182, R264 to R270, R309). Where a clause follows a choice of the model and no rule, it
is that of log 36. -/
def Obligations.EgressRows : Prop :=
  ∀ (port : Nat) (s : State),
    exec (.egressDequeue 16) s = .next (settle (hostDequeue s)) ∧
    (port < 16 → portFree s port = true → exec (.egressDequeue port) s = .next (settle (portDequeue port s))) ∧
    exec (.frameDeparture port) s = .next (settle (wireDone port s)) ∧
    ((portAt s port).cfg.lpi = true → lineUp s port = true → (portAt s port).lpiOn = false → (portAt s port).lb ≠ 3 → portIdle s port = true →
      exec (.lpiEntry port) s = .next (settle (if phyWake s port = 0 then s else updPort port (fun p => { p with lpiOn := true })
        (advanceTo ((portAt s port).idleSince + (portAt s port).cfg.lpiIdle * 1000 * 65536) s)))) ∧
    (∀ l, (portAt s port).lpiOn = true → ((freeHeads s port).map (·.1)).min? = some l →
      exec (.lpiWake port) s = .next (settle (updPort port (fun p => { p with lpiOn := false }) (advanceTo (l * 65536 - phyWake s port) s)))) ∧
    (∀ queue p rest, portOfQueue s.tables.active queue = some port → Store.get [] queue s.cis.queues = p :: rest →
      (freeHeads s port).contains (launchAt p, queue) = true →
      (∀ x ∈ freeHeads s port, launchAt p < x.1 ∨ (launchAt p = x.1 ∧ queue ≤ x.2)) → portFree s port = true →
      ((portAt s port).cfg.mode = 2 → stitchTakes s port p = true) →
      let r := netRec s.tables.active queue
      let v := advanceTo (max (launchAt p * 65536) (txReady s port)) s
      let w := popQueue queue (sample 2 queue (((v.time.t : Int) - p.joined) / 65536) v)
      (v.time.t ≤ (launchAt p + r.lateTol) * 65536 →
        exec (.timedLaunch queue) s =
          .next (settle (launchPkt port { p with late := false } (if goesOut w port p then chargeTimed queue (wireSize p) w else w)))) ∧
      ((launchAt p + r.lateTol) * 65536 < v.time.t →
        (r.lateDrop = true → exec (.timedLaunch queue) s = .next (settle (endPkt p qLate 0 none (count (cPort port 22) w)))) ∧
        (r.lateDrop = false → let u := count (cPort port 22) w
          exec (.timedLaunch queue) s =
            .next (settle (launchPkt port { p with late := true } (if goesOut u port p then chargeTimed queue (wireSize p) u else u)))))) ∧
    (∀ gen, (genAt s gen).run = true → lineUp s (genAt s gen).port = true → (portAt s (genAt s gen).port).onWire = none →
      let g := genAt s gen
      let len := testLen g g.sent
      let v := advanceTo (max g.nextAt (txReady s g.port)) s
      let start := v.time.t
      let rate := portMbps (portAt s g.port)
      let pace := if g.rateKbps = 0 then rate * 1000 else g.rateKbps
      let w := updGen gen (fun g => { g with sent := (g.sent + 1) % 2 ^ 64, run := !(g.count != 0 && decide (g.count ≤ g.sent + 1)),
                                             nextAt := start + (if pace = 0 then 0 else 8 * (len + 20) * 65536 * 1000000 / pace) })
        (updPort g.port (fun p => { p with lpiOn := false, txFree := start + bitTime (8 * (len + 20)) rate, idleSince := start + bitTime (8 * len) rate }) v)
      let d := testFrame g gen g.sent (start / 65536)
      beforeTimed v g.port (len + 20) = true →
        ((portAt s g.port).lb ≠ 1 → (portAt s g.port).lb ≠ 2 → exec (.testgenFrame gen) s = .next (settle (wireOut g.port d false w))) ∧
        ((portAt s g.port).lb = 1 ∨ (portAt s g.port).lb = 2 → exec (.testgenFrame gen) s =
          .next (settle (arrive g.port { data := d, fcs := BitVec.ofNat 32 (fcs32 d) } start (wireOut g.port d false w)))))

/-- The rows of port links, width changes and modules have their effects (R167, R168, R174 to R179, R187). Where a clause follows a choice of the
model and no rule, it is that of logs 29 and 43. -/
def Obligations.PortLinkAndModuleRows : Prop :=
  ∀ (port bus : Nat) (s : State),
    (∀ width, exec (.portLinkChange port true width) s = .next (settle (linkUp port width s)) ∧
      exec (.portLinkChange port false width) s = .next (settle (linkDown port s))) ∧
    (2 ≤ (portAt s port).width → exec (.widthDownshiftTrigger port) s = .next (settle (proposeWidth port ((portAt s port).width / 2) 0 s))) ∧
    exec (.widthUpshiftTrigger port) s = .next (settle (proposeWidth port (2 * (portAt s port).width) (if (stitchAt s port).upDue then 2 else 0)
      (updStitch port (fun u => { u with upDue := false }) s))) ∧
    exec (.widthProposeTimeout port) s = .next (settle (refuseWidth port s)) ∧
    (s.mode ≠ .dry → exec .lineRefclkLoss s = .next (settle (portsDown s))) ∧
    exec .seepClockLoss s = .next (settle { s with wh := { s.wh with seepInternal := true } }) ∧
    (∀ bytes states, modeTalks s = true → 4 * bus < laneCount s → (busAt s bus).xfer = none →
      exec (.modulePoll bus false bytes states) s = .next (settle (updBus bus (fun b => { b with pages := [], dataPath := [] }) s)) ∧
      let v := updBus bus (fun b => {
        b with pages := bytes.foldl (fun st (x : Nat × Byte) => Store.set 0 x.1 x.2 st) b.pages, dataPath := Store.setMany 0 0 (states.take 4) [] }) s
      let w := if (List.range 4).any (fun i => Store.get 0 (pageKey 0x50 0 0 (8 + i)) (busAt v bus).pages != 0) then raise (448 + bus) 0 v else v
      (∀ j, j < 4 → Store.get 0 j (busAt w bus).dataPath = if laneUsed w (4 * bus + j) then 4 else 1) →
        exec (.modulePoll bus true bytes states) s = .next (settle w)) ∧
    (∀ x, (busAt s bus).xfer = some x →
      exec (.modBusStretchTimeout bus) s = .next (settle (emit (.moduleBus bus 2 []) (abandonXfer bus 0x12 1 x s))) ∧
      ((busAt s bus).backOff = false → (busAt s bus).lost < 3 → exec (.modBusArbitrationLost bus) s =
        .next (settle (updBus bus (fun b => { b with lost := b.lost + 1, backOff := true }) (emit (.moduleBus bus 1 []) s)))) ∧
      (∀ got v a, (busAt s bus).backOff = true → xferOutcome bus x got (startXfer bus x s) = (v, some a) →
        exec (.modBusIdle bus got) s = .next (settle (replyIfRunning x.ref a v))))

/-- The port commands have their effects (R178 to R188). Where a clause follows a choice of the model and no rule, it is that of logs 7 and 43. -/
def Obligations.PortCommands : Prop :=
  ∀ (t : Target) (c : Cmd) (s : State),
    (Ready infoPortConfig t c s → let u := taken infoPortConfig c s
      let p := arg c 0 1
      let r := readPortCfg c.payload
      portCfgBad p r = false → p < laneCount u → (r.mode = 2 → hasStitch u = true) → portClash u p r = false →
        (onlyWidths u p r = true → exec (.portConfig c) s = answered infoPortConfig c s (ok p 0) (setWidths p r.widthFloor r.widthCeil (stopGens p u))) ∧
        (onlyWidths u p r = false →
          exec (.portConfig c) s = answered infoPortConfig c s (ok p 0) (bumpGen (ownPort p)
            (updPort p (fun x => { x with cfg := r, lb := 0, width := 0, lpiOn := false })
              (stopGens p (clearPause p (if inService u then flushPort p (linkDown p (cutWire p u)) else u))))))) ∧
    (Ready infoPortStatus t c s → let u := taken infoPortStatus c s
      arg c 0 8 ≤ 15 → arg c 0 8 < laneCount u → let x := portAt u (arg c 0 8)
        let w := if x.cfg.mode = 0 then 0 else if x.cfg.mode = 2 then x.width else x.cfg.lanes
        let held := ((List.range 8).filter (prioHeld u (arg c 0 8))).foldl (fun a k => a + 2 ^ k) 0
        exec (.portStatus c) s = answered infoPortStatus c s (ok (b2n x.up + 2 * w +
          16 * b2n ((List.range 8).any fun k => (heldAt u (arg c 0 8) k).tripped) + 32 * b2n x.lpiOn + 256 * held) 0) u) ∧
    (∀ d, Ready infoModRead t c s → let u := taken infoModRead c s
      let x : ModXfer := { ref := refAt infoModRead c s, write := false, dev := arg c 1 1 % 128, bank := arg c 2 1, page := arg c 3 1, offset := arg c 4 1,
                           len := arg c 5 1, data := [], outAddr := arg c 8 8 }
      arg c 0 1 ≤ 3 → pageOk x.bank x.page = true → 1 ≤ x.len → x.len ≤ 128 → x.offset + x.len ≤ 256 → 4 * arg c 0 1 < laneCount u →
      (busAt u (arg c 0 1)).xfer = none → d.length = x.len →
        exec (.modRead c { outcome := 1, data := d }) s = answered infoModRead c s (okOut d.length 0 x.outAddr d)
          (keepPages (arg c 0 1) x d (freeBus (arg c 0 1) (startXfer (arg c 0 1) x u)))) ∧
    (∀ d, Ready infoModWrite t c s → let u := taken infoModWrite c s
      let x : ModXfer := { ref := refAt infoModWrite c s, write := true, dev := arg c 1 1 % 128, bank := arg c 2 1, page := arg c 3 1, offset := arg c 4 1,
                           len := arg c 5 1, data := slice c.payload 8 (arg c 5 1), outAddr := 0 }
      arg c 0 1 ≤ 3 → pageOk x.bank x.page = true → 1 ≤ x.len → x.len ≤ 8 → x.offset + x.len ≤ 256 → 4 * arg c 0 1 < laneCount u →
      (busAt u (arg c 0 1)).xfer = none →
        exec (.modWrite c { outcome := 1, data := d }) s = answered infoModWrite c s (ok x.data.length 0)
          (keepPages (arg c 0 1) x x.data (freeBus (arg c 0 1) (startXfer (arg c 0 1) x u)))) ∧
    (Ready infoPortLoopback t c s → let u := taken infoPortLoopback c s
      let p := arg c 0 1
      let m := arg c 1 1
      p ≤ 15 → m ≤ 3 → p < laneCount u → (m = 0 ∨ u.mode = .proving) → (portAt u p).cfg.mode = 1 →
        ((portAt u p).lb = m → exec (.portLoopback c) s = answered infoPortLoopback c s (ok m 0) u) ∧
        ((portAt u p).lb ≠ m →
          exec (.portLoopback c) s = answered infoPortLoopback c s (ok m 0) (updPort p (fun x => { x with lb := m })
            (if (portAt u p).lb = 2 ∨ m = 2 then linkDown p (wireDone p u) else wireDone p u)))) ∧
    (Ready infoTestgenSet t c s → let u := taken infoTestgenSet c s
      testgenBad u c.payload = false → 4 * arg c 0 1 < laneCount u → (arg c 2 1 % 4 = 0 ∨ u.mode = .proving) →
        exec (.testgenSet c) s = answered infoTestgenSet c s (ok 0 0) (updGen (arg c 0 1) (setGen c.payload u.time.t) u)) ∧
    (Ready infoTestgenStatus t c s → let u := taken infoTestgenStatus c s
      arg c 0 8 ≤ 3 → 4 * arg c 0 8 < laneCount u → let g := genAt u (arg c 0 8)
        exec (.testgenStatus c) s = answered infoTestgenStatus c s (okOut (b2n g.run + 2 * b2n g.check) 0 (arg c 8 8)
          (toLe 8 g.sent ++ toLe 8 g.checked ++ toLe 8 g.seqGap ++ toLe 8 g.seqOoo ++ toLe 8 g.payErr ++ toLe 8 (unsigned 64 g.latMin) ++
            toLe 8 (unsigned 64 g.latMax) ++ toLe 8 (unsigned 64 g.latSum))) u)

/-! ## Tables and packet processing -/

/-- The table writes write all of their records or none (R189, R190, R196, R199, R203, R205 to R207, R210, R215 to R218, R263, R266, R276), and the
table reads answer with what is stored and count. Where a clause follows a choice of the model and no rule, it is that of log 34. -/
def Obligations.TableRows : Prop :=
  WritesTable .graphWrite infoGraphWrite writeGraph graphRecSize id ∧ WritesTable .bindSet infoBindSet writeBinds (fun _ => 4) id ∧
  WritesTable .treeWrite infoTreeWrite writeTrees (fun _ => 16) id ∧ WritesTable .treesetWrite infoTreesetWrite writeTreeSet (fun _ => 48) (fun _ => 0) ∧
  WritesTable .ruleWrite infoRuleWrite writeRules (fun _ => 8) id ∧ WritesTable .classWrite infoClassWrite writeClasses (fun _ => 8) id ∧
  WritesTable .spreadSet infoSpreadSet writeSpreads (fun _ => 64) (fun _ => 0) ∧ WritesTable .indirWrite infoIndirWrite writeIndir (fun _ => 2) id ∧
  WritesTable .policerWrite infoPolicerWrite writePolicers (fun _ => 32) id ∧ WritesTable .schedWrite infoSchedWrite writeSched (fun _ => 48) id ∧
  WritesTable .curveWrite infoCurveWrite writeCurves (fun _ => 8) id ∧
  ∀ (t : Target) (c : Cmd) (s : State),
    (Ready infoAlistWrite t c s → let u := taken infoAlistWrite c s
      tablesLocked u = false → ∀ v, writeAlist (arg c 0 2) (arg c 4 4) (writeRecs 8 c) u = .ok v →
        ((alistWords (writeRecs 8 c)).findSome? (fun x => wordAbsent u x.2) = none →
          exec (.alistWrite c) s = answered infoAlistWrite c s (ok (arg c 8 4) 0) v) ∧
        (∀ b, (alistWords (writeRecs 8 c)).findSome? (fun x => wordAbsent u x.2) = some b →
          exec (.alistWrite c) s = answered infoAlistWrite c s (err stNoUnit b) u)) ∧
    (Ready infoFlowcntRead t c s → let u := taken infoFlowcntRead c s
      let first := arg c 0 4
      let n := arg c 4 2
      1 ≤ n → n ≤ 4096 → first + n ≤ 65536 →
        let out := ((List.range n).map fun i =>
          let x := Store.get (0, 0) (first + i) u.tables.flowCnt
          toLe 8 x.1 ++ toLe 8 x.2).flatten
        let cnt := if bit (arg c 6 2) 0 then u.tables.flowCnt.filter fun x => !(decide (first ≤ x.1) && decide (x.1 < first + n)) else u.tables.flowCnt
        exec (.flowcntRead c) s = answered infoFlowcntRead c s (okOut n 0 (arg c 8 8) out) { u with tables := { u.tables with flowCnt := cnt } }) ∧
    (Ready infoProgramList t c s →
      let l := (List.range 256).filterMap fun p => (Config.program p).map fun x => toLe 1 p ++ toLe 1 0 ++ toLe 2 (programBudget x.2.1) ++ toLe 4 x.2.2 ++ programName x.1
      16 * l.length ≤ arg c 8 8 →
        exec (.programList c) s = answered infoProgramList c s (okOut l.length 0 (arg c 0 8) l.flatten) (taken infoProgramList c s)) ∧
    (Ready infoPolicerRead t c s → let u := taken infoPolicerRead c s
      1 ≤ arg c 4 4 → arg c 4 4 ≤ 4096 → arg c 0 4 + arg c 4 4 ≤ 16384 →
        exec (.policerRead c) s = answered infoPolicerRead c s (okOut (arg c 4 4) 0 (arg c 8 8) ((List.range (arg c 4 4)).map fun i =>
          let x := Store.get (0, 0, 0) (arg c 0 4 + i) u.cis.polCnt
          toLe 8 x.1 ++ toLe 8 x.2.1 ++ toLe 8 x.2.2).flatten) u) ∧
    (Ready infoQueueStatus t c s → let u := taken infoQueueStatus c s
      let k := arg c 0 4
      let q := arg c 4 4
      k ≤ 2 → q < (if k = 0 then 256 else if k = 1 then 4096 else 16384) →
        let x : SchedNode × NodeState := if k = 0 then (groupRec u.tables.active q, groupSt u q)
          else if k = 1 then (netRec u.tables.active q, Store.get {} q u.cis.netQs) else (hostRec u.tables.active q, Store.get {} q u.cis.hostQs)
        let n := fillNode (nowNs u) x.1 x.2
        exec (.queueStatus c) s = answered infoQueueStatus c s (okOut 0 0 (arg c 8 8)
          (toLe 8 (statusDepth u k q) ++ toLe 8 n.deficit ++ toLe 8 (unsigned 64 (n.tc / 8000000)) ++ toLe 8 (unsigned 64 (n.tp / 8000000)) ++
            toLe 8 n.dropG ++ toLe 8 n.dropY ++ toLe 8 n.dropR ++ toLe 8 n.sent)) u)

/-- A packet returns from a well's engine, learns, or gets its cipher result, and its action list goes on (R209, R212 to R214, R228, R277 to R279,
R291 to R294, R430). Where a clause follows a choice of the model and no rule, it is that of logs 10 and 35. -/
def Obligations.EngineRows : Prop :=
  ∀ (n : Nat) (p : Packet) (w : Nat) (s u : State),
    ((enginePkt s n).any (fun p => earlierOut s p) = false → takeEngine n s = some (p, w, u) → p.live = true → pktPoisoned u p = false →
      (∀ r, engineDeclared (engineUse s n).1 r = false → exec (.engineReturn n r) s = .next (settle (raise 512 0 (dropPkt p (count (cDev 24) u))))) ∧
      (∀ r, engineDeclared (engineUse s n).1 r = true → engineOk p r = true →
        let v := r.flows.foldl (fun t f => countFlow f.1 f.2.1 f.2.2 t) (r.ems.foldl (fun t e => engineEm e t) u)
        let x := r.copies.foldl (fun a c => engineCopy w c a) ([], p, v)
        let back (q : Packet) : Packet := { q with bytes := r.data, slots := slotsHead r.head q.slots, colour := r.colour, queue := r.queue }
        (r.drop = true → exec (.engineReturn n r) s = .next (settle (placeCopies x.1 (dropPkt x.2.1 x.2.2)))) ∧
        (r.drop = false → r.data = x.2.1.bytes → exec (.engineReturn n r) s = .next (settle (runWords 17 x.1 (back x.2.1) x.2.2))) ∧
        (∀ q y, r.drop = false → r.data ≠ x.2.1.bytes → ensureBuffer x.2.1 r.data.length x.2.2 = .ok (q, y) →
          exec (.engineReturn n r) s = .next (settle (runWords 17 x.1 (back q) y)))) ∧
      (∀ r, engineDeclared (engineUse s n).1 r = true → engineOk p r = false → exec (.engineReturn n r) s = .next (settle (raise 512 0 (dropPkt p (count (cDev 25) u)))))) ∧
    (takeEngine n s = some (p, w, u) →
      exec (.engineBudgetExceeded n) s = .next (settle (raise 512 0 (dropPkt p (count (cDev 23) u)))) ∧
      exec (.engineFault n false) s = .next (settle (raise 512 0 (dropPkt p (count (cDev 24) u)))) ∧
      exec (.engineFault n true) s = .next (settle (raise 512 0 (dropPkt p (count (cDev 25) u))))) ∧
    (s.cis.learning.find? (fun p => p.num == n) = some p →
      let v := { s with cis := { s.cis with learning := s.cis.learning.filter fun p => p.num != n } }
      let x := listWord v p p.next
      let t := bits x 48 6
      let set := Store.get ({} : TreeSet) (bindOf (bankFor v p.epoch) p).treeSet (bankFor v p.epoch).treeSets
      let k := emKey (emAt v t) (selectKey (keyFields p set) (bits x 40 8) (emAt v t).keyLen)
      let rule := (bits x 24 16 + (if bit x 23 then p.port.getD 16 else 0)) % 65536
      (emDefined v t && emPoisoned v t k) = false →
        ((learnKey t k rule v).1 = true →
          exec (.learnComplete n) s = .next (settle (runActions { p with next := p.next + 1 } (learnKey t k rule v).2))) ∧
        ((learnKey t k rule v).1 = false →
          let y := floodPkt { p with next := p.next + 1 } (bits x 0 16) 0 0xFFFF (learnFail t (learnKey t k rule v).2)
          exec (.learnComplete n) s = .next (settle (runWords 17 y.1 y.2.1 y.2.2)))) ∧
    (∀ stream unit m, cipherAwake s stream unit = true → candidate (unitMsgs s stream unit) = some m →
      (unitMsgs s stream unit).find? (fun m => m.state == 1) = none →
      exec (.cipherMessageStart stream unit) s = .next (settle (updMsg m.pkt.num (fun m => { m with state := 1, startAt := s.time.t }) s))) ∧
    (∀ stream unit m r, cipherAwake s stream unit = true → candidate (unitMsgs s stream unit) = some m →
      (unitMsgs s stream unit).find? (fun m => m.state == 1) = some r →
      let preempts := decide (s.time.t < feedEnd s r) && decide (r.urgency < m.urgency) &&
        !(m.state == 0 && decide (8 ≤ ((unitMsgs s stream unit).filter fun m => m.state == 2).length))
      (preempts = true →
        exec (.cipherMessageStart stream unit) s = .next (settle (updMsg m.pkt.num (fun m => { m with state := 1, startAt := s.time.t })
          (updMsg r.pkt.num (fun m => { m with state := 2, fed := fedBy s m }) s)))) ∧
      (preempts = false → let v := advanceTo (feedEnd s r) s
        exec (.cipherMessageStart stream unit) s = .next (settle (updMsg m.pkt.num (fun m => { m with state := 1, startAt := v.time.t })
          (updMsg r.pkt.num (fun m => { m with state := 3, fed := m.blocks, startAt := feedEnd v r }) v))))) ∧
    (∀ m, s.cipher.msgs.find? (fun m => m.pkt.num == n && (m.state == 1 || m.state == 3)) = some m →
      let x := cipherFinish m (advanceTo (feedEnd s m + (if m.stream then 0 else cycleTime s 0 30)) s)
      exec (.cipherResult n) s = .next (settle (match x.1 with
        | some q => runActions q x.2
        | none => x.2)))

/-- The exact-match and Sieve commands have their effects (R219 to R227, R230 to R238, R246, R247). Where a clause follows a choice of the model and
no rule, it is that of log 34. -/
def Obligations.MatchTableCommands : Prop :=
  ∀ (t : Target) (c : Cmd) (s : State),
    (Ready infoEmDefine t c s → let u := taken infoEmDefine c s
      (∀ v, emDefine c.payload u = .ok v → exec (.emDefine c) s = answered infoEmDefine c s (ok (emCapacity (readEm c.payload)) 0) v) ∧
      (∀ a, emDefine c.payload u = .error a → exec (.emDefine c) s = answered infoEmDefine c s a u)) ∧
    (Ready infoEmUpdate t c s → let u := taken infoEmUpdate c s
      let l := records 80 (arg c 4 4) (c.payload.drop 16)
      emDefined u (arg c 0 4) = true → (∀ b ∈ l, fld b 0 1 = 1 ∨ fld b 0 1 = 2) →
      ∀ k v, applyRecords (emRecord (arg c 0 4)) 0 l u = (k, none, v) →
        exec (.emUpdate c) s = answered infoEmUpdate c s (ok k (emValid v (arg c 0 4))) v) ∧
    (Ready infoEmLookup t c s → let u := taken infoEmLookup c s
      let n := arg c 0 8
      let k := emKey (emAt u n) (slice c.payload 8 64)
      emDefined u n = true → emPoisoned u n k = false →
        (emFind (emAt u n) k = none → exec (.emLookup c) s = answered infoEmLookup c s (ok 0 0) u) ∧
        (∀ i, emFind (emAt u n) k = some i → let e := Store.get {} i (emAt u n).entries
          exec (.emLookup c) s = answered infoEmLookup c s
            (ok (1 + 2 ^ 16 * e.rule + 2 ^ 32 * b2n e.static + 2 ^ 33 * b2n e.learned + 2 ^ 34 * e.idle) e.user) u)) ∧
    (Ready infoEmAgedRead t c s → let u := taken infoEmAgedRead c s
      let m := arg c 8 8
      1 ≤ m → m ≤ 1024 →
        exec (.emAgedRead c) s = answered infoEmAgedRead c s
          (okOut (u.tables.aged.take m).length (u.tables.aged.drop m).length (arg c 0 8) ((u.tables.aged.take m).map agedBytes).flatten)
          { u with tables := { u.tables with aged := u.tables.aged.drop m } }) ∧
    (Ready infoSieveDefine t c s → let u := taken infoSieveDefine c s
      (∀ v, sieveDefine c.payload u = .ok v → exec (.sieveDefine c) s = answered infoSieveDefine c s (ok (sieveCapacity (readSieve c.payload)) 0) v) ∧
      (∀ a, sieveDefine c.payload u = .error a → exec (.sieveDefine c) s = answered infoSieveDefine c s a u)) ∧
    (Ready infoSieveUpdate t c s → let u := taken infoSieveUpdate c s
      let l := records 48 (arg c 4 4) (c.payload.drop 16)
      sieveDefined u (arg c 0 4) = true → (∀ b ∈ l, sieveBad (sieveAt u (arg c 0 4)) b = false) →
      ∀ k mv f v, applySieve (arg c 0 4) 0 0 l u = (k, mv, f, v) →
        exec (.sieveUpdate c) s = answered infoSieveUpdate c s { f.getD (ok 0 0) with r0 := k, r1 := mv } v) ∧
    (Ready infoSieveSearch t c s → let u := taken infoSieveSearch c s
      let k := sieveKey (slice c.payload 8 20)
      sieveDefined u (arg c 0 8) = true → sievePoisoned u (sieveAt u (arg c 0 8)) k = false →
        (sieveHits (sieveAt u (arg c 0 8)) k = [] → exec (.sieveSearch c) s = answered infoSieveSearch c s (ok 0xFFFFFFFF 0) u) ∧
        (∀ r rest, sieveHits (sieveAt u (arg c 0 8)) k = r :: rest →
          exec (.sieveSearch c) s = answered infoSieveSearch c s (ok (r.1 + 2 ^ 32 * b2n (!rest.isEmpty)) r.2.rule) u)) ∧
    (Ready infoSieveStep t c s → let u := taken infoSieveStep c s
      let k := sieveKey (slice c.payload 8 20)
      sieveDefined u (arg c 0 4) = true → arg c 4 4 < sieveCapacity (sieveAt u (arg c 0 4)) →
      sievePoisoned u (sieveAt u (arg c 0 4)) k = false →
        let hits := (sieveHits (sieveAt u (arg c 0 4)) k).filter fun r => decide (arg c 4 4 < r.1)
        (hits = [] → exec (.sieveStep c) s = answered infoSieveStep c s (ok 0xFFFFFFFF 0) u) ∧
        (∀ r rest, hits = r :: rest → exec (.sieveStep c) s = answered infoSieveStep c s (ok (r.1 + 2 ^ 32 * b2n (!rest.isEmpty)) r.2.rule) u))

/-- The sweeper at an entry (R229, R230): of a table that is not defined or does not age it visits none; a static or empty entry and one that holds a
poisoned word stay; one hit since the last visit starts again; one that was idle is marked; one still idle is removed, counted and recorded, with
EM_AGED when the record is the first, or AGED_LOST when 1,024 wait. -/
def Obligations.SweeperAgesEntries : Prop :=
  (∀ (table index : Nat) (s : State), emDefined s table = false ∨ (emAt s table).ageMs = 0 → exec (.sweeperVisit table index) s = .next (settle s)) ∧
  ∀ (table index : Nat) (s : State), emDefined s table = true → (emAt s table).ageMs ≠ 0 →
    let e := Store.get {} index (emAt s table).entries
    let v := updEm table (fun t => { t with sweep := (index + 1) % emCapacity t }) s
    ((e.key = [] ∨ e.static = true ∨ poisonedIn v 9 (emAddr table index) 128 = true) → exec (.sweeperVisit table index) s = .next (settle v)) ∧
    (e.key ≠ [] → e.static = false → poisonedIn v 9 (emAddr table index) 128 = false →
      (e.hit = true → exec (.sweeperVisit table index) s = .next (settle (emWrite table index { e with hit := false, idle := 0 } v))) ∧
      (e.hit = false → e.idle = 0 → exec (.sweeperVisit table index) s = .next (settle (emWrite table index { e with idle := 1 } v))) ∧
      (e.hit = false → e.idle ≠ 0 → let w := count (cEm table 2) (emWrite table index {} v)
        (1024 ≤ w.tables.aged.length → exec (.sweeperVisit table index) s = .next (settle (count (cDev 28) w))) ∧
        (w.tables.aged.length < 1024 →
          let x := { w with tables := {
            w.tables with aged := w.tables.aged ++ [{ table := table, learned := e.learned, rule := e.rule, user := e.user, time := nowNs w, key := e.key }] } }
          exec (.sweeperVisit table index) s = .next (settle (if w.tables.aged.isEmpty then raise 640 0 x else x)))))

/-- COMMIT to the current epoch answers OK with DETAIL 1 and does nothing; to a new one it checks every reference of the inactive bank, and only then
arms the switch (R240 to R243, R246). The switch, the drain, the copy and the reads of the epochs follow. Where a clause follows a choice of the model
and no rule, it is that of log 34. -/
def Obligations.CommitRows : Prop :=
  (∀ (c : Cmd) (s : State), Ready infoCommit .device c s → let u := taken infoCommit c s
    let new := arg c 0 2
    let drain := if arg c 4 4 = 0 then 10000 else arg c 4 4
    (new = u.tables.epoch → exec (.commit c) s = answered infoCommit c s { status := stOk, detail := 1, r0 := new } u) ∧
    (new ≠ u.tables.epoch → drain ≤ 1000000 →
      (u.tables.commit.isSome = true ∨ u.tables.loading = true → exec (.commit c) s = answered infoCommit c s { status := stBusy } u) ∧
      (u.tables.commit = none → u.tables.loading = false →
        (∀ v, refReason u.tables.inactive u = some v → exec (.commit c) s = answered infoCommit c s (err stState v) u) ∧
        (refReason u.tables.inactive u = none → exec (.commit c) s = runsOn infoCommit c s { u with tables := {
          u.tables with commit := some { ref := refAt infoCommit c s, newEpoch := new, drainUs := drain, switchAt := max (arg c 8 8) (nowNs u), group := false } } })))) ∧
  (∀ (l : Nat) (c : Cmd) (s : State), Ready infoCommit (.aquifer l) c s → let u := taken infoCommit c s
    let new := arg c 0 2
    let drain := if arg c 4 4 = 0 then 10000 else arg c 4 4
    (arg c 8 8 = 0 → exec (.commit c) s = answered infoCommit c s (err stBadLength 8) u) ∧
    (arg c 8 8 ≠ 0 → drain ≤ 1000000 → ∀ v, groupChange (refAt infoCommit c s) c l false new drain (arg c 8 8) new
        (fun x => if new = x.tables.epoch then .ok x else armCommit (refAt infoCommit c s) new drain (arg c 8 8) true x) u = (v, none) →
      exec (.commit c) s = runsOn infoCommit c s v)) ∧
  (∀ (t : Target) (c : Cmd) (s : State), Ready infoEpochGet t c s → let u := taken infoEpochGet c s
    let base (drain : Nat) (running copying : Bool) := u.tables.epoch + 2 ^ 16 * drain + 2 ^ 32 * b2n running + 2 ^ 33 * b2n copying +
      2 ^ 34 * b2n (!u.tables.written.isEmpty)
    (u.tables.commit = none → exec (.epochGet c) s = answered infoEpochGet c s (ok (base u.tables.epoch false false) 0) u) ∧
    (∀ x, u.tables.commit = some x → x.switched = true → x.copying = false →
      exec (.epochGet c) s = answered infoEpochGet c s (ok (base x.oldEpoch true false) (holdersOf u x.oldEpoch).length) u) ∧
    (∀ x, u.tables.commit = some x → x.switched = false ∨ x.copying = true →
      exec (.epochGet c) s = answered infoEpochGet c s (ok (base u.tables.epoch false x.copying) 0) u)) ∧
  ∀ (s : State) (x : CommitSt), s.tables.commit = some x →
    (x.switched = false → let v := switchEpoch x (advanceNs x.switchAt s)
      exec .commitSwitch s = .next (settle (if x.group then { v with aq := { v.aq with armed := none, change := none } } else v))) ∧
    (x.switched = true → x.copying = false →
      (holdersOf s x.oldEpoch = [] →
        exec .epochDrainEnd s = .next (settle (startCopy x s))) ∧
      (holdersOf s x.oldEpoch ≠ [] → s.mode ≠ .shutIn →
        let v := evictEpoch x.oldEpoch (advanceTo (x.switchedAt + x.drainUs * 1000 * 65536) s)
        exec .drainMaxExpiry s = .next (settle (startCopy { x with evicted := x.evicted + v.1 } v.2)))) ∧
    (x.copying = true →
      let v := copyPoison s
      let w := raise 641 0 {
        v with tables := { v.tables with inactive := v.tables.active, written := [], commit := none }, spdm := { v.spdm with imagesCommitted := v.spdm.images } }
      exec .commitDone s = .next (settle (if x.replied then w else replyGroup x.ref (ok w.tables.epoch x.evicted) w)))

/-! ## The Cistern and the cipher units -/

/-- The Cistern's commands have their effects (R248 to R259, R272, R273, R275). Where a clause follows a choice of the model and no rule, it is that
of logs 6 and 36. -/
def Obligations.CisternRows : Prop :=
  (∀ s : State, s.mode ≠ .dry → s.mode ≠ .dormant → exec .siltAuditRefresh s = .next (settle (siltRefresh s))) ∧
  ∀ (t : Target) (c : Cmd) (s : State),
    (Ready infoPoolLayout t c s →
      exec (.poolLayout c) s = answered infoPoolLayout c s (ok (layoutBytes (readLayout c.payload)) 0)
        (loadLayout (readLayout c.payload) (taken infoPoolLayout c s))) ∧
    (Ready infoQuotaSet t c s → 1026 ≤ arg c 0 4 → arg c 0 4 ≤ 1058 →
      exec (.quotaSet c) s = answered infoQuotaSet c s (ok 0 0) (setQuota (arg c 0 4) (arg c 4 4) (taken infoQuotaSet c s))) ∧
    (Ready infoOwnerQuery t c s → let u := taken infoOwnerQuery c s
      let o := arg c 0 8
      o ≤ 1058 → exec (.ownerQuery c) s = answered infoOwnerQuery c s (ok (chargeOf u o % 2 ^ 48 + 2 ^ 48 * genOf u o)
        (quotaOf u o + 2 ^ 32 * (u.cis.bufs.filter fun b => b.owner == o && orphaned u b).length)) u) ∧
    (Ready infoForfeit t c s → let u := taken infoForfeit c s
      let o := arg c 0 8
      let l := u.cis.bufs.filter fun b => b.owner == o && ((decide (o < 1026) && !(funcOf u o).created) || orphaned u b)
      o ≤ 1058 → exec (.forfeit c) s = answered infoForfeit c s (ok l.length 0) (l.foldl (fun t b => takeBuf b.num (forfeitTo u c.chan) t) u)) ∧
    (Ready infoSiltRead t c s → let u := taken infoSiltRead c s
      let f := arg c 0 2
      let n := arg c 2 2
      1 ≤ n → n ≤ 256 → f + n ≤ 4096 →
        exec (.siltRead c) s = answered infoSiltRead c s (okOut n 0 (arg c 8 8) ((List.range n).map fun i => siltBytes u (f + i)).flatten) u) ∧
    (Ready infoSiltReclaim t c s → let u := taken infoSiltReclaim c s
      1 ≤ arg c 4 4 → arg c 4 4 ≤ 3600000 →
        exec (.siltReclaim c) s = answered infoSiltReclaim c s (ok 0 0)
          { u with cis := { u.cis with reclaim := bit (arg c 0 1) 0, reclaimMs := arg c 4 4 } }) ∧
    (Ready infoPoolStatus t c s → let u := taken infoPoolStatus c s
      exec (.poolStatus c) s = answered infoPoolStatus c s
        (okOut 0 0 (arg c 0 8) ((List.range 8).map fun i => toLe 4 (poolOutside u i) ++ toLe 4 (min (poolFree u i) (poolReserve u i)) ++
          toLe 4 (u.cis.least.getD i 0) ++ zeros 4).flatten)
        { u with cis := { u.cis with least := if u.cis.layout.isEmpty then [] else (List.range 8).map (poolOutside u) } }) ∧
    (Ready infoWmSet t c s → arg c 0 4 ≤ 63 → arg c 4 4 / 2 ^ 28 ≤ 7 → arg c 8 4 / 2 ^ 24 ≤ 100 →
      exec (.wmSet c) s = answered infoWmSet c s (ok 0 0)
        (wmWrite (arg c 0 4) (some (BitVec.ofNat 32 (arg c 4 4))) (some (BitVec.ofNat 32 (arg c 8 4))) (taken infoWmSet c s))) ∧
    (Ready infoWmRead t c s → let u := taken infoWmRead c s
      let n := arg c 0 4
      let w := Store.get ({} : Wm) n u.cis.wms
      n ≤ 63 → exec (.wmRead c) s = answered infoWmRead c s (ok (wmLive u w + 2 ^ 32 * b2n w.crossed + 2 ^ 33 * b2n w.above) w.count)
        (if bit (arg c 4 4) 0 then { u with cis := { u.cis with wms := Store.set {} n { w with crossed := false, count := 0 } u.cis.wms } } else u))

/-- The cipher commands have their effects (R284 to R289, R296). Where a clause follows a choice of the model and no rule, it is that of logs 12 and
37. -/
def Obligations.CipherCommands : Prop :=
  ∀ (t : Target) (c : Cmd) (s : State),
    (Ready infoCtxLoad t c s → let u := taken infoCtxLoad c s
      let n := arg c 0 4
      let k := readCtx (slice c.payload 8 96)
      (u.entropyReady = false → exec (.ctxLoad c) s = answered infoCtxLoad c s { status := stNotReady } u) ∧
      (u.entropyReady = true → (ctxAt u n).ty = 0 → (ctxAt u n).deleting = none → ctxUsed u k.fn < (funcOf u k.fn).cipherCtx →
        exec (.ctxLoad c) s =
          if Config.onCurve (slice c.payload 104 96) = false then answered infoCtxLoad c s (err stDenied 0x11) u
          else match Config.unwrapKey (imageId u).1 (imageId u).2 (slice c.payload 104 96) (slice c.payload 200 56) (wrapInfo u n) with
            | none => answered infoCtxLoad c s (err stDenied 0x10) u
            | some w => answered infoCtxLoad c s (ok (((ctxAt u n).loadGen + 1) % 2 ^ 32) 0)
                (clearPoison 9 (ctxAddr n) 256 (updCtx n (fun _ =>
                  { k with key := w.take 32, key2 := slice w 32 16, loadGen := ((ctxAt u n).loadGen + 1) % 2 ^ 32 }) u)))) ∧
    (Ready infoCtxDelete t c s → let u := taken infoCtxDelete c s
      let n := arg c 0 8
      let v := updCtx n (fun k => { k with ty := 0, deleting := some (refAt infoCtxDelete c s), doneAfter := 0 }) u
      (ctxAt u n).ty ≠ 0 →
        (u.cipher.msgs.any (fun m => m.ctx == n) = false → exec (.ctxDelete c) s = answered infoCtxDelete c s (ok 0 0) (updCtx n ctxErase v)) ∧
        (u.cipher.msgs.any (fun m => m.ctx == n) = true → exec (.ctxDelete c) s = runsOn infoCtxDelete c s v)) ∧
    (Ready infoCtxRead t c s → let u := taken infoCtxRead c s
      let n := arg c 0 8
      poisonedIn u 9 (ctxAddr n) 256 = false →
        exec (.ctxRead c) s = answered infoCtxRead c s (okOut (ctxAt u n).loadGen 0 (arg c 8 8) (ctxBytes (ctxAt u n))) u) ∧
    (Ready infoCtxUpdate t c s → let u := taken infoCtxUpdate c s
      let n := arg c 0 4
      let sel (i : Nat) : Bool := bit (arg c 4 1) i
      (ctxAt u n).ty ≠ 0 → (sel 2 = true → (ctxAt u n).ty = 1 → 32 ≤ arg c 24 4 ∧ arg c 24 4 ≤ 512) →
      (sel 0 = true → (ctxAt u n).txSeq < arg c 8 8) →
        exec (.ctxUpdate c) s = answered infoCtxUpdate c s (ok 0 0) (updCtx n (fun k => {
          k with txSeq := if sel 0 then arg c 8 8 else k.txSeq, rxTop := if sel 1 then arg c 16 8 else k.rxTop,
                 window := if sel 2 then arg c 24 4 else k.window, soft := if sel 3 then arg c 32 8 else k.soft,
                 hard := if sel 4 then arg c 40 8 else k.hard }) u)) ∧
    (Ready infoCipherStatus t c s → let u := taken infoCipherStatus c s
      let susp (stream : Bool) (n : Nat) : Bytes := toLe 1 ((unitMsgs u stream n).filter fun m => m.state == 2).length
      exec (.cipherStatus c) s = answered infoCipherStatus c s (okOut (u.cipher.aesAwake.toNat + 4096 * u.cipher.strAwake.toNat) 0 (arg c 0 8)
        (toLe 16 (u.cipher.nonce.getD 0).toNat ++ ((List.range 12).map (susp false)).flatten ++ ((List.range 4).map (susp true)).flatten ++ zeros 32)) u)

/-! ## Rings and Pumps -/

/-- The queue commands and the events of a queue pair have their effects (R254, R297, R301 to R316, R330, R331). Where a clause follows a choice of
the model and no rule, it is that of logs 22 and 38. -/
def Obligations.RingRows : Prop :=
  (∀ (t : Target) (c : Cmd) (s : State),
    (Ready infoQueueCreate t c s → let u := taken infoQueueCreate c s
      ∀ f n, queueOf u c = .ok (f, n) → queueBad u f c = false → (isVf f = true ∨ arg c 2 2 ≠ 0) → qpExists u n = false →
        let q : Qp := { fn := f, idx := arg c 2 2, ty := arg c 4 1, keepErr := bit (arg c 5 1) 0, log2Sq := arg c 6 1, log2Cq := arg c 7 1,
                        sqAddr := arg c 8 8, cqAddr := arg c 16 8, vector := arg c 24 2, modUs := arg c 26 2, modCount := arg c 28 2, state := 1 }
        exec (.queueCreate c) s = answered infoQueueCreate c s (ok n 0) { u with rings := { u.rings with qps := Store.set {} n q u.rings.qps } }) ∧
    (∀ f n, Ready infoQueueStop t c s → let u := taken infoQueueStop c s
      queueOf u c = .ok (f, n) → ownRing u c n = false →
        ((qpAt u n).state = 0 → exec (.queueStop c) s = answered infoQueueStop c s (err stState 1) u) ∧
        ((qpAt u n).state = 1 → (qpAt u n).ty ≠ 2 → exec (.queueStop c) s = runsOn infoQueueStop c s (beginStop n (refAt infoQueueStop c s) false u)) ∧
        ((qpAt u n).state = 1 → (qpAt u n).ty = 2 →
          exec (.queueStop c) s = answered infoQueueStop c s (ok (stopAdmin f n u).1 0) (admReady f n false (stopAdmin f n u).2)) ∧
        ((qpAt u n).state = 2 → exec (.queueStop c) s = answered infoQueueStop c s (ok 0 0) (admReady f n false u))) ∧
    (∀ f n, Ready infoQueueDestroy t c s → let u := taken infoQueueDestroy c s
      queueOf u c = .ok (f, n) → ownRing u c n = false →
        ((qpAt u n).state = 1 → (qpAt u n).ty ≠ 2 →
          exec (.queueDestroy c) s = runsOn infoQueueDestroy c s (beginStop n (refAt infoQueueDestroy c s) true u)) ∧
        ((qpAt u n).state = 1 → (qpAt u n).ty = 2 →
          exec (.queueDestroy c) s = answered infoQueueDestroy c s (ok (stopAdmin f n u).1 0) (admReady f n false (removeQp n (stopAdmin f n u).2))) ∧
        ((qpAt u n).state = 2 → exec (.queueDestroy c) s = answered infoQueueDestroy c s (ok 0 0) (admReady f n false (removeQp n u)))) ∧
    (∀ f n, Ready infoQueueStart t c s → let u := taken infoQueueStart c s
      queueOf u c = .ok (f, n) →
        ((qpAt u n).state = 2 → exec (.queueStart c) s = answered infoQueueStart c s (ok 0 0) (admReady f n true (updQp n restartQp u))) ∧
        ((qpAt u n).state = 1 → exec (.queueStart c) s = answered infoQueueStart c s { status := stState } u)) ∧
    (∀ f n, Ready infoQueueQuery t c s → let u := taken infoQueueQuery c s
      queueOf u c = .ok (f, n) →
        exec (.queueQuery c) s = answered infoQueueQuery c s (okOut 0 0 (arg c 8 8) (queueRecord (qpAt u n))) u)) ∧
  ∀ (qp : Nat) (s : State),
    ((qpAt s qp).fetching = true →
      let v := finishReads (.fetch qp) s
      (∀ data bad, qpRuns v (qpAt s qp) = false → exec (.descriptorFetchComplete qp data bad) s = .next (settle (endFetch qp v))) ∧
      ∀ data, qpRuns v (qpAt s qp) = true →
        exec (.descriptorFetchComplete qp data true) s = .next (settle (endFetch qp (updQp qp (fun q => { q with due := 0 }) v))) ∧
        ((qpAt s qp).ty ≠ 2 → exec (.descriptorFetchComplete qp data false) s =
          .next (settle (endFetch qp (useDescs qp ((records 32 (data.length / 32) data).take (qpAt s qp).asked) v)))) ∧
        ((qpAt s qp).ty = 2 → exec (.descriptorFetchComplete qp data false) s =
          .next (settle (endFetch qp (useCmds qp (sqSize (qpAt s qp)) (data.take (64 * (qpAt s qp).asked)) v))))) ∧
    (∀ frame f data, (qpAt s qp).frames.find? (fun (f : TxFrame) => f.reading && f.tx.tag == frame) = some f → fnUp s (qpAt s qp).fn = true →
      inService s = true →
      (data.length < f.tx.len → exec (.txDataReadComplete qp frame data false) s = .next (settle (failTxRead qp frame qDmaFault 3 s))) ∧
      exec (.txDataReadComplete qp frame data true) s = .next (settle (failTxRead qp frame qDmaFault 3 s)) ∧
      (∀ g v, f.tx.len ≤ data.length → takeRead qp frame s = some (g, v) →
        exec (.txDataReadComplete qp frame data false) s = .next (settle (hostFrame (qpAt v qp).fn g (data.take g.tx.len) v)))) ∧
    (qpRuns s (qpAt s qp) = true → (qpAt s qp).ty = 0 → (∃ f ∈ (qpAt s qp).frames, f.waits = true ∧ f.reading = false) →
      exec (.txReadRetry qp) s = .next (settle (startTxRead qp s))) ∧
    (∀ t, (qpAt s qp).modAt = some t → (qpAt s qp).arm = true →
      exec (.moderationTimeout qp) s = .next (settle (fireQp qp (advanceTo (t + (qpAt s qp).modUs * 1000 * 65536) s))))

/-- The Pump commands and a channel's start and end have their effects (R320 to R328, R332). Where a clause follows a choice of the model and no rule,
it is that of log 38. -/
def Obligations.PumpRows : Prop :=
  (∀ (t : Target) (c : Cmd) (s : State),
    (Ready infoPumpAssign t c s → let u := taken infoPumpAssign c s
      let n := arg c 0 2
      n < 255 → arg c 2 2 ≤ 1 → (pumpAt u n).state = 0 →
        exec (.pumpAssign c) s = answered infoPumpAssign c s (ok 0 0)
          (updPump n (fun x => { x with pf := if arg c 2 2 = (if n < 128 then 0 else 1) then none else some (arg c 2 2) }) u)) ∧
    (Ready infoPcqSet t c s → let u := taken infoPcqSet c s
      let m := arg c 0 1
      m ≤ 31 → arg c 1 1 ≤ 1 → 4 ≤ arg c 2 2 → arg c 2 2 ≤ 16 → (arg c 4 2 = 0xFFFF ∨ arg c 4 2 ≤ 2047) → arg c 8 8 % 4096 = 0 →
      (∀ x ∈ u.rings.chans, x.2.state = 0 ∨ chPcq x.2 ≠ m) →
        exec (.pcqSet c) s = answered infoPcqSet c s (ok 0 0)
          (updPcq m (fun _ => { pf := arg c 1 1, log2 := arg c 2 2, vector := arg c 4 2, addr := arg c 8 8 }) u)) ∧
    (Ready infoPumpRecover t c s → let u := taken infoPumpRecover c s
      let pf := pfOfChan u c.chan
      let ch : PumpCh := { src := BitVec.ofNat 64 (arg c 0 8), dst := BitVec.ofNat 64 (arg c 8 8), count := BitVec.ofNat 32 (arg c 16 4),
                           shape := BitVec.ofNat 32 (arg c 20 4), ctrl := BitVec.ofNat 32 (4 * (arg c 24 1 % 16)) }
      (∀ d, chBad u pf ch = some d → exec (.pumpRecover c) s = answered infoPumpRecover c s (ok 0 (qMalformed + 2 ^ 32 * d)) u) ∧
      (chBad u pf ch = none → (sidebandCut u c.chan && (chSrcSpace ch == 0 || chDstSpace ch == 0)) = false →
        let v := { u with rings := { u.rings with recover := u.rings.recover ++ [{ ref := refAt infoPumpRecover c s, pf := pf, ch := ch }] } }
        exec (.pumpRecover c) s = runsOn infoPumpRecover c s (if u.rings.recover.isEmpty then recoverStart v else v))) ∧
    (Ready infoPumpStatus t c s → let u := taken infoPumpStatus c s
      let st (n : Nat) : Nat := if n = 255 then recoverState u else (pumpAt u n).state
      exec (.pumpStatus c) s = answered infoPumpStatus c s (okOut (sumpUsed u) 0 (arg c 0 8) ((List.range 256).map fun n => BitVec.ofNat 8 (st n))) u)) ∧
  ∀ (ch : Nat) (s : State),
    (inService s = true → (pumpAt s ch).state = 4 → exec (.channelStart ch) s = .next (settle (pumpBegin ch s))) ∧
    (inService s = true → (pumpAt s ch).state = 1 → pcqFree (pcqAt s (chPcq (pumpAt s ch))) = true →
      let c := pumpAt s ch
      let v := updPcq (chPcq c) (fun p => { p with reserved := p.reserved + 1 }) s
      (c.ctrl.getLsbD 1 = true → exec (.channelStart ch) s = .next (settle (endPump ch qAborted 0 0 v))) ∧
      (∀ d, c.ctrl.getLsbD 1 = false → chBad v (pumpPf ch c) c = some d → exec (.channelStart ch) s = .next (settle (endPump ch qMalformed d 0 v))) ∧
      (c.ctrl.getLsbD 1 = false → chBad v (pumpPf ch c) c = none → exec (.channelStart ch) s = .next (settle (pumpBegin ch v)))) ∧
    (∀ data, ch < 255 → (pumpAt s ch).state = 2 ∨ (pumpAt s ch).state = 3 → let c := pumpAt s ch
      let src := pumpSource s c data
      c.done ≠ c.count.toNat → c.count.toNat ≤ src.length → pumpPoisoned s c = false →
        let w := updPump ch (fun _ => { c with state := 3, done := c.count.toNat, early := [], bad := false })
          (pumpWrite ch (pumpPf ch c) c c.done ((reshuffle (chMode c) (chK c) (chCell c) src).drop c.done) s)
        (destHeld w ch = false → exec (.pumpTransferComplete ch data) s = .next (settle (endPump ch qOk 0 c.count.toNat w))) ∧
        (destHeld w ch = true → exec (.pumpTransferComplete ch data) s = .next (settle w)))

/-! ## Time and fronthaul -/

/-- The time commands have their effects (R336 to R339, R344 to R348). Where a clause follows a choice of the model and no rule, it is that of log 39.
-/
def Obligations.TimeCommands : Prop :=
  ∀ (t : Target) (c : Cmd) (s : State),
    (Ready infoTimeConfig t c s →
      (timeCfgOk (readTimeCfg c.payload) = true →
        exec (.timeConfig c) s = answered infoTimeConfig c s (ok 0 0) (applyTimeCfg (readTimeCfg c.payload) (taken infoTimeConfig c s))) ∧
      (timeCfgOk (readTimeCfg c.payload) = false → exec (.timeConfig c) s = answered infoTimeConfig c s (err stBadLength 0) (taken infoTimeConfig c s))) ∧
    (Ready infoTimeGet t c s → let u := taken infoTimeGet c s
      exec (.timeGet c) s = answered infoTimeGet c s (ok (nowNs u) (u.time.t % 65536 + 2 ^ 16 * u.time.state.code + 2 ^ 18 * b2n (unlocked u) +
        2 ^ 32 * unsigned 32 u.time.lastOffset)) u) ∧
    (Ready infoTimeAdjust t c s → let u := taken infoTimeAdjust c s
      let step := signed 64 (arg c 8 8)
      let freq := signed 32 (arg c 16 4)
      u.time.cfg.source = 1 → -500000000 ≤ freq → freq ≤ 500000000 →
        (arg c 0 1 = 2 → u.time.state ≠ .free →
          ∃ v, exec (.timeAdjust c) s = answered infoTimeAdjust c s (ok (nowNs v) 0) v ∧ v.time.freqPpt = freq ∧ v.time.t = u.time.t) ∧
        (arg c 0 1 = 1 → u.time.state = .acquiring → 0 ≤ (u.time.t : Int) + step * 65536 → (u.time.t : Int) + step * 65536 < 2 ^ 80 →
          ∃ v, exec (.timeAdjust c) s = answered infoTimeAdjust c s (ok (nowNs v) 0) v ∧ (v.time.t : Int) = u.time.t + step * 65536)) ∧
    (Ready infoTimePortSet t c s → let u := taken infoTimePortSet c s
      let p := arg c 0 1
      let v := updPort p (fun x => { x with ptp := readPtpPort c.payload }) u
      p ≤ 15 → ptpPortOk (readPtpPort c.payload) = true → p < laneCount u →
        exec (.timePortSet c) s = answered infoTimePortSet c s (ok 0 0)
          (if v.time.bestPort = some p then { v with time := { v.time with bestPort := none } } else v)) ∧
    (Ready infoPpsInRead t c s → let u := taken infoPpsInRead c s
      let n := arg c 8 8
      1 ≤ n → n ≤ 16 →
        exec (.ppsInRead c) s = answered infoPpsInRead c s
          (okOut (u.time.ppsFifo.take n).length u.time.ppsLost (arg c 0 8) ((u.time.ppsFifo.take n).map edgeBytes).flatten)
          { u with time := { u.time with ppsFifo := u.time.ppsFifo.drop n } }) ∧
    (Ready infoSynceSet t c s → let u := taken infoSynceSet c s
      let k := arg c 0 1
      let lane := arg c 1 1
      let on := bit (arg c 3 1) 0
      let v := { u with time := { u.time with synce := Store.upd {} k (fun r => { r with enable := on, lane := lane, div := arg c 2 1 }) u.time.synce } }
      k ≤ 1 → lane ≤ 15 → arg c 2 1 ≤ 7 → lane < laneCount u →
        exec (.synceSet c) s = answered infoSynceSet c s (ok 0 0) (synceDrive k (!(on && laneLocked v lane)) v))

/-- The events of device time have their effects (R337, R339, R340, R343 to R345). Where a clause follows a choice of the model and no rule, it is
that of logs 10, 15 and 17. -/
def Obligations.TimeEvents : Prop :=
  ∀ s : State,
    (timeRuns s = true → s.time.state = .locked → 2 ≤ s.time.cfg.source →
      exec .syncLoss s = .next (settle (enterTState .holdover (advanceTo (s.time.lastMeas + s.time.cfg.syncLossMs * 1000000 * 65536) s)))) ∧
    (timeRuns s = true → s.time.state = .holdover →
      exec .holdoverExpiry s = .next (settle (enterTState .free (advanceTo (s.time.holdSince + s.time.cfg.holdoverS * 1000000000 * 65536) s)))) ∧
    (timeRuns s = true → let t := stampAt s.time.t 0
      let short := match s.time.ppsLast with
        | some x => decide (t - x < 500000000 * 65536)
        | none => false
      let e : PpsEdge := { t := t, short := short, unlocked := unlocked s }
      let v := { s with time := { s.time with ppsLast := some t } }
      let w := if v.time.ppsFifo.length < 16 then { v with time := { v.time with ppsFifo := v.time.ppsFifo ++ [e] } }
        else count (cDev 41) { v with time := { v.time with ppsLost := v.time.ppsLost + 1 } }
      exec .ppsInEdge s = .next (settle (if s.time.cfg.source = 3 ∧ !short then measure (secondOffset t) w else w))) ∧
    (s.time.cfg.ppsOutEn = true → modeTalks s = true → s.time.ppsOut = false → (s.time.cfg.ppsGate = false ∨ unlocked s = false) →
      let v := advanceNs (ppsNext s) s
      exec .ppsOutRise s = .next (settle (emit (.pinLevel .ppsOut true) { v with time := { v.time with ppsOut := true, ppsRose := v.time.t } }))) ∧
    (s.time.ppsOut = true → let v := advanceTo (s.time.ppsRose + s.time.cfg.ppsWidthMs * 1000000 * 65536) s
      exec .ppsOutFall s = .next (settle (emit (.pinLevel .ppsOut false) { v with time := { v.time with ppsOut := false } }))) ∧
    (∀ pin, (synceAt s pin).enable = true →
      ((synceAt s pin).low = false → exec (.synceLaneLoss pin) s = .next (settle (raise (900 + pin) 0 (synceDrive pin true s)))) ∧
      ((synceAt s pin).low = true → exec (.synceClockReturn pin) s = .next (settle (synceDrive pin false s)))) ∧
    (∀ port, s.time.cfg.source = 2 → (portAt s port).ptp.role ≠ 0 → lineUp s port = true →
      let r := (portAt s port).ptp
      let v := updPtp port (fun r => { r with seqNo := (r.seqNo + 1) % 65536 }) s
      (s.time.bestPort ≠ some port →
        (r.oneStep = true → exec (.ptpTransmit port mSync) s = .next (settle (ptpSend port mSync 0 r.seqNo (zeros 10) [] true 0 v))) ∧
        (r.oneStep = false → exec (.ptpTransmit port mSync) s = .next (settle (ptpSend port mSync 0x0200 r.seqNo (zeros 10) [] false 2 v))) ∧
        exec (.ptpTransmit port mAnnounce) s = .next (settle (ptpSend port mAnnounce 0 r.seqNo
          (Config.announceBody port ((s.time.bestPort.bind fun b => (portAt s b).ptp.announce).getD 0)) [] false 0 v))) ∧
      (s.time.bestPort = some port →
        exec (.ptpTransmit port mDelayReq) s = .next (settle (ptpSend port mDelayReq 0 r.seqNo (zeros 10) [] false 1 v))) ∧
      (r.profile = 2 → exec (.ptpTransmit port mSignaling) s = .next (settle (ptpSend port mSignaling 0 r.seqNo
        (List.replicate 10 0xFF ++ toBe 2 4 ++ toBe 2 6 ++ toBe 1 0 ++ toBe 1 (unsigned 8 r.logSync) ++ toBe 4 300) [] false 0 v))))

/-- The fronthaul rows have their effects (R349 to R351, R353, R355, R357, R361). Where a clause follows a choice of the model and no rule, it is that
of logs 17 and 39. -/
def Obligations.FronthaulRows : Prop :=
  (∀ (t : Target) (c : Cmd) (s : State),
    (Ready infoFhCarrierSet t c s →
      (∀ v, setCarrier (some (refAt infoFhCarrierSet c s)) c.payload (taken infoFhCarrierSet c s) = .ok v →
        exec (.fhCarrierSet c) s = runsOn infoFhCarrierSet c s v) ∧
      (∀ a, setCarrier (some (refAt infoFhCarrierSet c s)) c.payload (taken infoFhCarrierSet c s) = .error a →
        exec (.fhCarrierSet c) s = answered infoFhCarrierSet c s a (taken infoFhCarrierSet c s))) ∧
    (Ready infoFhFlowSet t c s → let u := taken infoFhFlowSet c s
      let l := records 32 (arg c 8 4) (c.payload.drop 16)
      (∀ v, writeFlows (arg c 0 2) (arg c 4 4) l u = .ok v → (∀ b ∈ l, (readFlow b).port < laneCount u) →
        exec (.fhFlowSet c) s = answered infoFhFlowSet c s (ok (arg c 8 4) 0) v) ∧
      (∀ i, writeFlows (arg c 0 2) (arg c 4 4) l u = .error i → exec (.fhFlowSet c) s = answered infoFhFlowSet c s (err stBadLength i) u)) ∧
    (Ready infoFhFlowStatus t c s → let u := taken infoFhFlowStatus c s
      let f := arg c 0 4
      let n := arg c 4 2
      1 ≤ n → n ≤ 4096 → f + n ≤ 4096 → bit (arg c 6 1) 0 = false →
        exec (.fhFlowStatus c) s = answered infoFhFlowStatus c s (okOut n 0 (arg c 8 8) ((Store.run {} f n u.fh.cnt).map flowCntBytes).flatten) u) ∧
    (Ready infoFhGridQuery t c s → let u := taken infoFhGridQuery c s
      let n := arg c 0 8
      let k := carrierAt u n
      let time : Int := (arg c 8 8 * 65536 : Nat)
      let p := slotParts k (slotAtTime k time)
      let sym := ((List.range 14).filter fun i => decide (symStart k p.1 p.2.1 p.2.2 i ≤ time)).getLastD 0
      n ≤ 31 → k.enable = true →
        exec (.fhGridQuery c) s = answered infoFhGridQuery c s (ok (unsigned 64 (symStart k p.1 p.2.1 p.2.2 sym / 65536))
          ((p.1 % 256).toNat + 2 ^ 8 * p.2.1 + 2 ^ 12 * p.2.2 + 2 ^ 16 * sym + 2 ^ 20 * symDir k p.1 p.2.1 p.2.2 sym + 2 ^ 22 * b2n (suspended u n))) u)) ∧
  ∀ (n : Nat) (s : State), timeRuns s = true →
    (suspended s n = true → unlocked s = false → let v := advanceTo (boundaryFrom (carrierAt s n) 1 s.time.t).toNat s
      exec (.carrierResume n) s = .next (settle (raise (992 + n) 0 { v with fh := { v.fh with suspended := Store.set false n false v.fh.suspended } }))) ∧
    (∀ t, (flowAt s n).enable = true → (flowAt s n).tx = false → carrierRuns s (flowAt s n).carrier = true → nextClose s n (flowAt s n) = some t →
      let v := advanceTo (t + (flowAt s n).winB * 65536).toNat s
      exec (.fhWindowClose n) s = .next (settle { v with fh := { s.fh with closed := Store.set 0 n (t.toNat + 1) s.fh.closed } })) ∧
    ((Store.get ({} : PendCarrier) n s.fh.pending).effAt ≠ 0 → let w := Store.get ({} : PendCarrier) n s.fh.pending
      let v := advanceTo w.effAt s
      let v := rearmSwitches n { v with fh := {
        v.fh with pending := Store.set {} n {} v.fh.pending, carriers := Store.set {} n w.record v.fh.carriers,
                  olds := Store.set {} n { record := carrierAt v n, effAt := w.effAt } v.fh.olds } }
      let v := if w.record.enable && !w.record.runUnlocked then v else { v with fh := { v.fh with suspended := Store.set false n false v.fh.suspended } }
      (∀ r, w.ref = some r → exec (.carrierRecordEffective n) s = .next (settle (replyIfRunning r (ok (w.effAt / 65536) 0) (timeGate (suspendAll v))))) ∧
      (w.ref = none → exec (.carrierRecordEffective n) s = .next (settle (timeGate (suspendAll v)))))

/-! ## The Combiner -/

/-- The Combiner's commands have their effects (R362, R363, R367 to R370, R380, R382, R383). Where a clause follows a choice of the model and no rule,
it is that of log 40. -/
def Obligations.CombinerCommands : Prop :=
  ∀ (t : Target) (c : Cmd) (s : State),
    (Ready infoCombSetWrite t c s → let u := taken infoCombSetWrite c s
      let n := arg c 0 1
      let x := readSet c.payload
      setBad u x = false →
        ((combSet u n).enable = false → x.enable = false →
          exec (.combSetWrite c) s = answered infoCombSetWrite c s (setAnswer (updSet n (fun _ => x) u) n) (updSet n (fun _ => x) u)) ∧
        (∀ clay, (combSet u n).enable = false → x.enable = true → admitSet u x = .ok clay →
          let v := combPoint (updSet n (fun _ => { x with inClay := clay, enabledAt := u.time.t }) u)
          exec (.combSetWrite c) s = answered infoCombSetWrite c s (setAnswer v n) v) ∧
        (∀ d, (combSet u n).enable = false → x.enable = true → admitSet u x = .error d →
          exec (.combSetWrite c) s = answered infoCombSetWrite c s (err stNoResource d) u) ∧
        ((combSet u n).enable = true → (combSet u n).disabling = none → x.enable = false →
          let k := carrierAt u (combSet u n).carrier
          exec (.combSetWrite c) s = runsOn infoCombSetWrite c s (updSet n (fun y => {
            y with disabling := some (refAt infoCombSetWrite c s), stopAt := if k.dirs.isEmpty then u.time.t else (boundaryFrom k 1 u.time.t).toNat, nextRec := c.payload }) u)) ∧
        ((combSet u n).enable = true → x.enable = true → exec (.combSetWrite c) s = answered infoCombSetWrite c s (err stState 1) u)) ∧
    (Ready infoCombCflowWrite t c s → let u := taken infoCombCflowWrite c s
      let l := records 32 (arg c 8 4) (c.payload.drop 16)
      (∀ v, writeCflows (arg c 0 2) (arg c 4 4) l u = .ok v → exec (.combCflowWrite c) s = answered infoCombCflowWrite c s (ok (arg c 8 4) 0) v) ∧
      (∀ i, writeCflows (arg c 0 2) (arg c 4 4) l u = .error i → exec (.combCflowWrite c) s = answered infoCombCflowWrite c s (err stBadLength i) u)) ∧
    (Ready infoCombWeights t c s → let u := taken infoCombWeights c s
      let n := arg c 0 2
      let x := combSet u n
      x.enable = true → x.armed = none → x.loading = none → inactiveBusy u n x = false → arg c 16 4 = bankBytes x → sidebandCut u c.chan = false →
        exec (.combWeights c) s = runsOn infoCombWeights c s (hostRead (readerOf u c.chan) (.weights n) (arg c 8 8) (arg c 16 4)
          (updSet n (fun x => { x with loading := some (refAt infoCombWeights c s), loadLen := arg c 16 4 })
            (updSet n (fun x => { x with spare := none, oldBank := none }) u)))) ∧
    (Ready infoCombSwitch t c s → let u := taken infoCombSwitch c s
      let n := arg c 0 8
      let x := combSet u n
      let at_ := max (arg c 8 8 * 65536) (u.time.t + 100000 * 65536)
      (x.armed.isSome = true → exec (.combSwitch c) s = answered infoCombSwitch c s { status := stBusy } u) ∧
      (x.armed = none → x.spare = none → exec (.combSwitch c) s = answered infoCombSwitch c s (err stState 1) u) ∧
      (x.armed = none → x.spare.isSome = true → exec (.combSwitch c) s = runsOn infoCombSwitch c s (updSet n (fun x => {
        x with armed := some (refAt infoCombSwitch c s), armedAt := at_, switchAt := (boundaryFrom (carrierAt u x.carrier) 1 at_).toNat }) u))) ∧
    (Ready infoCombStatus t c s → let u := taken infoCombStatus c s
      let n := arg c 0 1
      let x := combSet u n
      let k := Store.get ({} : CombCnt) n u.comb.cnts
      let busy := (u.comb.syms.filter fun (y : SymCtx) => y.set == n && !y.closed).length
      exec (.combStatus c) s = answered infoCombStatus c s
        (okOut (groupsAwake u) 0 (arg c 8 8) (((List.range 14).map fun i => toLe 8 (Store.get 0 i k.cnt)).flatten ++
          toLe 2 ((x.bank.map (·.wepoch)).getD 0) ++ toLe 1 busy ++ toLe 1 (b2n x.armed.isSome) ++ zeros 12))
        (if bit (arg c 1 1) 0 then { u with comb := { u.comb with cnts := Store.set {} n {} u.comb.cnts } } else u))

/-- The Combiner's events have their effects (R368, R369, R372 to R378, R382). Where a clause follows a choice of the model and no rule, it is that of
logs 17 and 40. -/
def Obligations.CombinerEvents : Prop :=
  ∀ (n : Nat) (s : State), let x := combSet s n
    (∀ r, x.disabling = some r → (∀ y ∈ s.comb.syms, y.set ≠ n) → timeRuns s = true →
      let v := disarmSwitch n (some (err stAborted 0)) (advanceTo x.stopAt s)
      let v := updSet n (fun y => { readSet x.nextRec with loading := y.loading, loadLen := y.loadLen }) v
      exec (.combSetDisableDone n) s = .next (settle (replyIfRunning r (setAnswer v n) v))) ∧
    (∀ r data, x.loading = some r → let v := endReads (.weights n) (updSet n (fun x => { x with loading := none, loadLen := 0 }) s)
      let b := readBank x (spareHalf x) data
      (data.length < x.loadLen → exec (.weightBankLoaded n { data := data }) s = .next (settle (replyIfRunning r (err stRetry 0x20) v))) ∧
      (x.loadLen ≤ data.length → x.enable = true → fld data 0 1 = n → b.shifts.any (fun v => decide (24 < v)) = false →
        exec (.weightBankLoaded n { data := data }) s = .next (settle (replyIfRunning r (ok x.loadLen 0)
          (clearPoison (weightMem x) (combMem n b.half) 1073741824 (updSet n (fun x => { x with spare := some b }) v)))))) ∧
    (combRuns s = true →
      (∀ r, x.armed = some r →
        exec (.combBankSwitch n) s = .next (settle (replyIfRunning r (ok (x.switchAt / 65536) ((x.spare.map (·.wepoch)).getD 0)) (switchBank n s)))) ∧
      (∀ c, x.dir = 0 → firstSym s n (fun c => !c.closed) = some c →
        let v := advanceTo (closeInstant x c.tSym) s
        let m := (missingOf x c).length
        let v := noteEnded n c.tSym (combCount n 8 m v)
        let v := releaseClaims c (if m = 0 then v else raise (1056 + n) 0 (combCount n 9 1 v))
        exec (.uplinkSymbolClose n) s = .next (settle (updSym n c.tSym (fun y =>
          { y with closed := true, closeAt := closeInstant x c.tSym, unlocked := unlocked v, claims := [] }) v))) ∧
      (∀ c b, x.dir = 0 → firstSym s n (·.closed) = some c → let v := removeSym n c.tSym s
        bankOfSlot x c.slotAt = some b → symPoisoned v x n b = none →
        let behind := decide (1000000000 * 65536 < (v.time.t - c.closeAt) * 14000 * 2 ^ c.mu)
        exec (.uplinkRecordWrite n) s = .next (settle ((List.range x.layers).foldl (writeLayer n x b c behind) v))) ∧
      (∀ c b v0, x.dir = 1 →
        ((firstSym s n (fun c => !c.closed && dlComplete x c) = some c ∧ v0 = s) ∨
          (firstSym s n (fun c => !c.closed && dlComplete x c) = none ∧ firstSym s n (fun c => !c.closed) = some c ∧
            v0 = advanceTo (c.tSym - x.dlLead * 65536) s)) →
        let v := noteEnded n c.tSym (combCount n 11 ((List.range x.layers).filter fun l => decide (gotOf c l < x.numPrb)).length v0)
        bankOfSlot x c.slotAt = some b → symPoisoned v x n b = none →
        let sat := ((List.range x.antennas).map fun a => (combRow x b c a x.startPrb x.numPrb).2).sum
        exec (.downlinkCombine n) s = .next (settle (endDl n c.tSym x
          (updSym n c.tSym (fun c => { c with closed := true, closeAt := v.time.t }) (combCount n 10 sat v))))) ∧
      (∀ c b antenna, x.dir = 1 → firstSym s n (fun c => c.closed && (dlPending s n x c).contains antenna) = some c → bankOfSlot x c.slotAt = some b →
        exec (.dlFrameReady n antenna) s = .next (settle (endDl n c.tSym x
          (updSym n c.tSym (fun c => { c with doneAnt := antenna :: c.doneAnt }) (sendAntenna n antenna x b c s))))))

/-! ## Stitch links and the aquifer -/

/-- The rows of the frames of a stitch link (R384, R389, R390): a bad frame is counted and answered by NAK; the frame expected next, on a link at work
that does not rest and whose NAK bit is clear, is acknowledged, takes its credits and has its own effect; a NULL frame has only its acknowledgement.
The rows of a link's and of the aquifer's timers have their effects (R389, R396, R398, R399, R401 to R403). Where a clause follows a choice of the
model and no rule, it is that of logs 17 and 25. -/
def Obligations.StitchRows : Prop :=
  (∀ k ∈ ([.pkt, .cmd, .rsp, .null, .hello, .cert, .proof, .admitted, .leave, .widthPropose, .widthAccept, .widthRefuse, .widthSwitch, .rest, .restAck,
      .ping, .pong, .prepare, .confirm, .refuse, .abort, .stitchCtrlBad] : List (Nat → StitchFrame → Instr)),
    ∀ (port : Nat) (f : StitchFrame) (s : State), stitchUp s port = true → modeTalks s = true →
      let ty := fld f.data 0 1 % 16
      let u := takeAck port f.data s
      (frameGood f.data = false → exec (k port f) s = .next (settle (sendNull port true (count (cPort port 18) s)))) ∧
      (frameGood f.data = true → (stitchAt s port).resting = false → bit (fld f.data 2 2) 13 = false → (stitchAt u port).lost = false →
        (ty = uNull → exec (k port f) s = .next (settle u)) ∧
        (ty ≠ uNull → fld f.data 0 2 / 16 = (stitchAt u port).rxSeq →
          let c := creditsFor (fld f.data 4 2 % 16384)
          let v := updStitch port (fun x => {
            x with rxSeq := (x.rxSeq + 1) % 4096, rxAny := true,
                   owe0 := if ty = uPkt ∨ ty = uCmd then x.owe0 + c else x.owe0,
                   owe1 := if ty = uRsp then x.owe1 + c else x.owe1,
                   lastTraffic := if ty = uCtrl then x.lastTraffic else u.time.t }) u
          let w := takeFrame port ty (slice f.data 8 (fld f.data 4 2 % 16384)) v
          exec (k port f) s = .next (settle (if (stitchAt w port).lost then w else sendNull port false w))))) ∧
  (∀ (port : Nat) (s : State), let u := stitchAt s port
    (stitchUp s port = true → u.retry ≠ [] →
      (u.replays < 8 → exec (.stitchRetryTimeout port) s = .next (settle (u.retry.foldl (fun t f => putFrame port f.ty f.seq f.payload false t)
        (count (cPort port 19) (updStitch port (fun u => { u with replays := u.replays + 1 }) s))))) ∧
      (8 ≤ u.replays → exec (.stitchRetryTimeout port) s = .next (settle (loseLink port s)))) ∧
    (stitchUp s port = true → s.mode ≠ .dormant → exec (.stitchSignalLoss port) s = .next (settle (loseLink port s))) ∧
    (stitchUp s port = true → inService s = true → s.aq.cfg.restTicks ≠ 0 → u.resting = false → u.restPend = false → u.waiting = [] →
      let v := advanceTo (u.lastTraffic + s.aq.cfg.restIdleUs * 1000 * 65536) s
      exec (.restIdle port) s = .next (settle (sendCtrl port 0x20 (toLe 2 (restWant v port) ++ toLe 4 (seepCount v))
        (updStitch port (fun u => { u with restPend := true }) v)))) ∧
    (s.mode = .dormant → (portAt s port).cfg.mode = 2 → exec (.wake port) s = .next (settle (latchWake 4 (endRest port s)))) ∧
    (s.mode ≠ .dormant → stitchUp s port = true → u.resting = true →
      exec (.wake port) s = .next (settle (endRest port s)) ∧
      (u.listenAt = none →
        exec (.restScheduledWake port) s = .next (settle (let v := advanceTo (u.lastTraffic + seepTicks u.restPeriod - s.aq.cfg.guardUs * 1000 * 65536) s;
          emit (.stitchSignal port 0 0) (updStitch port (fun u => { u with listenAt := some v.time.t }) v))) ∧
        exec (.wakePatternHeard port) s = .next (settle (emit (.stitchSignal port 0 0) (endRest port s)))) ∧
      (∀ t, u.listenAt = some t → let guard := s.aq.cfg.guardUs * 1000 * 65536
        (s.time.t - t ≤ guard → exec (.wakePatternHeard port) s = .next (settle (cleanWake port s))) ∧
        (guard < s.time.t - t → s.time.t - t ≤ 4 * guard → exec (.wakePatternHeard port) s = .next (settle (driftWake port 1 s))) ∧
        (4 * guard < s.time.t - t → exec (.wakePatternHeard port) s = .next (settle (emit (.stitchSignal port 1 0) (driftWake port 2 s)))))) ∧
    (∀ t, u.listenAt = some t →
      exec (.wakePatternTimeout port) s = .next (settle (emit (.stitchSignal port 1 0)
        (driftWake port 2 (advanceTo (t + 4 * s.aq.cfg.guardUs * 1000 * 65536) s)))))) ∧
  ∀ s : State,
    (inService s = true → s.aq.group.isSome = true → s.aq.gateway = s.aq.index →
      let v := (otherMembers s 0).foldl (fun t k => judgeSkew k t) s
      exec .skewMeasure s = .next (settle (((otherMembers v 0).filterMap (routeTo v)).eraseDups.foldl
        (fun t p => sendCtrl p 0x30 (toLe 8 (nowNs t)) t) v))) ∧
    (∀ x, s.aq.change = some x → x.waiting ≠ [] → exec .confirmDeadline s = .next (settle (abortChange (advanceNs x.deadline s)))) ∧
    (∀ m, s.aq.group.isSome = true →
      (m = s.aq.index → s.aq.gateway ≠ s.aq.index → routeTo s s.aq.gateway = none →
        exec (.memberRouteTimeout m) s = .next (settle (raise 1089 m (standAlone s)))) ∧
      (m ≠ s.aq.index → (memberAt s m).present = true → routeTo s m = none →
        exec (.memberRouteTimeout m) s = .next (settle (memberGone m s))))

/-- The commands of the aquifer, of power, and of counters and monitors have their effects (R392, R394, R396, R404, R405, R414, R419, R420, R422 to
R425, R446, R448, R450 to R452). Where a clause follows a choice of the model and no rule, it is that of logs 25, 41 and 42. -/
def Obligations.AquiferPowerAndCounterCommands : Prop :=
  ∀ (t : Target) (c : Cmd) (s : State),
    (Ready infoAqConfig t c s → let u := taken infoAqConfig c s
      (aqCfgOk (readAqCfg c.payload) = true →
        exec (.aqConfig c) s = answered infoAqConfig c s (ok 0 0) { u with aq := { u.aq with cfg := readAqCfg c.payload } }) ∧
      (aqCfgOk (readAqCfg c.payload) = false → exec (.aqConfig c) s = answered infoAqConfig c s (err stBadLength 0) u)) ∧
    (Ready infoAqJoin t c s → let u := taken infoAqJoin c s
      let p := arg c 0 1
      let level := arg c 1 1
      p ≤ 15 → level ≤ 1 → (portAt u p).cfg.mode = 2 → aqBusy u = false →
        (u.entropyReady = false → exec (.aqJoin c) s = answered infoAqJoin c s (err stNotReady 0) u) ∧
        (u.entropyReady = true → (if level = 0 then u.aq.group = none else t.isAquifer = true) → stitchUp u p = true → u.boot.identIncomplete = false →
          exec (.aqJoin c) s = runsOn infoAqJoin c s (sendHello p level true (capTimeout 100000 (refAt infoAqJoin c s) {
            u with aq := { u.aq with join := some { ref := some (refAt infoAqJoin c s), port := p, level := level, since := u.time.t } } })))) ∧
    (Ready infoAqLeave t c s → let u := taken infoAqLeave c s
      let m := arg c 0 8
      m ≤ 63 → u.aq.group.isSome = true → aqBusy u = false →
        (t.isAquifer = true → (ownKeys u).contains (64 * t.level + m) = false → (memberAt u (64 * t.level + m)).present = true →
          ∀ p, routeTo u (64 * t.level + m) = some p →
            exec (.aqLeave c) s = answered infoAqLeave c s (ok 0 0) (memberGone (64 * t.level + m) (sendCtrl p 0x05 (toLe 1 0) u))) ∧
        (t.isAquifer = false → u.aq.gateway ≠ u.aq.index → ∀ p, routeTo u u.aq.gateway = some p →
          exec (.aqLeave c) s = answered infoAqLeave c s (ok 0 0) (raise 1089 u.aq.index (standAlone (sendCtrl p 0x05 (toLe 1 0) u))))) ∧
    (Ready infoAqStatus t c s → let u := taken infoAqStatus c s
      let ks := levelKeys u t.level
      32 * ks.length ≤ arg c 8 8 →
        exec (.aqStatus c) s = answered infoAqStatus c s (okOut (ks.length + 2 ^ 8 * ((levelAt u t.level).map (·.stratum)).getD 2 + 2 ^ 32 * worstPath u t.level)
          0 (arg c 0 8) (ks.map (memberBytes u t.level)).flatten) u) ∧
    (Ready infoAqCertRead t c s → let u := taken infoAqCertRead c s
      ∀ x, levelAt u t.level = some x →
        let out := gatewayChain u ++ Config.groupCert x.group ((levelKeys u t.level).map fun k => (memberAt u k).serial) u.aq.certGen
        exec (.aqCertRead c) s =
          answered infoAqCertRead c s (if arg c 8 8 < out.length then err stBadLength 0 else okOut out.length out.length (arg c 0 8) out) u) ∧
    (Ready infoPowerPolicy t c s → let u := taken infoPowerPolicy c s
      let p := readPolicy c.payload
      (policyBad p = true → exec (.powerPolicy c) s = answered infoPowerPolicy c s (err stBadLength 0) u) ∧
      (policyBad p = false → clips u p = [] →
        exec (.powerPolicy c) s = answered infoPowerPolicy c s (ok 0 0) { u with power := { u.power with policyNext := some p } })) ∧
    (Ready infoPowerCostSet t c s → let u := taken infoPowerCostSet c s
      costBad (readCost c.payload) = false →
        exec (.powerCostSet c) s = answered infoPowerCostSet c s (ok 0 0) { u with power := { u.power with costNext := some (readCost c.payload) } }) ∧
    (Ready infoPowerPlanSet t c s → let u := taken infoPowerPlanSet c s
      arg c 0 1 ≤ 31 → arg c 1 1 ≤ 12 → arg c 2 1 ≤ 12 →
        let p : Plan := { ulAes := arg c 1 1, dlAes := arg c 2 1, ulWells := BitVec.ofNat 16 (arg c 4 2), dlWells := BitVec.ofNat 16 (arg c 6 2) }
        exec (.powerPlanSet c) s = answered infoPowerPlanSet c s (ok 0 0) {
          u with power := { u.power with plansNext := Store.set none (arg c 0 1) (some p) u.power.plansNext } }) ∧
    (Ready infoPowerStatus t c s → let u := taken infoPowerStatus c s
      ∃ out : Bytes, out.length = 64 ∧ (∀ d, d < 14 → out[d]? = some (BitVec.ofNat 8 (pointOf u d))) ∧
        out[14]? = some (BitVec.ofNat 8 (groupsAwake u)) ∧ out[15]? = some (BitVec.ofNat 8 (limitCode u)) ∧
        exec (.powerStatus c) s = answered infoPowerStatus c s (okOut u.power.intervals 0 (arg c 0 8) out) u) ∧
    (Ready infoPowerTelemetry t c s → let u := taken infoPowerTelemetry c s
      ∃ out : Bytes, out.length = 128 ∧ out.take 12 = toLe 8 (nowNs u) ++ toLe 4 u.power.rails.sum ∧
        exec (.powerTelemetry c) s = answered infoPowerTelemetry c s (okOut 0 0 (arg c 0 8) out) u) ∧
    (Ready infoPowerVfRead t c s → arg c 0 1 ≤ 13 →
      exec (.powerVfRead c) s = answered infoPowerVfRead c s (okOut clampPoint 0 (arg c 8 8)
        ((List.range 16).map fun k => toLe 4 (freqKhz (arg c 0 1) k) ++ toLe 2 (pointMv (arg c 0 1) k) ++ zeros 2).flatten) (taken infoPowerVfRead c s)) ∧
    (Ready infoCountersRead t c s → let u := taken infoCountersRead c s
      let first := arg c 0 2
      let n := arg c 2 2
      1 ≤ n → n ≤ 256 → first + n ≤ 65536 → onVfRing c.chan = false →
        exec (.countersRead c) s = answered infoCountersRead c s
          (okOut n (nowNs u) (arg c 8 8) ((List.range n).map fun i => counterRecord u (first + i)).flatten) u) ∧
    (Ready infoCntGrant t c s → let u := taken infoCntGrant c s
      let first := arg c 2 1
      let n := arg c 3 1
      let nums := (List.range n).map fun i => arg c (8 + 2 * i) 2
      arg c 0 2 ≤ 1025 → 1 ≤ n → first + n ≤ 64 → (∀ k ∈ nums, k ≤ 0x07FF ∨ k = 0xFFFF) →
        exec (.cntGrant c) s = answered infoCntGrant c s (ok n 0) (updFunc (arg c 0 2) (fun x => { x with grants := Store.setMany 0xFFFF first nums x.grants }) u)) ∧
    (Ready infoMonConfig t c s → let u := taken infoMonConfig c s
      let x : Monitor := { kind := arg c 2 1, shift := arg c 3 1, index := arg c 4 2, alarm := arg c 8 8 }
      arg c 0 2 ≤ 255 → x.kind ≤ 6 → x.shift ≤ 32 → monIndexOk x.kind x.index = true →
        exec (.monConfig c) s = answered infoMonConfig c s (ok 0 0) { u with monitors := Store.set {} (arg c 0 2) x u.monitors }) ∧
    (Ready infoMonRead t c s → let u := taken infoMonRead c s
      let first := arg c 0 2
      let n := arg c 2 2
      let a := okOut n 0 (arg c 8 8) ((List.range n).map fun i => monRecord u (first + i)).flatten
      let empty (m : Monitor) : Monitor := { kind := m.kind, shift := m.shift, index := m.index, alarm := m.alarm }
      1 ≤ n → first + n ≤ 256 →
        (bit (arg c 4 1) 0 = false → exec (.monRead c) s = answered infoMonRead c s a u) ∧
        (bit (arg c 4 1) 0 = true → exec (.monRead c) s = answered infoMonRead c s a {
          u with monitors := ((List.range n).map fun i => first + i).foldl (fun st k => Store.upd {} k empty st) u.monitors })) ∧
    (Ready infoCntCtxRead t c s → let u := taken infoCntCtxRead c s
      let first := arg c 0 4
      let n := arg c 4 2
      let rec_ (i : Nat) : Bytes :=
        let k := Store.get ({} : CtxRec) (first + i) u.cipher.ctxs
        toLe 8 k.authFail ++ toLe 8 k.replay ++ toLe 8 k.exhausted ++ toLe 8 k.layoutBad
      hasCipher u = true → 1 ≤ n → n ≤ 256 → first + n ≤ maxCtx + 1 →
        exec (.cntCtxRead c) s = answered infoCntCtxRead c s (okOut n 0 (arg c 8 8) ((List.range n).map rec_).flatten) u)

/-! ## Power gates, points and samples; memory protection -/

/-- The rows of gates and wakes, of points and samples, and of memory protection and fatal errors have their effects (R408, R409, R411 to R416, R420,
R421, R426, R427, R433). Where a clause follows a choice of the model and no rule, it is that of logs 17 and 41. -/
def Obligations.GateSampleAndFaultRows : Prop :=
  ∀ s : State,
    (pumpRuns s = true →
      (∀ e, e / 8 < wellCount s → s.power.engGated.getLsbD e = false → isWaking s wkEngine e = false → packetsAt s (e / 8) < (enginesAwake s (e / 8)).length →
        exec (.engineClockGate e) s = .next (settle { s with power := { s.power with engGated := s.power.engGated ||| (1#96 <<< e) } })) ∧
      (∀ w, w < wellCount s → wellAwake s w = true → isWaking s wkWell w = false → enginesAwake s w = [] → packetsAt s w = 0 → bit (planWells s) w = false →
        exec (.wellClockGate w) s = .next (settle { s with power := { s.power with wellCg := s.power.wellCg ||| (1#12 <<< w) } })) ∧
      (∀ w, s.power.wellCg.getLsbD w = true → isWaking s wkWell w = false → (wellFloor s).getLsbD w = false → bit (planWells s) w = false →
        exec (.wellPowerGate w) s = .next (settle {
          s with power := { s.power with wellCg := s.power.wellCg &&& ~~~(1#12 <<< w), wellPg := s.power.wellPg ||| (1#12 <<< w) } })) ∧
      (∀ n, hasCipher s = true → cipherAwake s true n = true → isWaking s wkStream n = false → unitMsgs s true n = [] →
        exec (.cipherUnitGate true n) s = .next (settle { s with cipher := { s.cipher with strAwake := s.cipher.strAwake &&& ~~~(1#4 <<< n) } })) ∧
      (∀ n, hasCipher s = true → cipherAwake s false n = true → isWaking s wkAes n = false → unitMsgs s false n = [] →
        max (aesFloor s) (planAes s) < popcount s.cipher.aesAwake.toNat 12 →
        exec (.cipherUnitGate false n) s = .next (settle { s with cipher := { s.cipher with aesAwake := s.cipher.aesAwake &&& ~~~(1#12 <<< n) } })) ∧
      (∀ k, 1 ≤ k → k ≤ 3 → commandWork s = false →
        exec (.mgmtCoreGate k) s = .next (settle { s with power := { s.power with mgmtCg := s.power.mgmtCg ||| (1#4 <<< k) } })) ∧
      (∀ ch, ch < 16 → exec (.clayChannelPowerDown ch) s = .next (settle { s with power := { s.power with clayPd := s.power.clayPd ||| (1#16 <<< ch) } })) ∧
      (∀ g, hasCombiner s = true → s.comb.awake.getLsbD g = true → s.comb.syms = [] → g < 16 → max s.power.policy.combFloor (groupsDue s) < groupsAwake s →
        exec (.combinerGroupGate g) s = .next (settle { s with comb := { s.comb with awake := s.comb.awake &&& ~~~(1#16 <<< g) } })) ∧
      (∀ k i, isWaking s k i = true → exec (.unitWakeComplete k i) s = .next (settle (openGate k i (sampleWake k i s)))) ∧
      (∀ d, Store.get 0 d s.power.pointTo ≠ 0 →
        let v := {
          s with power := { s.power with points := Store.set 15 d (Store.get 0 d s.power.pointTo - 1) s.power.points, pointTo := Store.set 0 d 0 s.power.pointTo } }
        exec (.pointChangeDone d) s = .next (settle (askMv (neededMv v) v))) ∧
      (∀ util : List Nat,
        let a := autoCal (advanceNs ((nowNs s / 500000 + 1) * 500000) s)
        let v := nextTables { a with power := { a.power with lastUj := a.power.accUj / 1000, accUj := 0 } }
        let w := { v with power := { v.power with intervals := v.power.intervals + 1, overrun := false, r := plannedFj v (nowNs v), n := 0 } }
        exec (.accountingInterval util) s = .next (settle (retryHeld (wmCheck (applyFloors
          ((List.range 14).foldl boundPoint ((List.range 14).foldl (adaptPoint util) w))))))) ∧
      (∀ c uplink i, let k := carrierAt s c
        k.enable = true → k.dirs ≠ [] →
        ((List.range (k.dirs.length + 20)).find? fun (i : Nat) => slotHolds k (slotAtTime k (s.time.t : Int) + (i : Int)) uplink) = some i →
          let v := advanceTo (slotStart k (slotAtTime k (s.time.t : Int) + (i : Int)) - leadTime s).toNat s
          let p := Store.get ({} : Plan) c v.power.plans
          let w := wakeAes (if uplink then p.ulAes else p.dlAes) true (wakeWells (if uplink then p.ulWells else p.dlWells).toNat true v)
          exec (.plannedWake c uplink) s = .next (settle (if hasCombiner w then wakeGroups (groupsDue w) w else w)))) ∧
    (s.mode ≠ .dry →
      (∀ l : List Int, let v := { s with power := { s.power with sensors := l.take 24 } }
        hottest v < 100 * 16 → s.power.clamp = false → s.power.shed = false →
          exec (.sensorSample l) s = .next (settle ((List.range 14).foldl boundPoint {
            v with power := { v.power with clamp := false, clampBelow := none, shed := false, shedBelow := none } }))) ∧
      (∀ l : List Int, let v := { s with power := { s.power with sensors := l.take 24 } }
        105 * 16 ≤ hottest v → hottest v < 110 * 16 → s.power.clamp = false → s.power.shed = false →
          exec (.sensorSample l) s = .next (settle ((List.range 14).foldl boundPoint (raise 1152 0 {
            v with power := { v.power with clamp := true, clampBelow := none, shed := false, shedBelow := none } })))) ∧
      (∀ l : List Nat, let pkgs := ((l.take 8).sum :: s.power.pkgs).take 4
        pkgs.sum ≤ s.power.policy.capMw * pkgs.length → s.power.cap = false →
          exec (.powerSample l) s = .next (settle {
            s with power := { s.power with rails := l.take 8, pkgs := pkgs, accUj := s.power.accUj + (l.take 8).sum * 100, cap := false, capBelow := none } })) ∧
      (∀ l : List Nat, let pkgs := ((l.take 8).sum :: s.power.pkgs).take 4
        s.power.policy.capMw * pkgs.length < pkgs.sum → s.power.cap = false →
          exec (.powerSample l) s = .next (settle (capStep (raise 1155 0 {
            s with power := { s.power with rails := l.take 8, pkgs := pkgs, accUj := s.power.accUj + (l.take 8).sum * 100, cap := true, capBelow := none } })))) ∧
      (∀ n, n ≤ 23 → exec (.thermalTrip n) s = .next (settle (fatal 4 0 0 (raise 1154 0 s)))) ∧
      (∀ m a, memPresent s m = true →
        ((Store.get [] m s.fault.poison).contains a = false →
          exec (.patrolScrub m a 0) s = .next (settle s) ∧
          exec (.patrolScrub m a 1) s = .next (settle (raise 320 m (count (cMem m 0) s))) ∧
          exec (.patrolScrub m a 2) s = .next (settle (raise 321 m (count (cMem m 1) s))) ∧
          ∀ n, 3 ≤ n → exec (.patrolScrub m a n) s = .next (settle (wordLost m a s))) ∧
        ((Store.get [] m s.fault.poison).contains a = true → ∀ n, exec (.patrolScrub m a n) s = .next (settle (wordLost m a s)))) ∧
      ∀ r, r ≤ 7 → exec (.supplyFault r) s = .next (settle (fatal 5 0 0 s))) ∧
    (s.mode = .dry → ∀ r, r ≤ 7 → exec (.supplyFault r) s = .next (settle { s with boot := { s.boot with supplyStopped := true } })) ∧
    (∀ a, exec (.parityError a) s = .next (settle (fatal 3 0 a s))) ∧
    exec .firmwareStateLost s = .next (settle (fatal 2 0 0 s))
end

