-- ==== Sys2Proof/Laws/State.lean ====
section
/-! SUPPORT. What each named update of the state leaves alone: one lemma per field, true by rfl. -/

namespace Sys2Proof.Machine

open Sys2Proof

variable (s : State)

@[simp] theorem emit_pending (o : Out) : (emit o s).pending = s.pending := rfl
@[simp] theorem emit_fuses (o : Out) : (emit o s).fuses = s.fuses := rfl
@[simp] theorem emit_boot (o : Out) : (emit o s).boot = s.boot := rfl
@[simp] theorem emit_mode (o : Out) : (emit o s).mode = s.mode := rfl
@[simp] theorem emit_entryCause (o : Out) : (emit o s).entryCause = s.entryCause := rfl
@[simp] theorem emit_transit (o : Out) : (emit o s).transit = s.transit := rfl
@[simp] theorem emit_armedMode (o : Out) : (emit o s).armedMode = s.armedMode := rfl
@[simp] theorem emit_dormantFrom (o : Out) : (emit o s).dormantFrom = s.dormantFrom := rfl
@[simp] theorem emit_served (o : Out) : (emit o s).served = s.served := rfl
@[simp] theorem emit_entropyReady (o : Out) : (emit o s).entropyReady = s.entropyReady := rfl
@[simp] theorem emit_entropyFailed (o : Out) : (emit o s).entropyFailed = s.entropyFailed := rfl
@[simp] theorem emit_drbgCount (o : Out) : (emit o s).drbgCount = s.drbgCount := rfl
@[simp] theorem emit_blocked (o : Out) : (emit o s).blocked = s.blocked := rfl
@[simp] theorem emit_blockReason (o : Out) : (emit o s).blockReason = s.blockReason := rfl
@[simp] theorem emit_spdm (o : Out) : (emit o s).spdm = s.spdm := rfl
@[simp] theorem emit_wh (o : Out) : (emit o s).wh = s.wh := rfl
@[simp] theorem emit_chans (o : Out) : (emit o s).chans = s.chans := rfl
@[simp] theorem emit_fwd (o : Out) : (emit o s).fwd = s.fwd := rfl
@[simp] theorem emit_chanTab (o : Out) : (emit o s).chanTab = s.chanTab := rfl
@[simp] theorem emit_accepted (o : Out) : (emit o s).accepted = s.accepted := rfl
@[simp] theorem emit_cmdFailed (o : Out) : (emit o s).cmdFailed = s.cmdFailed := rfl
@[simp] theorem emit_boxes (o : Out) : (emit o s).boxes = s.boxes := rfl
@[simp] theorem emit_arbiters (o : Out) : (emit o s).arbiters = s.arbiters := rfl
@[simp] theorem emit_links (o : Out) : (emit o s).links = s.links := rfl
@[simp] theorem emit_fns (o : Out) : (emit o s).fns = s.fns := rfl
@[simp] theorem emit_msix (o : Out) : (emit o s).msix = s.msix := rfl
@[simp] theorem emit_peers (o : Out) : (emit o s).peers = s.peers := rfl
@[simp] theorem emit_atc (o : Out) : (emit o s).atc = s.atc := rfl
@[simp] theorem emit_atsReqs (o : Out) : (emit o s).atsReqs = s.atsReqs := rfl
@[simp] theorem emit_invReqs (o : Out) : (emit o s).invReqs = s.invReqs := rfl
@[simp] theorem emit_heldOut (o : Out) : (emit o s).heldOut = s.heldOut := rfl
@[simp] theorem emit_clay (o : Out) : (emit o s).clay = s.clay := rfl
@[simp] theorem emit_funcs (o : Out) : (emit o s).funcs = s.funcs := rfl
@[simp] theorem emit_ports (o : Out) : (emit o s).ports = s.ports := rfl
@[simp] theorem emit_gens (o : Out) : (emit o s).gens = s.gens := rfl
@[simp] theorem emit_modBus (o : Out) : (emit o s).modBus = s.modBus := rfl
@[simp] theorem emit_tables (o : Out) : (emit o s).tables = s.tables := rfl
@[simp] theorem emit_cis (o : Out) : (emit o s).cis = s.cis := rfl
@[simp] theorem emit_cipher (o : Out) : (emit o s).cipher = s.cipher := rfl
@[simp] theorem emit_rings (o : Out) : (emit o s).rings = s.rings := rfl
@[simp] theorem emit_time (o : Out) : (emit o s).time = s.time := rfl
@[simp] theorem emit_fh (o : Out) : (emit o s).fh = s.fh := rfl
@[simp] theorem emit_comb (o : Out) : (emit o s).comb = s.comb := rfl
@[simp] theorem emit_aq (o : Out) : (emit o s).aq = s.aq := rfl
@[simp] theorem emit_power (o : Out) : (emit o s).power = s.power := rfl
@[simp] theorem emit_evt (o : Out) : (emit o s).evt = s.evt := rfl
@[simp] theorem emit_fault (o : Out) : (emit o s).fault = s.fault := rfl
@[simp] theorem emit_counters (o : Out) : (emit o s).counters = s.counters := rfl
@[simp] theorem emit_monitors (o : Out) : (emit o s).monitors = s.monitors := rfl

@[simp] theorem updFunc_pending (f : Nat) (g : Func → Func) : (updFunc f g s).pending = s.pending := rfl
@[simp] theorem updFunc_out (f : Nat) (g : Func → Func) : (updFunc f g s).out = s.out := rfl
@[simp] theorem updFunc_fuses (f : Nat) (g : Func → Func) : (updFunc f g s).fuses = s.fuses := rfl
@[simp] theorem updFunc_boot (f : Nat) (g : Func → Func) : (updFunc f g s).boot = s.boot := rfl
@[simp] theorem updFunc_mode (f : Nat) (g : Func → Func) : (updFunc f g s).mode = s.mode := rfl
@[simp] theorem updFunc_entryCause (f : Nat) (g : Func → Func) : (updFunc f g s).entryCause = s.entryCause := rfl
@[simp] theorem updFunc_transit (f : Nat) (g : Func → Func) : (updFunc f g s).transit = s.transit := rfl
@[simp] theorem updFunc_armedMode (f : Nat) (g : Func → Func) : (updFunc f g s).armedMode = s.armedMode := rfl
@[simp] theorem updFunc_dormantFrom (f : Nat) (g : Func → Func) : (updFunc f g s).dormantFrom = s.dormantFrom := rfl
@[simp] theorem updFunc_served (f : Nat) (g : Func → Func) : (updFunc f g s).served = s.served := rfl
@[simp] theorem updFunc_entropyReady (f : Nat) (g : Func → Func) : (updFunc f g s).entropyReady = s.entropyReady := rfl
@[simp] theorem updFunc_entropyFailed (f : Nat) (g : Func → Func) : (updFunc f g s).entropyFailed = s.entropyFailed := rfl
@[simp] theorem updFunc_drbgCount (f : Nat) (g : Func → Func) : (updFunc f g s).drbgCount = s.drbgCount := rfl
@[simp] theorem updFunc_blocked (f : Nat) (g : Func → Func) : (updFunc f g s).blocked = s.blocked := rfl
@[simp] theorem updFunc_blockReason (f : Nat) (g : Func → Func) : (updFunc f g s).blockReason = s.blockReason := rfl
@[simp] theorem updFunc_spdm (f : Nat) (g : Func → Func) : (updFunc f g s).spdm = s.spdm := rfl
@[simp] theorem updFunc_wh (f : Nat) (g : Func → Func) : (updFunc f g s).wh = s.wh := rfl
@[simp] theorem updFunc_chans (f : Nat) (g : Func → Func) : (updFunc f g s).chans = s.chans := rfl
@[simp] theorem updFunc_fwd (f : Nat) (g : Func → Func) : (updFunc f g s).fwd = s.fwd := rfl
@[simp] theorem updFunc_chanTab (f : Nat) (g : Func → Func) : (updFunc f g s).chanTab = s.chanTab := rfl
@[simp] theorem updFunc_accepted (f : Nat) (g : Func → Func) : (updFunc f g s).accepted = s.accepted := rfl
@[simp] theorem updFunc_cmdFailed (f : Nat) (g : Func → Func) : (updFunc f g s).cmdFailed = s.cmdFailed := rfl
@[simp] theorem updFunc_boxes (f : Nat) (g : Func → Func) : (updFunc f g s).boxes = s.boxes := rfl
@[simp] theorem updFunc_arbiters (f : Nat) (g : Func → Func) : (updFunc f g s).arbiters = s.arbiters := rfl
@[simp] theorem updFunc_links (f : Nat) (g : Func → Func) : (updFunc f g s).links = s.links := rfl
@[simp] theorem updFunc_fns (f : Nat) (g : Func → Func) : (updFunc f g s).fns = s.fns := rfl
@[simp] theorem updFunc_msix (f : Nat) (g : Func → Func) : (updFunc f g s).msix = s.msix := rfl
@[simp] theorem updFunc_peers (f : Nat) (g : Func → Func) : (updFunc f g s).peers = s.peers := rfl
@[simp] theorem updFunc_atc (f : Nat) (g : Func → Func) : (updFunc f g s).atc = s.atc := rfl
@[simp] theorem updFunc_atsReqs (f : Nat) (g : Func → Func) : (updFunc f g s).atsReqs = s.atsReqs := rfl
@[simp] theorem updFunc_invReqs (f : Nat) (g : Func → Func) : (updFunc f g s).invReqs = s.invReqs := rfl
@[simp] theorem updFunc_heldOut (f : Nat) (g : Func → Func) : (updFunc f g s).heldOut = s.heldOut := rfl
@[simp] theorem updFunc_clay (f : Nat) (g : Func → Func) : (updFunc f g s).clay = s.clay := rfl
@[simp] theorem updFunc_ports (f : Nat) (g : Func → Func) : (updFunc f g s).ports = s.ports := rfl
@[simp] theorem updFunc_gens (f : Nat) (g : Func → Func) : (updFunc f g s).gens = s.gens := rfl
@[simp] theorem updFunc_modBus (f : Nat) (g : Func → Func) : (updFunc f g s).modBus = s.modBus := rfl
@[simp] theorem updFunc_tables (f : Nat) (g : Func → Func) : (updFunc f g s).tables = s.tables := rfl
@[simp] theorem updFunc_cis (f : Nat) (g : Func → Func) : (updFunc f g s).cis = s.cis := rfl
@[simp] theorem updFunc_cipher (f : Nat) (g : Func → Func) : (updFunc f g s).cipher = s.cipher := rfl
@[simp] theorem updFunc_rings (f : Nat) (g : Func → Func) : (updFunc f g s).rings = s.rings := rfl
@[simp] theorem updFunc_time (f : Nat) (g : Func → Func) : (updFunc f g s).time = s.time := rfl
@[simp] theorem updFunc_fh (f : Nat) (g : Func → Func) : (updFunc f g s).fh = s.fh := rfl
@[simp] theorem updFunc_comb (f : Nat) (g : Func → Func) : (updFunc f g s).comb = s.comb := rfl
@[simp] theorem updFunc_aq (f : Nat) (g : Func → Func) : (updFunc f g s).aq = s.aq := rfl
@[simp] theorem updFunc_power (f : Nat) (g : Func → Func) : (updFunc f g s).power = s.power := rfl
@[simp] theorem updFunc_evt (f : Nat) (g : Func → Func) : (updFunc f g s).evt = s.evt := rfl
@[simp] theorem updFunc_fault (f : Nat) (g : Func → Func) : (updFunc f g s).fault = s.fault := rfl
@[simp] theorem updFunc_counters (f : Nat) (g : Func → Func) : (updFunc f g s).counters = s.counters := rfl
@[simp] theorem updFunc_monitors (f : Nat) (g : Func → Func) : (updFunc f g s).monitors = s.monitors := rfl

@[simp] theorem updCfg_pending (f : Nat) (g : FnCfg → FnCfg) : (updCfg f g s).pending = s.pending := rfl
@[simp] theorem updCfg_out (f : Nat) (g : FnCfg → FnCfg) : (updCfg f g s).out = s.out := rfl
@[simp] theorem updCfg_fuses (f : Nat) (g : FnCfg → FnCfg) : (updCfg f g s).fuses = s.fuses := rfl
@[simp] theorem updCfg_boot (f : Nat) (g : FnCfg → FnCfg) : (updCfg f g s).boot = s.boot := rfl
@[simp] theorem updCfg_mode (f : Nat) (g : FnCfg → FnCfg) : (updCfg f g s).mode = s.mode := rfl
@[simp] theorem updCfg_entryCause (f : Nat) (g : FnCfg → FnCfg) : (updCfg f g s).entryCause = s.entryCause := rfl
@[simp] theorem updCfg_transit (f : Nat) (g : FnCfg → FnCfg) : (updCfg f g s).transit = s.transit := rfl
@[simp] theorem updCfg_armedMode (f : Nat) (g : FnCfg → FnCfg) : (updCfg f g s).armedMode = s.armedMode := rfl
@[simp] theorem updCfg_dormantFrom (f : Nat) (g : FnCfg → FnCfg) : (updCfg f g s).dormantFrom = s.dormantFrom := rfl
@[simp] theorem updCfg_served (f : Nat) (g : FnCfg → FnCfg) : (updCfg f g s).served = s.served := rfl
@[simp] theorem updCfg_entropyReady (f : Nat) (g : FnCfg → FnCfg) : (updCfg f g s).entropyReady = s.entropyReady := rfl
@[simp] theorem updCfg_entropyFailed (f : Nat) (g : FnCfg → FnCfg) : (updCfg f g s).entropyFailed = s.entropyFailed := rfl
@[simp] theorem updCfg_drbgCount (f : Nat) (g : FnCfg → FnCfg) : (updCfg f g s).drbgCount = s.drbgCount := rfl
@[simp] theorem updCfg_blocked (f : Nat) (g : FnCfg → FnCfg) : (updCfg f g s).blocked = s.blocked := rfl
@[simp] theorem updCfg_blockReason (f : Nat) (g : FnCfg → FnCfg) : (updCfg f g s).blockReason = s.blockReason := rfl
@[simp] theorem updCfg_spdm (f : Nat) (g : FnCfg → FnCfg) : (updCfg f g s).spdm = s.spdm := rfl
@[simp] theorem updCfg_wh (f : Nat) (g : FnCfg → FnCfg) : (updCfg f g s).wh = s.wh := rfl
@[simp] theorem updCfg_chans (f : Nat) (g : FnCfg → FnCfg) : (updCfg f g s).chans = s.chans := rfl
@[simp] theorem updCfg_fwd (f : Nat) (g : FnCfg → FnCfg) : (updCfg f g s).fwd = s.fwd := rfl
@[simp] theorem updCfg_chanTab (f : Nat) (g : FnCfg → FnCfg) : (updCfg f g s).chanTab = s.chanTab := rfl
@[simp] theorem updCfg_accepted (f : Nat) (g : FnCfg → FnCfg) : (updCfg f g s).accepted = s.accepted := rfl
@[simp] theorem updCfg_cmdFailed (f : Nat) (g : FnCfg → FnCfg) : (updCfg f g s).cmdFailed = s.cmdFailed := rfl
@[simp] theorem updCfg_boxes (f : Nat) (g : FnCfg → FnCfg) : (updCfg f g s).boxes = s.boxes := rfl
@[simp] theorem updCfg_arbiters (f : Nat) (g : FnCfg → FnCfg) : (updCfg f g s).arbiters = s.arbiters := rfl
@[simp] theorem updCfg_links (f : Nat) (g : FnCfg → FnCfg) : (updCfg f g s).links = s.links := rfl
@[simp] theorem updCfg_msix (f : Nat) (g : FnCfg → FnCfg) : (updCfg f g s).msix = s.msix := rfl
@[simp] theorem updCfg_peers (f : Nat) (g : FnCfg → FnCfg) : (updCfg f g s).peers = s.peers := rfl
@[simp] theorem updCfg_atc (f : Nat) (g : FnCfg → FnCfg) : (updCfg f g s).atc = s.atc := rfl
@[simp] theorem updCfg_atsReqs (f : Nat) (g : FnCfg → FnCfg) : (updCfg f g s).atsReqs = s.atsReqs := rfl
@[simp] theorem updCfg_invReqs (f : Nat) (g : FnCfg → FnCfg) : (updCfg f g s).invReqs = s.invReqs := rfl
@[simp] theorem updCfg_heldOut (f : Nat) (g : FnCfg → FnCfg) : (updCfg f g s).heldOut = s.heldOut := rfl
@[simp] theorem updCfg_clay (f : Nat) (g : FnCfg → FnCfg) : (updCfg f g s).clay = s.clay := rfl
@[simp] theorem updCfg_funcs (f : Nat) (g : FnCfg → FnCfg) : (updCfg f g s).funcs = s.funcs := rfl
@[simp] theorem updCfg_ports (f : Nat) (g : FnCfg → FnCfg) : (updCfg f g s).ports = s.ports := rfl
@[simp] theorem updCfg_gens (f : Nat) (g : FnCfg → FnCfg) : (updCfg f g s).gens = s.gens := rfl
@[simp] theorem updCfg_modBus (f : Nat) (g : FnCfg → FnCfg) : (updCfg f g s).modBus = s.modBus := rfl
@[simp] theorem updCfg_tables (f : Nat) (g : FnCfg → FnCfg) : (updCfg f g s).tables = s.tables := rfl
@[simp] theorem updCfg_cis (f : Nat) (g : FnCfg → FnCfg) : (updCfg f g s).cis = s.cis := rfl
@[simp] theorem updCfg_cipher (f : Nat) (g : FnCfg → FnCfg) : (updCfg f g s).cipher = s.cipher := rfl
@[simp] theorem updCfg_rings (f : Nat) (g : FnCfg → FnCfg) : (updCfg f g s).rings = s.rings := rfl
@[simp] theorem updCfg_time (f : Nat) (g : FnCfg → FnCfg) : (updCfg f g s).time = s.time := rfl
@[simp] theorem updCfg_fh (f : Nat) (g : FnCfg → FnCfg) : (updCfg f g s).fh = s.fh := rfl
@[simp] theorem updCfg_comb (f : Nat) (g : FnCfg → FnCfg) : (updCfg f g s).comb = s.comb := rfl
@[simp] theorem updCfg_aq (f : Nat) (g : FnCfg → FnCfg) : (updCfg f g s).aq = s.aq := rfl
@[simp] theorem updCfg_power (f : Nat) (g : FnCfg → FnCfg) : (updCfg f g s).power = s.power := rfl
@[simp] theorem updCfg_evt (f : Nat) (g : FnCfg → FnCfg) : (updCfg f g s).evt = s.evt := rfl
@[simp] theorem updCfg_fault (f : Nat) (g : FnCfg → FnCfg) : (updCfg f g s).fault = s.fault := rfl
@[simp] theorem updCfg_counters (f : Nat) (g : FnCfg → FnCfg) : (updCfg f g s).counters = s.counters := rfl
@[simp] theorem updCfg_monitors (f : Nat) (g : FnCfg → FnCfg) : (updCfg f g s).monitors = s.monitors := rfl

@[simp] theorem updLink_pending (l : Nat) (g : LinkSt → LinkSt) : (updLink l g s).pending = s.pending := rfl
@[simp] theorem updLink_out (l : Nat) (g : LinkSt → LinkSt) : (updLink l g s).out = s.out := rfl
@[simp] theorem updLink_fuses (l : Nat) (g : LinkSt → LinkSt) : (updLink l g s).fuses = s.fuses := rfl
@[simp] theorem updLink_boot (l : Nat) (g : LinkSt → LinkSt) : (updLink l g s).boot = s.boot := rfl
@[simp] theorem updLink_mode (l : Nat) (g : LinkSt → LinkSt) : (updLink l g s).mode = s.mode := rfl
@[simp] theorem updLink_entryCause (l : Nat) (g : LinkSt → LinkSt) : (updLink l g s).entryCause = s.entryCause := rfl
@[simp] theorem updLink_transit (l : Nat) (g : LinkSt → LinkSt) : (updLink l g s).transit = s.transit := rfl
@[simp] theorem updLink_armedMode (l : Nat) (g : LinkSt → LinkSt) : (updLink l g s).armedMode = s.armedMode := rfl
@[simp] theorem updLink_dormantFrom (l : Nat) (g : LinkSt → LinkSt) : (updLink l g s).dormantFrom = s.dormantFrom := rfl
@[simp] theorem updLink_served (l : Nat) (g : LinkSt → LinkSt) : (updLink l g s).served = s.served := rfl
@[simp] theorem updLink_entropyReady (l : Nat) (g : LinkSt → LinkSt) : (updLink l g s).entropyReady = s.entropyReady := rfl
@[simp] theorem updLink_entropyFailed (l : Nat) (g : LinkSt → LinkSt) : (updLink l g s).entropyFailed = s.entropyFailed := rfl
@[simp] theorem updLink_drbgCount (l : Nat) (g : LinkSt → LinkSt) : (updLink l g s).drbgCount = s.drbgCount := rfl
@[simp] theorem updLink_blocked (l : Nat) (g : LinkSt → LinkSt) : (updLink l g s).blocked = s.blocked := rfl
@[simp] theorem updLink_blockReason (l : Nat) (g : LinkSt → LinkSt) : (updLink l g s).blockReason = s.blockReason := rfl
@[simp] theorem updLink_spdm (l : Nat) (g : LinkSt → LinkSt) : (updLink l g s).spdm = s.spdm := rfl
@[simp] theorem updLink_wh (l : Nat) (g : LinkSt → LinkSt) : (updLink l g s).wh = s.wh := rfl
@[simp] theorem updLink_chans (l : Nat) (g : LinkSt → LinkSt) : (updLink l g s).chans = s.chans := rfl
@[simp] theorem updLink_fwd (l : Nat) (g : LinkSt → LinkSt) : (updLink l g s).fwd = s.fwd := rfl
@[simp] theorem updLink_chanTab (l : Nat) (g : LinkSt → LinkSt) : (updLink l g s).chanTab = s.chanTab := rfl
@[simp] theorem updLink_accepted (l : Nat) (g : LinkSt → LinkSt) : (updLink l g s).accepted = s.accepted := rfl
@[simp] theorem updLink_cmdFailed (l : Nat) (g : LinkSt → LinkSt) : (updLink l g s).cmdFailed = s.cmdFailed := rfl
@[simp] theorem updLink_boxes (l : Nat) (g : LinkSt → LinkSt) : (updLink l g s).boxes = s.boxes := rfl
@[simp] theorem updLink_arbiters (l : Nat) (g : LinkSt → LinkSt) : (updLink l g s).arbiters = s.arbiters := rfl
@[simp] theorem updLink_fns (l : Nat) (g : LinkSt → LinkSt) : (updLink l g s).fns = s.fns := rfl
@[simp] theorem updLink_msix (l : Nat) (g : LinkSt → LinkSt) : (updLink l g s).msix = s.msix := rfl
@[simp] theorem updLink_peers (l : Nat) (g : LinkSt → LinkSt) : (updLink l g s).peers = s.peers := rfl
@[simp] theorem updLink_atc (l : Nat) (g : LinkSt → LinkSt) : (updLink l g s).atc = s.atc := rfl
@[simp] theorem updLink_atsReqs (l : Nat) (g : LinkSt → LinkSt) : (updLink l g s).atsReqs = s.atsReqs := rfl
@[simp] theorem updLink_invReqs (l : Nat) (g : LinkSt → LinkSt) : (updLink l g s).invReqs = s.invReqs := rfl
@[simp] theorem updLink_heldOut (l : Nat) (g : LinkSt → LinkSt) : (updLink l g s).heldOut = s.heldOut := rfl
@[simp] theorem updLink_clay (l : Nat) (g : LinkSt → LinkSt) : (updLink l g s).clay = s.clay := rfl
@[simp] theorem updLink_funcs (l : Nat) (g : LinkSt → LinkSt) : (updLink l g s).funcs = s.funcs := rfl
@[simp] theorem updLink_ports (l : Nat) (g : LinkSt → LinkSt) : (updLink l g s).ports = s.ports := rfl
@[simp] theorem updLink_gens (l : Nat) (g : LinkSt → LinkSt) : (updLink l g s).gens = s.gens := rfl
@[simp] theorem updLink_modBus (l : Nat) (g : LinkSt → LinkSt) : (updLink l g s).modBus = s.modBus := rfl
@[simp] theorem updLink_tables (l : Nat) (g : LinkSt → LinkSt) : (updLink l g s).tables = s.tables := rfl
@[simp] theorem updLink_cis (l : Nat) (g : LinkSt → LinkSt) : (updLink l g s).cis = s.cis := rfl
@[simp] theorem updLink_cipher (l : Nat) (g : LinkSt → LinkSt) : (updLink l g s).cipher = s.cipher := rfl
@[simp] theorem updLink_rings (l : Nat) (g : LinkSt → LinkSt) : (updLink l g s).rings = s.rings := rfl
@[simp] theorem updLink_time (l : Nat) (g : LinkSt → LinkSt) : (updLink l g s).time = s.time := rfl
@[simp] theorem updLink_fh (l : Nat) (g : LinkSt → LinkSt) : (updLink l g s).fh = s.fh := rfl
@[simp] theorem updLink_comb (l : Nat) (g : LinkSt → LinkSt) : (updLink l g s).comb = s.comb := rfl
@[simp] theorem updLink_aq (l : Nat) (g : LinkSt → LinkSt) : (updLink l g s).aq = s.aq := rfl
@[simp] theorem updLink_power (l : Nat) (g : LinkSt → LinkSt) : (updLink l g s).power = s.power := rfl
@[simp] theorem updLink_evt (l : Nat) (g : LinkSt → LinkSt) : (updLink l g s).evt = s.evt := rfl
@[simp] theorem updLink_fault (l : Nat) (g : LinkSt → LinkSt) : (updLink l g s).fault = s.fault := rfl
@[simp] theorem updLink_counters (l : Nat) (g : LinkSt → LinkSt) : (updLink l g s).counters = s.counters := rfl
@[simp] theorem updLink_monitors (l : Nat) (g : LinkSt → LinkSt) : (updLink l g s).monitors = s.monitors := rfl

@[simp] theorem updMsix_pending (f e : Nat) (g : Msix → Msix) : (updMsix f e g s).pending = s.pending := rfl
@[simp] theorem updMsix_out (f e : Nat) (g : Msix → Msix) : (updMsix f e g s).out = s.out := rfl
@[simp] theorem updMsix_fuses (f e : Nat) (g : Msix → Msix) : (updMsix f e g s).fuses = s.fuses := rfl
@[simp] theorem updMsix_boot (f e : Nat) (g : Msix → Msix) : (updMsix f e g s).boot = s.boot := rfl
@[simp] theorem updMsix_mode (f e : Nat) (g : Msix → Msix) : (updMsix f e g s).mode = s.mode := rfl
@[simp] theorem updMsix_entryCause (f e : Nat) (g : Msix → Msix) : (updMsix f e g s).entryCause = s.entryCause := rfl
@[simp] theorem updMsix_transit (f e : Nat) (g : Msix → Msix) : (updMsix f e g s).transit = s.transit := rfl
@[simp] theorem updMsix_armedMode (f e : Nat) (g : Msix → Msix) : (updMsix f e g s).armedMode = s.armedMode := rfl
@[simp] theorem updMsix_dormantFrom (f e : Nat) (g : Msix → Msix) : (updMsix f e g s).dormantFrom = s.dormantFrom := rfl
@[simp] theorem updMsix_served (f e : Nat) (g : Msix → Msix) : (updMsix f e g s).served = s.served := rfl
@[simp] theorem updMsix_entropyReady (f e : Nat) (g : Msix → Msix) : (updMsix f e g s).entropyReady = s.entropyReady := rfl
@[simp] theorem updMsix_entropyFailed (f e : Nat) (g : Msix → Msix) : (updMsix f e g s).entropyFailed = s.entropyFailed := rfl
@[simp] theorem updMsix_drbgCount (f e : Nat) (g : Msix → Msix) : (updMsix f e g s).drbgCount = s.drbgCount := rfl
@[simp] theorem updMsix_blocked (f e : Nat) (g : Msix → Msix) : (updMsix f e g s).blocked = s.blocked := rfl
@[simp] theorem updMsix_blockReason (f e : Nat) (g : Msix → Msix) : (updMsix f e g s).blockReason = s.blockReason := rfl
@[simp] theorem updMsix_spdm (f e : Nat) (g : Msix → Msix) : (updMsix f e g s).spdm = s.spdm := rfl
@[simp] theorem updMsix_wh (f e : Nat) (g : Msix → Msix) : (updMsix f e g s).wh = s.wh := rfl
@[simp] theorem updMsix_chans (f e : Nat) (g : Msix → Msix) : (updMsix f e g s).chans = s.chans := rfl
@[simp] theorem updMsix_fwd (f e : Nat) (g : Msix → Msix) : (updMsix f e g s).fwd = s.fwd := rfl
@[simp] theorem updMsix_chanTab (f e : Nat) (g : Msix → Msix) : (updMsix f e g s).chanTab = s.chanTab := rfl
@[simp] theorem updMsix_accepted (f e : Nat) (g : Msix → Msix) : (updMsix f e g s).accepted = s.accepted := rfl
@[simp] theorem updMsix_cmdFailed (f e : Nat) (g : Msix → Msix) : (updMsix f e g s).cmdFailed = s.cmdFailed := rfl
@[simp] theorem updMsix_boxes (f e : Nat) (g : Msix → Msix) : (updMsix f e g s).boxes = s.boxes := rfl
@[simp] theorem updMsix_arbiters (f e : Nat) (g : Msix → Msix) : (updMsix f e g s).arbiters = s.arbiters := rfl
@[simp] theorem updMsix_links (f e : Nat) (g : Msix → Msix) : (updMsix f e g s).links = s.links := rfl
@[simp] theorem updMsix_fns (f e : Nat) (g : Msix → Msix) : (updMsix f e g s).fns = s.fns := rfl
@[simp] theorem updMsix_peers (f e : Nat) (g : Msix → Msix) : (updMsix f e g s).peers = s.peers := rfl
@[simp] theorem updMsix_atc (f e : Nat) (g : Msix → Msix) : (updMsix f e g s).atc = s.atc := rfl
@[simp] theorem updMsix_atsReqs (f e : Nat) (g : Msix → Msix) : (updMsix f e g s).atsReqs = s.atsReqs := rfl
@[simp] theorem updMsix_invReqs (f e : Nat) (g : Msix → Msix) : (updMsix f e g s).invReqs = s.invReqs := rfl
@[simp] theorem updMsix_heldOut (f e : Nat) (g : Msix → Msix) : (updMsix f e g s).heldOut = s.heldOut := rfl
@[simp] theorem updMsix_clay (f e : Nat) (g : Msix → Msix) : (updMsix f e g s).clay = s.clay := rfl
@[simp] theorem updMsix_funcs (f e : Nat) (g : Msix → Msix) : (updMsix f e g s).funcs = s.funcs := rfl
@[simp] theorem updMsix_ports (f e : Nat) (g : Msix → Msix) : (updMsix f e g s).ports = s.ports := rfl
@[simp] theorem updMsix_gens (f e : Nat) (g : Msix → Msix) : (updMsix f e g s).gens = s.gens := rfl
@[simp] theorem updMsix_modBus (f e : Nat) (g : Msix → Msix) : (updMsix f e g s).modBus = s.modBus := rfl
@[simp] theorem updMsix_tables (f e : Nat) (g : Msix → Msix) : (updMsix f e g s).tables = s.tables := rfl
@[simp] theorem updMsix_cis (f e : Nat) (g : Msix → Msix) : (updMsix f e g s).cis = s.cis := rfl
@[simp] theorem updMsix_cipher (f e : Nat) (g : Msix → Msix) : (updMsix f e g s).cipher = s.cipher := rfl
@[simp] theorem updMsix_rings (f e : Nat) (g : Msix → Msix) : (updMsix f e g s).rings = s.rings := rfl
@[simp] theorem updMsix_time (f e : Nat) (g : Msix → Msix) : (updMsix f e g s).time = s.time := rfl
@[simp] theorem updMsix_fh (f e : Nat) (g : Msix → Msix) : (updMsix f e g s).fh = s.fh := rfl
@[simp] theorem updMsix_comb (f e : Nat) (g : Msix → Msix) : (updMsix f e g s).comb = s.comb := rfl
@[simp] theorem updMsix_aq (f e : Nat) (g : Msix → Msix) : (updMsix f e g s).aq = s.aq := rfl
@[simp] theorem updMsix_power (f e : Nat) (g : Msix → Msix) : (updMsix f e g s).power = s.power := rfl
@[simp] theorem updMsix_evt (f e : Nat) (g : Msix → Msix) : (updMsix f e g s).evt = s.evt := rfl
@[simp] theorem updMsix_fault (f e : Nat) (g : Msix → Msix) : (updMsix f e g s).fault = s.fault := rfl
@[simp] theorem updMsix_counters (f e : Nat) (g : Msix → Msix) : (updMsix f e g s).counters = s.counters := rfl
@[simp] theorem updMsix_monitors (f e : Nat) (g : Msix → Msix) : (updMsix f e g s).monitors = s.monitors := rfl

@[simp] theorem updPort_pending (p : Nat) (g : PortSt → PortSt) : (updPort p g s).pending = s.pending := rfl
@[simp] theorem updPort_out (p : Nat) (g : PortSt → PortSt) : (updPort p g s).out = s.out := rfl
@[simp] theorem updPort_fuses (p : Nat) (g : PortSt → PortSt) : (updPort p g s).fuses = s.fuses := rfl
@[simp] theorem updPort_boot (p : Nat) (g : PortSt → PortSt) : (updPort p g s).boot = s.boot := rfl
@[simp] theorem updPort_mode (p : Nat) (g : PortSt → PortSt) : (updPort p g s).mode = s.mode := rfl
@[simp] theorem updPort_entryCause (p : Nat) (g : PortSt → PortSt) : (updPort p g s).entryCause = s.entryCause := rfl
@[simp] theorem updPort_transit (p : Nat) (g : PortSt → PortSt) : (updPort p g s).transit = s.transit := rfl
@[simp] theorem updPort_armedMode (p : Nat) (g : PortSt → PortSt) : (updPort p g s).armedMode = s.armedMode := rfl
@[simp] theorem updPort_dormantFrom (p : Nat) (g : PortSt → PortSt) : (updPort p g s).dormantFrom = s.dormantFrom := rfl
@[simp] theorem updPort_served (p : Nat) (g : PortSt → PortSt) : (updPort p g s).served = s.served := rfl
@[simp] theorem updPort_entropyReady (p : Nat) (g : PortSt → PortSt) : (updPort p g s).entropyReady = s.entropyReady := rfl
@[simp] theorem updPort_entropyFailed (p : Nat) (g : PortSt → PortSt) : (updPort p g s).entropyFailed = s.entropyFailed := rfl
@[simp] theorem updPort_drbgCount (p : Nat) (g : PortSt → PortSt) : (updPort p g s).drbgCount = s.drbgCount := rfl
@[simp] theorem updPort_blocked (p : Nat) (g : PortSt → PortSt) : (updPort p g s).blocked = s.blocked := rfl
@[simp] theorem updPort_blockReason (p : Nat) (g : PortSt → PortSt) : (updPort p g s).blockReason = s.blockReason := rfl
@[simp] theorem updPort_spdm (p : Nat) (g : PortSt → PortSt) : (updPort p g s).spdm = s.spdm := rfl
@[simp] theorem updPort_wh (p : Nat) (g : PortSt → PortSt) : (updPort p g s).wh = s.wh := rfl
@[simp] theorem updPort_chans (p : Nat) (g : PortSt → PortSt) : (updPort p g s).chans = s.chans := rfl
@[simp] theorem updPort_fwd (p : Nat) (g : PortSt → PortSt) : (updPort p g s).fwd = s.fwd := rfl
@[simp] theorem updPort_chanTab (p : Nat) (g : PortSt → PortSt) : (updPort p g s).chanTab = s.chanTab := rfl
@[simp] theorem updPort_accepted (p : Nat) (g : PortSt → PortSt) : (updPort p g s).accepted = s.accepted := rfl
@[simp] theorem updPort_cmdFailed (p : Nat) (g : PortSt → PortSt) : (updPort p g s).cmdFailed = s.cmdFailed := rfl
@[simp] theorem updPort_boxes (p : Nat) (g : PortSt → PortSt) : (updPort p g s).boxes = s.boxes := rfl
@[simp] theorem updPort_arbiters (p : Nat) (g : PortSt → PortSt) : (updPort p g s).arbiters = s.arbiters := rfl
@[simp] theorem updPort_links (p : Nat) (g : PortSt → PortSt) : (updPort p g s).links = s.links := rfl
@[simp] theorem updPort_fns (p : Nat) (g : PortSt → PortSt) : (updPort p g s).fns = s.fns := rfl
@[simp] theorem updPort_msix (p : Nat) (g : PortSt → PortSt) : (updPort p g s).msix = s.msix := rfl
@[simp] theorem updPort_peers (p : Nat) (g : PortSt → PortSt) : (updPort p g s).peers = s.peers := rfl
@[simp] theorem updPort_atc (p : Nat) (g : PortSt → PortSt) : (updPort p g s).atc = s.atc := rfl
@[simp] theorem updPort_atsReqs (p : Nat) (g : PortSt → PortSt) : (updPort p g s).atsReqs = s.atsReqs := rfl
@[simp] theorem updPort_invReqs (p : Nat) (g : PortSt → PortSt) : (updPort p g s).invReqs = s.invReqs := rfl
@[simp] theorem updPort_heldOut (p : Nat) (g : PortSt → PortSt) : (updPort p g s).heldOut = s.heldOut := rfl
@[simp] theorem updPort_clay (p : Nat) (g : PortSt → PortSt) : (updPort p g s).clay = s.clay := rfl
@[simp] theorem updPort_funcs (p : Nat) (g : PortSt → PortSt) : (updPort p g s).funcs = s.funcs := rfl
@[simp] theorem updPort_gens (p : Nat) (g : PortSt → PortSt) : (updPort p g s).gens = s.gens := rfl
@[simp] theorem updPort_modBus (p : Nat) (g : PortSt → PortSt) : (updPort p g s).modBus = s.modBus := rfl
@[simp] theorem updPort_tables (p : Nat) (g : PortSt → PortSt) : (updPort p g s).tables = s.tables := rfl
@[simp] theorem updPort_cis (p : Nat) (g : PortSt → PortSt) : (updPort p g s).cis = s.cis := rfl
@[simp] theorem updPort_cipher (p : Nat) (g : PortSt → PortSt) : (updPort p g s).cipher = s.cipher := rfl
@[simp] theorem updPort_rings (p : Nat) (g : PortSt → PortSt) : (updPort p g s).rings = s.rings := rfl
@[simp] theorem updPort_time (p : Nat) (g : PortSt → PortSt) : (updPort p g s).time = s.time := rfl
@[simp] theorem updPort_fh (p : Nat) (g : PortSt → PortSt) : (updPort p g s).fh = s.fh := rfl
@[simp] theorem updPort_comb (p : Nat) (g : PortSt → PortSt) : (updPort p g s).comb = s.comb := rfl
@[simp] theorem updPort_aq (p : Nat) (g : PortSt → PortSt) : (updPort p g s).aq = s.aq := rfl
@[simp] theorem updPort_power (p : Nat) (g : PortSt → PortSt) : (updPort p g s).power = s.power := rfl
@[simp] theorem updPort_evt (p : Nat) (g : PortSt → PortSt) : (updPort p g s).evt = s.evt := rfl
@[simp] theorem updPort_fault (p : Nat) (g : PortSt → PortSt) : (updPort p g s).fault = s.fault := rfl
@[simp] theorem updPort_counters (p : Nat) (g : PortSt → PortSt) : (updPort p g s).counters = s.counters := rfl
@[simp] theorem updPort_monitors (p : Nat) (g : PortSt → PortSt) : (updPort p g s).monitors = s.monitors := rfl

@[simp] theorem updStitch_pending (p : Nat) (g : StitchSt → StitchSt) : (updStitch p g s).pending = s.pending := rfl
@[simp] theorem updStitch_out (p : Nat) (g : StitchSt → StitchSt) : (updStitch p g s).out = s.out := rfl
@[simp] theorem updStitch_fuses (p : Nat) (g : StitchSt → StitchSt) : (updStitch p g s).fuses = s.fuses := rfl
@[simp] theorem updStitch_boot (p : Nat) (g : StitchSt → StitchSt) : (updStitch p g s).boot = s.boot := rfl
@[simp] theorem updStitch_mode (p : Nat) (g : StitchSt → StitchSt) : (updStitch p g s).mode = s.mode := rfl
@[simp] theorem updStitch_entryCause (p : Nat) (g : StitchSt → StitchSt) : (updStitch p g s).entryCause = s.entryCause := rfl
@[simp] theorem updStitch_transit (p : Nat) (g : StitchSt → StitchSt) : (updStitch p g s).transit = s.transit := rfl
@[simp] theorem updStitch_armedMode (p : Nat) (g : StitchSt → StitchSt) : (updStitch p g s).armedMode = s.armedMode := rfl
@[simp] theorem updStitch_dormantFrom (p : Nat) (g : StitchSt → StitchSt) : (updStitch p g s).dormantFrom = s.dormantFrom := rfl
@[simp] theorem updStitch_served (p : Nat) (g : StitchSt → StitchSt) : (updStitch p g s).served = s.served := rfl
@[simp] theorem updStitch_entropyReady (p : Nat) (g : StitchSt → StitchSt) : (updStitch p g s).entropyReady = s.entropyReady := rfl
@[simp] theorem updStitch_entropyFailed (p : Nat) (g : StitchSt → StitchSt) : (updStitch p g s).entropyFailed = s.entropyFailed := rfl
@[simp] theorem updStitch_drbgCount (p : Nat) (g : StitchSt → StitchSt) : (updStitch p g s).drbgCount = s.drbgCount := rfl
@[simp] theorem updStitch_blocked (p : Nat) (g : StitchSt → StitchSt) : (updStitch p g s).blocked = s.blocked := rfl
@[simp] theorem updStitch_blockReason (p : Nat) (g : StitchSt → StitchSt) : (updStitch p g s).blockReason = s.blockReason := rfl
@[simp] theorem updStitch_spdm (p : Nat) (g : StitchSt → StitchSt) : (updStitch p g s).spdm = s.spdm := rfl
@[simp] theorem updStitch_wh (p : Nat) (g : StitchSt → StitchSt) : (updStitch p g s).wh = s.wh := rfl
@[simp] theorem updStitch_chans (p : Nat) (g : StitchSt → StitchSt) : (updStitch p g s).chans = s.chans := rfl
@[simp] theorem updStitch_fwd (p : Nat) (g : StitchSt → StitchSt) : (updStitch p g s).fwd = s.fwd := rfl
@[simp] theorem updStitch_chanTab (p : Nat) (g : StitchSt → StitchSt) : (updStitch p g s).chanTab = s.chanTab := rfl
@[simp] theorem updStitch_accepted (p : Nat) (g : StitchSt → StitchSt) : (updStitch p g s).accepted = s.accepted := rfl
@[simp] theorem updStitch_cmdFailed (p : Nat) (g : StitchSt → StitchSt) : (updStitch p g s).cmdFailed = s.cmdFailed := rfl
@[simp] theorem updStitch_boxes (p : Nat) (g : StitchSt → StitchSt) : (updStitch p g s).boxes = s.boxes := rfl
@[simp] theorem updStitch_arbiters (p : Nat) (g : StitchSt → StitchSt) : (updStitch p g s).arbiters = s.arbiters := rfl
@[simp] theorem updStitch_links (p : Nat) (g : StitchSt → StitchSt) : (updStitch p g s).links = s.links := rfl
@[simp] theorem updStitch_fns (p : Nat) (g : StitchSt → StitchSt) : (updStitch p g s).fns = s.fns := rfl
@[simp] theorem updStitch_msix (p : Nat) (g : StitchSt → StitchSt) : (updStitch p g s).msix = s.msix := rfl
@[simp] theorem updStitch_peers (p : Nat) (g : StitchSt → StitchSt) : (updStitch p g s).peers = s.peers := rfl
@[simp] theorem updStitch_atc (p : Nat) (g : StitchSt → StitchSt) : (updStitch p g s).atc = s.atc := rfl
@[simp] theorem updStitch_atsReqs (p : Nat) (g : StitchSt → StitchSt) : (updStitch p g s).atsReqs = s.atsReqs := rfl
@[simp] theorem updStitch_invReqs (p : Nat) (g : StitchSt → StitchSt) : (updStitch p g s).invReqs = s.invReqs := rfl
@[simp] theorem updStitch_heldOut (p : Nat) (g : StitchSt → StitchSt) : (updStitch p g s).heldOut = s.heldOut := rfl
@[simp] theorem updStitch_clay (p : Nat) (g : StitchSt → StitchSt) : (updStitch p g s).clay = s.clay := rfl
@[simp] theorem updStitch_funcs (p : Nat) (g : StitchSt → StitchSt) : (updStitch p g s).funcs = s.funcs := rfl
@[simp] theorem updStitch_ports (p : Nat) (g : StitchSt → StitchSt) : (updStitch p g s).ports = s.ports := rfl
@[simp] theorem updStitch_gens (p : Nat) (g : StitchSt → StitchSt) : (updStitch p g s).gens = s.gens := rfl
@[simp] theorem updStitch_modBus (p : Nat) (g : StitchSt → StitchSt) : (updStitch p g s).modBus = s.modBus := rfl
@[simp] theorem updStitch_tables (p : Nat) (g : StitchSt → StitchSt) : (updStitch p g s).tables = s.tables := rfl
@[simp] theorem updStitch_cis (p : Nat) (g : StitchSt → StitchSt) : (updStitch p g s).cis = s.cis := rfl
@[simp] theorem updStitch_cipher (p : Nat) (g : StitchSt → StitchSt) : (updStitch p g s).cipher = s.cipher := rfl
@[simp] theorem updStitch_rings (p : Nat) (g : StitchSt → StitchSt) : (updStitch p g s).rings = s.rings := rfl
@[simp] theorem updStitch_time (p : Nat) (g : StitchSt → StitchSt) : (updStitch p g s).time = s.time := rfl
@[simp] theorem updStitch_fh (p : Nat) (g : StitchSt → StitchSt) : (updStitch p g s).fh = s.fh := rfl
@[simp] theorem updStitch_comb (p : Nat) (g : StitchSt → StitchSt) : (updStitch p g s).comb = s.comb := rfl
@[simp] theorem updStitch_power (p : Nat) (g : StitchSt → StitchSt) : (updStitch p g s).power = s.power := rfl
@[simp] theorem updStitch_evt (p : Nat) (g : StitchSt → StitchSt) : (updStitch p g s).evt = s.evt := rfl
@[simp] theorem updStitch_fault (p : Nat) (g : StitchSt → StitchSt) : (updStitch p g s).fault = s.fault := rfl
@[simp] theorem updStitch_counters (p : Nat) (g : StitchSt → StitchSt) : (updStitch p g s).counters = s.counters := rfl
@[simp] theorem updStitch_monitors (p : Nat) (g : StitchSt → StitchSt) : (updStitch p g s).monitors = s.monitors := rfl

@[simp] theorem updMember_pending (k : Nat) (g : Member → Member) : (updMember k g s).pending = s.pending := rfl
@[simp] theorem updMember_out (k : Nat) (g : Member → Member) : (updMember k g s).out = s.out := rfl
@[simp] theorem updMember_fuses (k : Nat) (g : Member → Member) : (updMember k g s).fuses = s.fuses := rfl
@[simp] theorem updMember_boot (k : Nat) (g : Member → Member) : (updMember k g s).boot = s.boot := rfl
@[simp] theorem updMember_mode (k : Nat) (g : Member → Member) : (updMember k g s).mode = s.mode := rfl
@[simp] theorem updMember_entryCause (k : Nat) (g : Member → Member) : (updMember k g s).entryCause = s.entryCause := rfl
@[simp] theorem updMember_transit (k : Nat) (g : Member → Member) : (updMember k g s).transit = s.transit := rfl
@[simp] theorem updMember_armedMode (k : Nat) (g : Member → Member) : (updMember k g s).armedMode = s.armedMode := rfl
@[simp] theorem updMember_dormantFrom (k : Nat) (g : Member → Member) : (updMember k g s).dormantFrom = s.dormantFrom := rfl
@[simp] theorem updMember_served (k : Nat) (g : Member → Member) : (updMember k g s).served = s.served := rfl
@[simp] theorem updMember_entropyReady (k : Nat) (g : Member → Member) : (updMember k g s).entropyReady = s.entropyReady := rfl
@[simp] theorem updMember_entropyFailed (k : Nat) (g : Member → Member) : (updMember k g s).entropyFailed = s.entropyFailed := rfl
@[simp] theorem updMember_drbgCount (k : Nat) (g : Member → Member) : (updMember k g s).drbgCount = s.drbgCount := rfl
@[simp] theorem updMember_blocked (k : Nat) (g : Member → Member) : (updMember k g s).blocked = s.blocked := rfl
@[simp] theorem updMember_blockReason (k : Nat) (g : Member → Member) : (updMember k g s).blockReason = s.blockReason := rfl
@[simp] theorem updMember_spdm (k : Nat) (g : Member → Member) : (updMember k g s).spdm = s.spdm := rfl
@[simp] theorem updMember_wh (k : Nat) (g : Member → Member) : (updMember k g s).wh = s.wh := rfl
@[simp] theorem updMember_chans (k : Nat) (g : Member → Member) : (updMember k g s).chans = s.chans := rfl
@[simp] theorem updMember_fwd (k : Nat) (g : Member → Member) : (updMember k g s).fwd = s.fwd := rfl
@[simp] theorem updMember_chanTab (k : Nat) (g : Member → Member) : (updMember k g s).chanTab = s.chanTab := rfl
@[simp] theorem updMember_accepted (k : Nat) (g : Member → Member) : (updMember k g s).accepted = s.accepted := rfl
@[simp] theorem updMember_cmdFailed (k : Nat) (g : Member → Member) : (updMember k g s).cmdFailed = s.cmdFailed := rfl
@[simp] theorem updMember_boxes (k : Nat) (g : Member → Member) : (updMember k g s).boxes = s.boxes := rfl
@[simp] theorem updMember_arbiters (k : Nat) (g : Member → Member) : (updMember k g s).arbiters = s.arbiters := rfl
@[simp] theorem updMember_links (k : Nat) (g : Member → Member) : (updMember k g s).links = s.links := rfl
@[simp] theorem updMember_fns (k : Nat) (g : Member → Member) : (updMember k g s).fns = s.fns := rfl
@[simp] theorem updMember_msix (k : Nat) (g : Member → Member) : (updMember k g s).msix = s.msix := rfl
@[simp] theorem updMember_peers (k : Nat) (g : Member → Member) : (updMember k g s).peers = s.peers := rfl
@[simp] theorem updMember_atc (k : Nat) (g : Member → Member) : (updMember k g s).atc = s.atc := rfl
@[simp] theorem updMember_atsReqs (k : Nat) (g : Member → Member) : (updMember k g s).atsReqs = s.atsReqs := rfl
@[simp] theorem updMember_invReqs (k : Nat) (g : Member → Member) : (updMember k g s).invReqs = s.invReqs := rfl
@[simp] theorem updMember_heldOut (k : Nat) (g : Member → Member) : (updMember k g s).heldOut = s.heldOut := rfl
@[simp] theorem updMember_clay (k : Nat) (g : Member → Member) : (updMember k g s).clay = s.clay := rfl
@[simp] theorem updMember_funcs (k : Nat) (g : Member → Member) : (updMember k g s).funcs = s.funcs := rfl
@[simp] theorem updMember_ports (k : Nat) (g : Member → Member) : (updMember k g s).ports = s.ports := rfl
@[simp] theorem updMember_gens (k : Nat) (g : Member → Member) : (updMember k g s).gens = s.gens := rfl
@[simp] theorem updMember_modBus (k : Nat) (g : Member → Member) : (updMember k g s).modBus = s.modBus := rfl
@[simp] theorem updMember_tables (k : Nat) (g : Member → Member) : (updMember k g s).tables = s.tables := rfl
@[simp] theorem updMember_cis (k : Nat) (g : Member → Member) : (updMember k g s).cis = s.cis := rfl
@[simp] theorem updMember_cipher (k : Nat) (g : Member → Member) : (updMember k g s).cipher = s.cipher := rfl
@[simp] theorem updMember_rings (k : Nat) (g : Member → Member) : (updMember k g s).rings = s.rings := rfl
@[simp] theorem updMember_time (k : Nat) (g : Member → Member) : (updMember k g s).time = s.time := rfl
@[simp] theorem updMember_fh (k : Nat) (g : Member → Member) : (updMember k g s).fh = s.fh := rfl
@[simp] theorem updMember_comb (k : Nat) (g : Member → Member) : (updMember k g s).comb = s.comb := rfl
@[simp] theorem updMember_power (k : Nat) (g : Member → Member) : (updMember k g s).power = s.power := rfl
@[simp] theorem updMember_evt (k : Nat) (g : Member → Member) : (updMember k g s).evt = s.evt := rfl
@[simp] theorem updMember_fault (k : Nat) (g : Member → Member) : (updMember k g s).fault = s.fault := rfl
@[simp] theorem updMember_counters (k : Nat) (g : Member → Member) : (updMember k g s).counters = s.counters := rfl
@[simp] theorem updMember_monitors (k : Nat) (g : Member → Member) : (updMember k g s).monitors = s.monitors := rfl

@[simp] theorem updChan_pending (ch : Chan) (g : ChanSt → ChanSt) : (updChan ch g s).pending = s.pending := rfl
@[simp] theorem updChan_out (ch : Chan) (g : ChanSt → ChanSt) : (updChan ch g s).out = s.out := rfl
@[simp] theorem updChan_fuses (ch : Chan) (g : ChanSt → ChanSt) : (updChan ch g s).fuses = s.fuses := rfl
@[simp] theorem updChan_boot (ch : Chan) (g : ChanSt → ChanSt) : (updChan ch g s).boot = s.boot := rfl
@[simp] theorem updChan_mode (ch : Chan) (g : ChanSt → ChanSt) : (updChan ch g s).mode = s.mode := rfl
@[simp] theorem updChan_entryCause (ch : Chan) (g : ChanSt → ChanSt) : (updChan ch g s).entryCause = s.entryCause := rfl
@[simp] theorem updChan_transit (ch : Chan) (g : ChanSt → ChanSt) : (updChan ch g s).transit = s.transit := rfl
@[simp] theorem updChan_armedMode (ch : Chan) (g : ChanSt → ChanSt) : (updChan ch g s).armedMode = s.armedMode := rfl
@[simp] theorem updChan_dormantFrom (ch : Chan) (g : ChanSt → ChanSt) : (updChan ch g s).dormantFrom = s.dormantFrom := rfl
@[simp] theorem updChan_served (ch : Chan) (g : ChanSt → ChanSt) : (updChan ch g s).served = s.served := rfl
@[simp] theorem updChan_entropyReady (ch : Chan) (g : ChanSt → ChanSt) : (updChan ch g s).entropyReady = s.entropyReady := rfl
@[simp] theorem updChan_entropyFailed (ch : Chan) (g : ChanSt → ChanSt) : (updChan ch g s).entropyFailed = s.entropyFailed := rfl
@[simp] theorem updChan_drbgCount (ch : Chan) (g : ChanSt → ChanSt) : (updChan ch g s).drbgCount = s.drbgCount := rfl
@[simp] theorem updChan_blocked (ch : Chan) (g : ChanSt → ChanSt) : (updChan ch g s).blocked = s.blocked := rfl
@[simp] theorem updChan_blockReason (ch : Chan) (g : ChanSt → ChanSt) : (updChan ch g s).blockReason = s.blockReason := rfl
@[simp] theorem updChan_spdm (ch : Chan) (g : ChanSt → ChanSt) : (updChan ch g s).spdm = s.spdm := rfl
@[simp] theorem updChan_wh (ch : Chan) (g : ChanSt → ChanSt) : (updChan ch g s).wh = s.wh := rfl
@[simp] theorem updChan_fwd (ch : Chan) (g : ChanSt → ChanSt) : (updChan ch g s).fwd = s.fwd := rfl
@[simp] theorem updChan_chanTab (ch : Chan) (g : ChanSt → ChanSt) : (updChan ch g s).chanTab = s.chanTab := rfl
@[simp] theorem updChan_accepted (ch : Chan) (g : ChanSt → ChanSt) : (updChan ch g s).accepted = s.accepted := rfl
@[simp] theorem updChan_cmdFailed (ch : Chan) (g : ChanSt → ChanSt) : (updChan ch g s).cmdFailed = s.cmdFailed := rfl
@[simp] theorem updChan_boxes (ch : Chan) (g : ChanSt → ChanSt) : (updChan ch g s).boxes = s.boxes := rfl
@[simp] theorem updChan_arbiters (ch : Chan) (g : ChanSt → ChanSt) : (updChan ch g s).arbiters = s.arbiters := rfl
@[simp] theorem updChan_links (ch : Chan) (g : ChanSt → ChanSt) : (updChan ch g s).links = s.links := rfl
@[simp] theorem updChan_fns (ch : Chan) (g : ChanSt → ChanSt) : (updChan ch g s).fns = s.fns := rfl
@[simp] theorem updChan_msix (ch : Chan) (g : ChanSt → ChanSt) : (updChan ch g s).msix = s.msix := rfl
@[simp] theorem updChan_peers (ch : Chan) (g : ChanSt → ChanSt) : (updChan ch g s).peers = s.peers := rfl
@[simp] theorem updChan_atc (ch : Chan) (g : ChanSt → ChanSt) : (updChan ch g s).atc = s.atc := rfl
@[simp] theorem updChan_atsReqs (ch : Chan) (g : ChanSt → ChanSt) : (updChan ch g s).atsReqs = s.atsReqs := rfl
@[simp] theorem updChan_invReqs (ch : Chan) (g : ChanSt → ChanSt) : (updChan ch g s).invReqs = s.invReqs := rfl
@[simp] theorem updChan_heldOut (ch : Chan) (g : ChanSt → ChanSt) : (updChan ch g s).heldOut = s.heldOut := rfl
@[simp] theorem updChan_clay (ch : Chan) (g : ChanSt → ChanSt) : (updChan ch g s).clay = s.clay := rfl
@[simp] theorem updChan_funcs (ch : Chan) (g : ChanSt → ChanSt) : (updChan ch g s).funcs = s.funcs := rfl
@[simp] theorem updChan_ports (ch : Chan) (g : ChanSt → ChanSt) : (updChan ch g s).ports = s.ports := rfl
@[simp] theorem updChan_gens (ch : Chan) (g : ChanSt → ChanSt) : (updChan ch g s).gens = s.gens := rfl
@[simp] theorem updChan_modBus (ch : Chan) (g : ChanSt → ChanSt) : (updChan ch g s).modBus = s.modBus := rfl
@[simp] theorem updChan_tables (ch : Chan) (g : ChanSt → ChanSt) : (updChan ch g s).tables = s.tables := rfl
@[simp] theorem updChan_cis (ch : Chan) (g : ChanSt → ChanSt) : (updChan ch g s).cis = s.cis := rfl
@[simp] theorem updChan_cipher (ch : Chan) (g : ChanSt → ChanSt) : (updChan ch g s).cipher = s.cipher := rfl
@[simp] theorem updChan_rings (ch : Chan) (g : ChanSt → ChanSt) : (updChan ch g s).rings = s.rings := rfl
@[simp] theorem updChan_time (ch : Chan) (g : ChanSt → ChanSt) : (updChan ch g s).time = s.time := rfl
@[simp] theorem updChan_fh (ch : Chan) (g : ChanSt → ChanSt) : (updChan ch g s).fh = s.fh := rfl
@[simp] theorem updChan_comb (ch : Chan) (g : ChanSt → ChanSt) : (updChan ch g s).comb = s.comb := rfl
@[simp] theorem updChan_aq (ch : Chan) (g : ChanSt → ChanSt) : (updChan ch g s).aq = s.aq := rfl
@[simp] theorem updChan_power (ch : Chan) (g : ChanSt → ChanSt) : (updChan ch g s).power = s.power := rfl
@[simp] theorem updChan_evt (ch : Chan) (g : ChanSt → ChanSt) : (updChan ch g s).evt = s.evt := rfl
@[simp] theorem updChan_fault (ch : Chan) (g : ChanSt → ChanSt) : (updChan ch g s).fault = s.fault := rfl
@[simp] theorem updChan_counters (ch : Chan) (g : ChanSt → ChanSt) : (updChan ch g s).counters = s.counters := rfl
@[simp] theorem updChan_monitors (ch : Chan) (g : ChanSt → ChanSt) : (updChan ch g s).monitors = s.monitors := rfl

@[simp] theorem updBox_pending (b : Nat) (g : Mbox → Mbox) : (updBox b g s).pending = s.pending := rfl
@[simp] theorem updBox_out (b : Nat) (g : Mbox → Mbox) : (updBox b g s).out = s.out := rfl
@[simp] theorem updBox_fuses (b : Nat) (g : Mbox → Mbox) : (updBox b g s).fuses = s.fuses := rfl
@[simp] theorem updBox_boot (b : Nat) (g : Mbox → Mbox) : (updBox b g s).boot = s.boot := rfl
@[simp] theorem updBox_mode (b : Nat) (g : Mbox → Mbox) : (updBox b g s).mode = s.mode := rfl
@[simp] theorem updBox_entryCause (b : Nat) (g : Mbox → Mbox) : (updBox b g s).entryCause = s.entryCause := rfl
@[simp] theorem updBox_transit (b : Nat) (g : Mbox → Mbox) : (updBox b g s).transit = s.transit := rfl
@[simp] theorem updBox_armedMode (b : Nat) (g : Mbox → Mbox) : (updBox b g s).armedMode = s.armedMode := rfl
@[simp] theorem updBox_dormantFrom (b : Nat) (g : Mbox → Mbox) : (updBox b g s).dormantFrom = s.dormantFrom := rfl
@[simp] theorem updBox_served (b : Nat) (g : Mbox → Mbox) : (updBox b g s).served = s.served := rfl
@[simp] theorem updBox_entropyReady (b : Nat) (g : Mbox → Mbox) : (updBox b g s).entropyReady = s.entropyReady := rfl
@[simp] theorem updBox_entropyFailed (b : Nat) (g : Mbox → Mbox) : (updBox b g s).entropyFailed = s.entropyFailed := rfl
@[simp] theorem updBox_drbgCount (b : Nat) (g : Mbox → Mbox) : (updBox b g s).drbgCount = s.drbgCount := rfl
@[simp] theorem updBox_blocked (b : Nat) (g : Mbox → Mbox) : (updBox b g s).blocked = s.blocked := rfl
@[simp] theorem updBox_blockReason (b : Nat) (g : Mbox → Mbox) : (updBox b g s).blockReason = s.blockReason := rfl
@[simp] theorem updBox_spdm (b : Nat) (g : Mbox → Mbox) : (updBox b g s).spdm = s.spdm := rfl
@[simp] theorem updBox_wh (b : Nat) (g : Mbox → Mbox) : (updBox b g s).wh = s.wh := rfl
@[simp] theorem updBox_chans (b : Nat) (g : Mbox → Mbox) : (updBox b g s).chans = s.chans := rfl
@[simp] theorem updBox_fwd (b : Nat) (g : Mbox → Mbox) : (updBox b g s).fwd = s.fwd := rfl
@[simp] theorem updBox_chanTab (b : Nat) (g : Mbox → Mbox) : (updBox b g s).chanTab = s.chanTab := rfl
@[simp] theorem updBox_accepted (b : Nat) (g : Mbox → Mbox) : (updBox b g s).accepted = s.accepted := rfl
@[simp] theorem updBox_cmdFailed (b : Nat) (g : Mbox → Mbox) : (updBox b g s).cmdFailed = s.cmdFailed := rfl
@[simp] theorem updBox_arbiters (b : Nat) (g : Mbox → Mbox) : (updBox b g s).arbiters = s.arbiters := rfl
@[simp] theorem updBox_links (b : Nat) (g : Mbox → Mbox) : (updBox b g s).links = s.links := rfl
@[simp] theorem updBox_fns (b : Nat) (g : Mbox → Mbox) : (updBox b g s).fns = s.fns := rfl
@[simp] theorem updBox_msix (b : Nat) (g : Mbox → Mbox) : (updBox b g s).msix = s.msix := rfl
@[simp] theorem updBox_peers (b : Nat) (g : Mbox → Mbox) : (updBox b g s).peers = s.peers := rfl
@[simp] theorem updBox_atc (b : Nat) (g : Mbox → Mbox) : (updBox b g s).atc = s.atc := rfl
@[simp] theorem updBox_atsReqs (b : Nat) (g : Mbox → Mbox) : (updBox b g s).atsReqs = s.atsReqs := rfl
@[simp] theorem updBox_invReqs (b : Nat) (g : Mbox → Mbox) : (updBox b g s).invReqs = s.invReqs := rfl
@[simp] theorem updBox_heldOut (b : Nat) (g : Mbox → Mbox) : (updBox b g s).heldOut = s.heldOut := rfl
@[simp] theorem updBox_clay (b : Nat) (g : Mbox → Mbox) : (updBox b g s).clay = s.clay := rfl
@[simp] theorem updBox_funcs (b : Nat) (g : Mbox → Mbox) : (updBox b g s).funcs = s.funcs := rfl
@[simp] theorem updBox_ports (b : Nat) (g : Mbox → Mbox) : (updBox b g s).ports = s.ports := rfl
@[simp] theorem updBox_gens (b : Nat) (g : Mbox → Mbox) : (updBox b g s).gens = s.gens := rfl
@[simp] theorem updBox_modBus (b : Nat) (g : Mbox → Mbox) : (updBox b g s).modBus = s.modBus := rfl
@[simp] theorem updBox_tables (b : Nat) (g : Mbox → Mbox) : (updBox b g s).tables = s.tables := rfl
@[simp] theorem updBox_cis (b : Nat) (g : Mbox → Mbox) : (updBox b g s).cis = s.cis := rfl
@[simp] theorem updBox_cipher (b : Nat) (g : Mbox → Mbox) : (updBox b g s).cipher = s.cipher := rfl
@[simp] theorem updBox_rings (b : Nat) (g : Mbox → Mbox) : (updBox b g s).rings = s.rings := rfl
@[simp] theorem updBox_time (b : Nat) (g : Mbox → Mbox) : (updBox b g s).time = s.time := rfl
@[simp] theorem updBox_fh (b : Nat) (g : Mbox → Mbox) : (updBox b g s).fh = s.fh := rfl
@[simp] theorem updBox_comb (b : Nat) (g : Mbox → Mbox) : (updBox b g s).comb = s.comb := rfl
@[simp] theorem updBox_aq (b : Nat) (g : Mbox → Mbox) : (updBox b g s).aq = s.aq := rfl
@[simp] theorem updBox_power (b : Nat) (g : Mbox → Mbox) : (updBox b g s).power = s.power := rfl
@[simp] theorem updBox_evt (b : Nat) (g : Mbox → Mbox) : (updBox b g s).evt = s.evt := rfl
@[simp] theorem updBox_fault (b : Nat) (g : Mbox → Mbox) : (updBox b g s).fault = s.fault := rfl
@[simp] theorem updBox_counters (b : Nat) (g : Mbox → Mbox) : (updBox b g s).counters = s.counters := rfl
@[simp] theorem updBox_monitors (b : Nat) (g : Mbox → Mbox) : (updBox b g s).monitors = s.monitors := rfl

@[simp] theorem updQp_pending (n : Nat) (g : Qp → Qp) : (updQp n g s).pending = s.pending := rfl
@[simp] theorem updQp_out (n : Nat) (g : Qp → Qp) : (updQp n g s).out = s.out := rfl
@[simp] theorem updQp_fuses (n : Nat) (g : Qp → Qp) : (updQp n g s).fuses = s.fuses := rfl
@[simp] theorem updQp_boot (n : Nat) (g : Qp → Qp) : (updQp n g s).boot = s.boot := rfl
@[simp] theorem updQp_mode (n : Nat) (g : Qp → Qp) : (updQp n g s).mode = s.mode := rfl
@[simp] theorem updQp_entryCause (n : Nat) (g : Qp → Qp) : (updQp n g s).entryCause = s.entryCause := rfl
@[simp] theorem updQp_transit (n : Nat) (g : Qp → Qp) : (updQp n g s).transit = s.transit := rfl
@[simp] theorem updQp_armedMode (n : Nat) (g : Qp → Qp) : (updQp n g s).armedMode = s.armedMode := rfl
@[simp] theorem updQp_dormantFrom (n : Nat) (g : Qp → Qp) : (updQp n g s).dormantFrom = s.dormantFrom := rfl
@[simp] theorem updQp_served (n : Nat) (g : Qp → Qp) : (updQp n g s).served = s.served := rfl
@[simp] theorem updQp_entropyReady (n : Nat) (g : Qp → Qp) : (updQp n g s).entropyReady = s.entropyReady := rfl
@[simp] theorem updQp_entropyFailed (n : Nat) (g : Qp → Qp) : (updQp n g s).entropyFailed = s.entropyFailed := rfl
@[simp] theorem updQp_drbgCount (n : Nat) (g : Qp → Qp) : (updQp n g s).drbgCount = s.drbgCount := rfl
@[simp] theorem updQp_blocked (n : Nat) (g : Qp → Qp) : (updQp n g s).blocked = s.blocked := rfl
@[simp] theorem updQp_blockReason (n : Nat) (g : Qp → Qp) : (updQp n g s).blockReason = s.blockReason := rfl
@[simp] theorem updQp_spdm (n : Nat) (g : Qp → Qp) : (updQp n g s).spdm = s.spdm := rfl
@[simp] theorem updQp_wh (n : Nat) (g : Qp → Qp) : (updQp n g s).wh = s.wh := rfl
@[simp] theorem updQp_chans (n : Nat) (g : Qp → Qp) : (updQp n g s).chans = s.chans := rfl
@[simp] theorem updQp_fwd (n : Nat) (g : Qp → Qp) : (updQp n g s).fwd = s.fwd := rfl
@[simp] theorem updQp_chanTab (n : Nat) (g : Qp → Qp) : (updQp n g s).chanTab = s.chanTab := rfl
@[simp] theorem updQp_accepted (n : Nat) (g : Qp → Qp) : (updQp n g s).accepted = s.accepted := rfl
@[simp] theorem updQp_cmdFailed (n : Nat) (g : Qp → Qp) : (updQp n g s).cmdFailed = s.cmdFailed := rfl
@[simp] theorem updQp_boxes (n : Nat) (g : Qp → Qp) : (updQp n g s).boxes = s.boxes := rfl
@[simp] theorem updQp_arbiters (n : Nat) (g : Qp → Qp) : (updQp n g s).arbiters = s.arbiters := rfl
@[simp] theorem updQp_links (n : Nat) (g : Qp → Qp) : (updQp n g s).links = s.links := rfl
@[simp] theorem updQp_fns (n : Nat) (g : Qp → Qp) : (updQp n g s).fns = s.fns := rfl
@[simp] theorem updQp_msix (n : Nat) (g : Qp → Qp) : (updQp n g s).msix = s.msix := rfl
@[simp] theorem updQp_peers (n : Nat) (g : Qp → Qp) : (updQp n g s).peers = s.peers := rfl
@[simp] theorem updQp_atc (n : Nat) (g : Qp → Qp) : (updQp n g s).atc = s.atc := rfl
@[simp] theorem updQp_atsReqs (n : Nat) (g : Qp → Qp) : (updQp n g s).atsReqs = s.atsReqs := rfl
@[simp] theorem updQp_invReqs (n : Nat) (g : Qp → Qp) : (updQp n g s).invReqs = s.invReqs := rfl
@[simp] theorem updQp_heldOut (n : Nat) (g : Qp → Qp) : (updQp n g s).heldOut = s.heldOut := rfl
@[simp] theorem updQp_clay (n : Nat) (g : Qp → Qp) : (updQp n g s).clay = s.clay := rfl
@[simp] theorem updQp_funcs (n : Nat) (g : Qp → Qp) : (updQp n g s).funcs = s.funcs := rfl
@[simp] theorem updQp_ports (n : Nat) (g : Qp → Qp) : (updQp n g s).ports = s.ports := rfl
@[simp] theorem updQp_gens (n : Nat) (g : Qp → Qp) : (updQp n g s).gens = s.gens := rfl
@[simp] theorem updQp_modBus (n : Nat) (g : Qp → Qp) : (updQp n g s).modBus = s.modBus := rfl
@[simp] theorem updQp_tables (n : Nat) (g : Qp → Qp) : (updQp n g s).tables = s.tables := rfl
@[simp] theorem updQp_cis (n : Nat) (g : Qp → Qp) : (updQp n g s).cis = s.cis := rfl
@[simp] theorem updQp_cipher (n : Nat) (g : Qp → Qp) : (updQp n g s).cipher = s.cipher := rfl
@[simp] theorem updQp_time (n : Nat) (g : Qp → Qp) : (updQp n g s).time = s.time := rfl
@[simp] theorem updQp_fh (n : Nat) (g : Qp → Qp) : (updQp n g s).fh = s.fh := rfl
@[simp] theorem updQp_comb (n : Nat) (g : Qp → Qp) : (updQp n g s).comb = s.comb := rfl
@[simp] theorem updQp_aq (n : Nat) (g : Qp → Qp) : (updQp n g s).aq = s.aq := rfl
@[simp] theorem updQp_power (n : Nat) (g : Qp → Qp) : (updQp n g s).power = s.power := rfl
@[simp] theorem updQp_evt (n : Nat) (g : Qp → Qp) : (updQp n g s).evt = s.evt := rfl
@[simp] theorem updQp_fault (n : Nat) (g : Qp → Qp) : (updQp n g s).fault = s.fault := rfl
@[simp] theorem updQp_counters (n : Nat) (g : Qp → Qp) : (updQp n g s).counters = s.counters := rfl
@[simp] theorem updQp_monitors (n : Nat) (g : Qp → Qp) : (updQp n g s).monitors = s.monitors := rfl

@[simp] theorem updPump_pending (n : Nat) (g : PumpCh → PumpCh) : (updPump n g s).pending = s.pending := rfl
@[simp] theorem updPump_out (n : Nat) (g : PumpCh → PumpCh) : (updPump n g s).out = s.out := rfl
@[simp] theorem updPump_fuses (n : Nat) (g : PumpCh → PumpCh) : (updPump n g s).fuses = s.fuses := rfl
@[simp] theorem updPump_boot (n : Nat) (g : PumpCh → PumpCh) : (updPump n g s).boot = s.boot := rfl
@[simp] theorem updPump_mode (n : Nat) (g : PumpCh → PumpCh) : (updPump n g s).mode = s.mode := rfl
@[simp] theorem updPump_entryCause (n : Nat) (g : PumpCh → PumpCh) : (updPump n g s).entryCause = s.entryCause := rfl
@[simp] theorem updPump_transit (n : Nat) (g : PumpCh → PumpCh) : (updPump n g s).transit = s.transit := rfl
@[simp] theorem updPump_armedMode (n : Nat) (g : PumpCh → PumpCh) : (updPump n g s).armedMode = s.armedMode := rfl
@[simp] theorem updPump_dormantFrom (n : Nat) (g : PumpCh → PumpCh) : (updPump n g s).dormantFrom = s.dormantFrom := rfl
@[simp] theorem updPump_served (n : Nat) (g : PumpCh → PumpCh) : (updPump n g s).served = s.served := rfl
@[simp] theorem updPump_entropyReady (n : Nat) (g : PumpCh → PumpCh) : (updPump n g s).entropyReady = s.entropyReady := rfl
@[simp] theorem updPump_entropyFailed (n : Nat) (g : PumpCh → PumpCh) : (updPump n g s).entropyFailed = s.entropyFailed := rfl
@[simp] theorem updPump_drbgCount (n : Nat) (g : PumpCh → PumpCh) : (updPump n g s).drbgCount = s.drbgCount := rfl
@[simp] theorem updPump_blocked (n : Nat) (g : PumpCh → PumpCh) : (updPump n g s).blocked = s.blocked := rfl
@[simp] theorem updPump_blockReason (n : Nat) (g : PumpCh → PumpCh) : (updPump n g s).blockReason = s.blockReason := rfl
@[simp] theorem updPump_spdm (n : Nat) (g : PumpCh → PumpCh) : (updPump n g s).spdm = s.spdm := rfl
@[simp] theorem updPump_wh (n : Nat) (g : PumpCh → PumpCh) : (updPump n g s).wh = s.wh := rfl
@[simp] theorem updPump_chans (n : Nat) (g : PumpCh → PumpCh) : (updPump n g s).chans = s.chans := rfl
@[simp] theorem updPump_fwd (n : Nat) (g : PumpCh → PumpCh) : (updPump n g s).fwd = s.fwd := rfl
@[simp] theorem updPump_chanTab (n : Nat) (g : PumpCh → PumpCh) : (updPump n g s).chanTab = s.chanTab := rfl
@[simp] theorem updPump_accepted (n : Nat) (g : PumpCh → PumpCh) : (updPump n g s).accepted = s.accepted := rfl
@[simp] theorem updPump_cmdFailed (n : Nat) (g : PumpCh → PumpCh) : (updPump n g s).cmdFailed = s.cmdFailed := rfl
@[simp] theorem updPump_boxes (n : Nat) (g : PumpCh → PumpCh) : (updPump n g s).boxes = s.boxes := rfl
@[simp] theorem updPump_arbiters (n : Nat) (g : PumpCh → PumpCh) : (updPump n g s).arbiters = s.arbiters := rfl
@[simp] theorem updPump_links (n : Nat) (g : PumpCh → PumpCh) : (updPump n g s).links = s.links := rfl
@[simp] theorem updPump_fns (n : Nat) (g : PumpCh → PumpCh) : (updPump n g s).fns = s.fns := rfl
@[simp] theorem updPump_msix (n : Nat) (g : PumpCh → PumpCh) : (updPump n g s).msix = s.msix := rfl
@[simp] theorem updPump_peers (n : Nat) (g : PumpCh → PumpCh) : (updPump n g s).peers = s.peers := rfl
@[simp] theorem updPump_atc (n : Nat) (g : PumpCh → PumpCh) : (updPump n g s).atc = s.atc := rfl
@[simp] theorem updPump_atsReqs (n : Nat) (g : PumpCh → PumpCh) : (updPump n g s).atsReqs = s.atsReqs := rfl
@[simp] theorem updPump_invReqs (n : Nat) (g : PumpCh → PumpCh) : (updPump n g s).invReqs = s.invReqs := rfl
@[simp] theorem updPump_heldOut (n : Nat) (g : PumpCh → PumpCh) : (updPump n g s).heldOut = s.heldOut := rfl
@[simp] theorem updPump_clay (n : Nat) (g : PumpCh → PumpCh) : (updPump n g s).clay = s.clay := rfl
@[simp] theorem updPump_funcs (n : Nat) (g : PumpCh → PumpCh) : (updPump n g s).funcs = s.funcs := rfl
@[simp] theorem updPump_ports (n : Nat) (g : PumpCh → PumpCh) : (updPump n g s).ports = s.ports := rfl
@[simp] theorem updPump_gens (n : Nat) (g : PumpCh → PumpCh) : (updPump n g s).gens = s.gens := rfl
@[simp] theorem updPump_modBus (n : Nat) (g : PumpCh → PumpCh) : (updPump n g s).modBus = s.modBus := rfl
@[simp] theorem updPump_tables (n : Nat) (g : PumpCh → PumpCh) : (updPump n g s).tables = s.tables := rfl
@[simp] theorem updPump_cis (n : Nat) (g : PumpCh → PumpCh) : (updPump n g s).cis = s.cis := rfl
@[simp] theorem updPump_cipher (n : Nat) (g : PumpCh → PumpCh) : (updPump n g s).cipher = s.cipher := rfl
@[simp] theorem updPump_time (n : Nat) (g : PumpCh → PumpCh) : (updPump n g s).time = s.time := rfl
@[simp] theorem updPump_fh (n : Nat) (g : PumpCh → PumpCh) : (updPump n g s).fh = s.fh := rfl
@[simp] theorem updPump_comb (n : Nat) (g : PumpCh → PumpCh) : (updPump n g s).comb = s.comb := rfl
@[simp] theorem updPump_aq (n : Nat) (g : PumpCh → PumpCh) : (updPump n g s).aq = s.aq := rfl
@[simp] theorem updPump_power (n : Nat) (g : PumpCh → PumpCh) : (updPump n g s).power = s.power := rfl
@[simp] theorem updPump_evt (n : Nat) (g : PumpCh → PumpCh) : (updPump n g s).evt = s.evt := rfl
@[simp] theorem updPump_fault (n : Nat) (g : PumpCh → PumpCh) : (updPump n g s).fault = s.fault := rfl
@[simp] theorem updPump_counters (n : Nat) (g : PumpCh → PumpCh) : (updPump n g s).counters = s.counters := rfl
@[simp] theorem updPump_monitors (n : Nat) (g : PumpCh → PumpCh) : (updPump n g s).monitors = s.monitors := rfl

@[simp] theorem updPcq_pending (m : Nat) (g : Pcq → Pcq) : (updPcq m g s).pending = s.pending := rfl
@[simp] theorem updPcq_out (m : Nat) (g : Pcq → Pcq) : (updPcq m g s).out = s.out := rfl
@[simp] theorem updPcq_fuses (m : Nat) (g : Pcq → Pcq) : (updPcq m g s).fuses = s.fuses := rfl
@[simp] theorem updPcq_boot (m : Nat) (g : Pcq → Pcq) : (updPcq m g s).boot = s.boot := rfl
@[simp] theorem updPcq_mode (m : Nat) (g : Pcq → Pcq) : (updPcq m g s).mode = s.mode := rfl
@[simp] theorem updPcq_entryCause (m : Nat) (g : Pcq → Pcq) : (updPcq m g s).entryCause = s.entryCause := rfl
@[simp] theorem updPcq_transit (m : Nat) (g : Pcq → Pcq) : (updPcq m g s).transit = s.transit := rfl
@[simp] theorem updPcq_armedMode (m : Nat) (g : Pcq → Pcq) : (updPcq m g s).armedMode = s.armedMode := rfl
@[simp] theorem updPcq_dormantFrom (m : Nat) (g : Pcq → Pcq) : (updPcq m g s).dormantFrom = s.dormantFrom := rfl
@[simp] theorem updPcq_served (m : Nat) (g : Pcq → Pcq) : (updPcq m g s).served = s.served := rfl
@[simp] theorem updPcq_entropyReady (m : Nat) (g : Pcq → Pcq) : (updPcq m g s).entropyReady = s.entropyReady := rfl
@[simp] theorem updPcq_entropyFailed (m : Nat) (g : Pcq → Pcq) : (updPcq m g s).entropyFailed = s.entropyFailed := rfl
@[simp] theorem updPcq_drbgCount (m : Nat) (g : Pcq → Pcq) : (updPcq m g s).drbgCount = s.drbgCount := rfl
@[simp] theorem updPcq_blocked (m : Nat) (g : Pcq → Pcq) : (updPcq m g s).blocked = s.blocked := rfl
@[simp] theorem updPcq_blockReason (m : Nat) (g : Pcq → Pcq) : (updPcq m g s).blockReason = s.blockReason := rfl
@[simp] theorem updPcq_spdm (m : Nat) (g : Pcq → Pcq) : (updPcq m g s).spdm = s.spdm := rfl
@[simp] theorem updPcq_wh (m : Nat) (g : Pcq → Pcq) : (updPcq m g s).wh = s.wh := rfl
@[simp] theorem updPcq_chans (m : Nat) (g : Pcq → Pcq) : (updPcq m g s).chans = s.chans := rfl
@[simp] theorem updPcq_fwd (m : Nat) (g : Pcq → Pcq) : (updPcq m g s).fwd = s.fwd := rfl
@[simp] theorem updPcq_chanTab (m : Nat) (g : Pcq → Pcq) : (updPcq m g s).chanTab = s.chanTab := rfl
@[simp] theorem updPcq_accepted (m : Nat) (g : Pcq → Pcq) : (updPcq m g s).accepted = s.accepted := rfl
@[simp] theorem updPcq_cmdFailed (m : Nat) (g : Pcq → Pcq) : (updPcq m g s).cmdFailed = s.cmdFailed := rfl
@[simp] theorem updPcq_boxes (m : Nat) (g : Pcq → Pcq) : (updPcq m g s).boxes = s.boxes := rfl
@[simp] theorem updPcq_arbiters (m : Nat) (g : Pcq → Pcq) : (updPcq m g s).arbiters = s.arbiters := rfl
@[simp] theorem updPcq_links (m : Nat) (g : Pcq → Pcq) : (updPcq m g s).links = s.links := rfl
@[simp] theorem updPcq_fns (m : Nat) (g : Pcq → Pcq) : (updPcq m g s).fns = s.fns := rfl
@[simp] theorem updPcq_msix (m : Nat) (g : Pcq → Pcq) : (updPcq m g s).msix = s.msix := rfl
@[simp] theorem updPcq_peers (m : Nat) (g : Pcq → Pcq) : (updPcq m g s).peers = s.peers := rfl
@[simp] theorem updPcq_atc (m : Nat) (g : Pcq → Pcq) : (updPcq m g s).atc = s.atc := rfl
@[simp] theorem updPcq_atsReqs (m : Nat) (g : Pcq → Pcq) : (updPcq m g s).atsReqs = s.atsReqs := rfl
@[simp] theorem updPcq_invReqs (m : Nat) (g : Pcq → Pcq) : (updPcq m g s).invReqs = s.invReqs := rfl
@[simp] theorem updPcq_heldOut (m : Nat) (g : Pcq → Pcq) : (updPcq m g s).heldOut = s.heldOut := rfl
@[simp] theorem updPcq_clay (m : Nat) (g : Pcq → Pcq) : (updPcq m g s).clay = s.clay := rfl
@[simp] theorem updPcq_funcs (m : Nat) (g : Pcq → Pcq) : (updPcq m g s).funcs = s.funcs := rfl
@[simp] theorem updPcq_ports (m : Nat) (g : Pcq → Pcq) : (updPcq m g s).ports = s.ports := rfl
@[simp] theorem updPcq_gens (m : Nat) (g : Pcq → Pcq) : (updPcq m g s).gens = s.gens := rfl
@[simp] theorem updPcq_modBus (m : Nat) (g : Pcq → Pcq) : (updPcq m g s).modBus = s.modBus := rfl
@[simp] theorem updPcq_tables (m : Nat) (g : Pcq → Pcq) : (updPcq m g s).tables = s.tables := rfl
@[simp] theorem updPcq_cis (m : Nat) (g : Pcq → Pcq) : (updPcq m g s).cis = s.cis := rfl
@[simp] theorem updPcq_cipher (m : Nat) (g : Pcq → Pcq) : (updPcq m g s).cipher = s.cipher := rfl
@[simp] theorem updPcq_time (m : Nat) (g : Pcq → Pcq) : (updPcq m g s).time = s.time := rfl
@[simp] theorem updPcq_fh (m : Nat) (g : Pcq → Pcq) : (updPcq m g s).fh = s.fh := rfl
@[simp] theorem updPcq_comb (m : Nat) (g : Pcq → Pcq) : (updPcq m g s).comb = s.comb := rfl
@[simp] theorem updPcq_aq (m : Nat) (g : Pcq → Pcq) : (updPcq m g s).aq = s.aq := rfl
@[simp] theorem updPcq_power (m : Nat) (g : Pcq → Pcq) : (updPcq m g s).power = s.power := rfl
@[simp] theorem updPcq_evt (m : Nat) (g : Pcq → Pcq) : (updPcq m g s).evt = s.evt := rfl
@[simp] theorem updPcq_fault (m : Nat) (g : Pcq → Pcq) : (updPcq m g s).fault = s.fault := rfl
@[simp] theorem updPcq_counters (m : Nat) (g : Pcq → Pcq) : (updPcq m g s).counters = s.counters := rfl
@[simp] theorem updPcq_monitors (m : Nat) (g : Pcq → Pcq) : (updPcq m g s).monitors = s.monitors := rfl

@[simp] theorem updEm_pending (t : Nat) (g : EmTab → EmTab) : (updEm t g s).pending = s.pending := rfl
@[simp] theorem updEm_out (t : Nat) (g : EmTab → EmTab) : (updEm t g s).out = s.out := rfl
@[simp] theorem updEm_fuses (t : Nat) (g : EmTab → EmTab) : (updEm t g s).fuses = s.fuses := rfl
@[simp] theorem updEm_boot (t : Nat) (g : EmTab → EmTab) : (updEm t g s).boot = s.boot := rfl
@[simp] theorem updEm_mode (t : Nat) (g : EmTab → EmTab) : (updEm t g s).mode = s.mode := rfl
@[simp] theorem updEm_entryCause (t : Nat) (g : EmTab → EmTab) : (updEm t g s).entryCause = s.entryCause := rfl
@[simp] theorem updEm_transit (t : Nat) (g : EmTab → EmTab) : (updEm t g s).transit = s.transit := rfl
@[simp] theorem updEm_armedMode (t : Nat) (g : EmTab → EmTab) : (updEm t g s).armedMode = s.armedMode := rfl
@[simp] theorem updEm_dormantFrom (t : Nat) (g : EmTab → EmTab) : (updEm t g s).dormantFrom = s.dormantFrom := rfl
@[simp] theorem updEm_served (t : Nat) (g : EmTab → EmTab) : (updEm t g s).served = s.served := rfl
@[simp] theorem updEm_entropyReady (t : Nat) (g : EmTab → EmTab) : (updEm t g s).entropyReady = s.entropyReady := rfl
@[simp] theorem updEm_entropyFailed (t : Nat) (g : EmTab → EmTab) : (updEm t g s).entropyFailed = s.entropyFailed := rfl
@[simp] theorem updEm_drbgCount (t : Nat) (g : EmTab → EmTab) : (updEm t g s).drbgCount = s.drbgCount := rfl
@[simp] theorem updEm_blocked (t : Nat) (g : EmTab → EmTab) : (updEm t g s).blocked = s.blocked := rfl
@[simp] theorem updEm_blockReason (t : Nat) (g : EmTab → EmTab) : (updEm t g s).blockReason = s.blockReason := rfl
@[simp] theorem updEm_spdm (t : Nat) (g : EmTab → EmTab) : (updEm t g s).spdm = s.spdm := rfl
@[simp] theorem updEm_wh (t : Nat) (g : EmTab → EmTab) : (updEm t g s).wh = s.wh := rfl
@[simp] theorem updEm_chans (t : Nat) (g : EmTab → EmTab) : (updEm t g s).chans = s.chans := rfl
@[simp] theorem updEm_fwd (t : Nat) (g : EmTab → EmTab) : (updEm t g s).fwd = s.fwd := rfl
@[simp] theorem updEm_chanTab (t : Nat) (g : EmTab → EmTab) : (updEm t g s).chanTab = s.chanTab := rfl
@[simp] theorem updEm_accepted (t : Nat) (g : EmTab → EmTab) : (updEm t g s).accepted = s.accepted := rfl
@[simp] theorem updEm_cmdFailed (t : Nat) (g : EmTab → EmTab) : (updEm t g s).cmdFailed = s.cmdFailed := rfl
@[simp] theorem updEm_boxes (t : Nat) (g : EmTab → EmTab) : (updEm t g s).boxes = s.boxes := rfl
@[simp] theorem updEm_arbiters (t : Nat) (g : EmTab → EmTab) : (updEm t g s).arbiters = s.arbiters := rfl
@[simp] theorem updEm_links (t : Nat) (g : EmTab → EmTab) : (updEm t g s).links = s.links := rfl
@[simp] theorem updEm_fns (t : Nat) (g : EmTab → EmTab) : (updEm t g s).fns = s.fns := rfl
@[simp] theorem updEm_msix (t : Nat) (g : EmTab → EmTab) : (updEm t g s).msix = s.msix := rfl
@[simp] theorem updEm_peers (t : Nat) (g : EmTab → EmTab) : (updEm t g s).peers = s.peers := rfl
@[simp] theorem updEm_atc (t : Nat) (g : EmTab → EmTab) : (updEm t g s).atc = s.atc := rfl
@[simp] theorem updEm_atsReqs (t : Nat) (g : EmTab → EmTab) : (updEm t g s).atsReqs = s.atsReqs := rfl
@[simp] theorem updEm_invReqs (t : Nat) (g : EmTab → EmTab) : (updEm t g s).invReqs = s.invReqs := rfl
@[simp] theorem updEm_heldOut (t : Nat) (g : EmTab → EmTab) : (updEm t g s).heldOut = s.heldOut := rfl
@[simp] theorem updEm_clay (t : Nat) (g : EmTab → EmTab) : (updEm t g s).clay = s.clay := rfl
@[simp] theorem updEm_funcs (t : Nat) (g : EmTab → EmTab) : (updEm t g s).funcs = s.funcs := rfl
@[simp] theorem updEm_ports (t : Nat) (g : EmTab → EmTab) : (updEm t g s).ports = s.ports := rfl
@[simp] theorem updEm_gens (t : Nat) (g : EmTab → EmTab) : (updEm t g s).gens = s.gens := rfl
@[simp] theorem updEm_modBus (t : Nat) (g : EmTab → EmTab) : (updEm t g s).modBus = s.modBus := rfl
@[simp] theorem updEm_cis (t : Nat) (g : EmTab → EmTab) : (updEm t g s).cis = s.cis := rfl
@[simp] theorem updEm_cipher (t : Nat) (g : EmTab → EmTab) : (updEm t g s).cipher = s.cipher := rfl
@[simp] theorem updEm_rings (t : Nat) (g : EmTab → EmTab) : (updEm t g s).rings = s.rings := rfl
@[simp] theorem updEm_time (t : Nat) (g : EmTab → EmTab) : (updEm t g s).time = s.time := rfl
@[simp] theorem updEm_fh (t : Nat) (g : EmTab → EmTab) : (updEm t g s).fh = s.fh := rfl
@[simp] theorem updEm_comb (t : Nat) (g : EmTab → EmTab) : (updEm t g s).comb = s.comb := rfl
@[simp] theorem updEm_aq (t : Nat) (g : EmTab → EmTab) : (updEm t g s).aq = s.aq := rfl
@[simp] theorem updEm_power (t : Nat) (g : EmTab → EmTab) : (updEm t g s).power = s.power := rfl
@[simp] theorem updEm_evt (t : Nat) (g : EmTab → EmTab) : (updEm t g s).evt = s.evt := rfl
@[simp] theorem updEm_fault (t : Nat) (g : EmTab → EmTab) : (updEm t g s).fault = s.fault := rfl
@[simp] theorem updEm_counters (t : Nat) (g : EmTab → EmTab) : (updEm t g s).counters = s.counters := rfl
@[simp] theorem updEm_monitors (t : Nat) (g : EmTab → EmTab) : (updEm t g s).monitors = s.monitors := rfl

@[simp] theorem updCtx_pending (n : Nat) (g : CtxRec → CtxRec) : (updCtx n g s).pending = s.pending := rfl
@[simp] theorem updCtx_out (n : Nat) (g : CtxRec → CtxRec) : (updCtx n g s).out = s.out := rfl
@[simp] theorem updCtx_fuses (n : Nat) (g : CtxRec → CtxRec) : (updCtx n g s).fuses = s.fuses := rfl
@[simp] theorem updCtx_boot (n : Nat) (g : CtxRec → CtxRec) : (updCtx n g s).boot = s.boot := rfl
@[simp] theorem updCtx_mode (n : Nat) (g : CtxRec → CtxRec) : (updCtx n g s).mode = s.mode := rfl
@[simp] theorem updCtx_entryCause (n : Nat) (g : CtxRec → CtxRec) : (updCtx n g s).entryCause = s.entryCause := rfl
@[simp] theorem updCtx_transit (n : Nat) (g : CtxRec → CtxRec) : (updCtx n g s).transit = s.transit := rfl
@[simp] theorem updCtx_armedMode (n : Nat) (g : CtxRec → CtxRec) : (updCtx n g s).armedMode = s.armedMode := rfl
@[simp] theorem updCtx_dormantFrom (n : Nat) (g : CtxRec → CtxRec) : (updCtx n g s).dormantFrom = s.dormantFrom := rfl
@[simp] theorem updCtx_served (n : Nat) (g : CtxRec → CtxRec) : (updCtx n g s).served = s.served := rfl
@[simp] theorem updCtx_entropyReady (n : Nat) (g : CtxRec → CtxRec) : (updCtx n g s).entropyReady = s.entropyReady := rfl
@[simp] theorem updCtx_entropyFailed (n : Nat) (g : CtxRec → CtxRec) : (updCtx n g s).entropyFailed = s.entropyFailed := rfl
@[simp] theorem updCtx_drbgCount (n : Nat) (g : CtxRec → CtxRec) : (updCtx n g s).drbgCount = s.drbgCount := rfl
@[simp] theorem updCtx_blocked (n : Nat) (g : CtxRec → CtxRec) : (updCtx n g s).blocked = s.blocked := rfl
@[simp] theorem updCtx_blockReason (n : Nat) (g : CtxRec → CtxRec) : (updCtx n g s).blockReason = s.blockReason := rfl
@[simp] theorem updCtx_spdm (n : Nat) (g : CtxRec → CtxRec) : (updCtx n g s).spdm = s.spdm := rfl
@[simp] theorem updCtx_wh (n : Nat) (g : CtxRec → CtxRec) : (updCtx n g s).wh = s.wh := rfl
@[simp] theorem updCtx_chans (n : Nat) (g : CtxRec → CtxRec) : (updCtx n g s).chans = s.chans := rfl
@[simp] theorem updCtx_fwd (n : Nat) (g : CtxRec → CtxRec) : (updCtx n g s).fwd = s.fwd := rfl
@[simp] theorem updCtx_chanTab (n : Nat) (g : CtxRec → CtxRec) : (updCtx n g s).chanTab = s.chanTab := rfl
@[simp] theorem updCtx_accepted (n : Nat) (g : CtxRec → CtxRec) : (updCtx n g s).accepted = s.accepted := rfl
@[simp] theorem updCtx_cmdFailed (n : Nat) (g : CtxRec → CtxRec) : (updCtx n g s).cmdFailed = s.cmdFailed := rfl
@[simp] theorem updCtx_boxes (n : Nat) (g : CtxRec → CtxRec) : (updCtx n g s).boxes = s.boxes := rfl
@[simp] theorem updCtx_arbiters (n : Nat) (g : CtxRec → CtxRec) : (updCtx n g s).arbiters = s.arbiters := rfl
@[simp] theorem updCtx_links (n : Nat) (g : CtxRec → CtxRec) : (updCtx n g s).links = s.links := rfl
@[simp] theorem updCtx_fns (n : Nat) (g : CtxRec → CtxRec) : (updCtx n g s).fns = s.fns := rfl
@[simp] theorem updCtx_msix (n : Nat) (g : CtxRec → CtxRec) : (updCtx n g s).msix = s.msix := rfl
@[simp] theorem updCtx_peers (n : Nat) (g : CtxRec → CtxRec) : (updCtx n g s).peers = s.peers := rfl
@[simp] theorem updCtx_atc (n : Nat) (g : CtxRec → CtxRec) : (updCtx n g s).atc = s.atc := rfl
@[simp] theorem updCtx_atsReqs (n : Nat) (g : CtxRec → CtxRec) : (updCtx n g s).atsReqs = s.atsReqs := rfl
@[simp] theorem updCtx_invReqs (n : Nat) (g : CtxRec → CtxRec) : (updCtx n g s).invReqs = s.invReqs := rfl
@[simp] theorem updCtx_heldOut (n : Nat) (g : CtxRec → CtxRec) : (updCtx n g s).heldOut = s.heldOut := rfl
@[simp] theorem updCtx_clay (n : Nat) (g : CtxRec → CtxRec) : (updCtx n g s).clay = s.clay := rfl
@[simp] theorem updCtx_funcs (n : Nat) (g : CtxRec → CtxRec) : (updCtx n g s).funcs = s.funcs := rfl
@[simp] theorem updCtx_ports (n : Nat) (g : CtxRec → CtxRec) : (updCtx n g s).ports = s.ports := rfl
@[simp] theorem updCtx_gens (n : Nat) (g : CtxRec → CtxRec) : (updCtx n g s).gens = s.gens := rfl
@[simp] theorem updCtx_modBus (n : Nat) (g : CtxRec → CtxRec) : (updCtx n g s).modBus = s.modBus := rfl
@[simp] theorem updCtx_tables (n : Nat) (g : CtxRec → CtxRec) : (updCtx n g s).tables = s.tables := rfl
@[simp] theorem updCtx_cis (n : Nat) (g : CtxRec → CtxRec) : (updCtx n g s).cis = s.cis := rfl
@[simp] theorem updCtx_rings (n : Nat) (g : CtxRec → CtxRec) : (updCtx n g s).rings = s.rings := rfl
@[simp] theorem updCtx_time (n : Nat) (g : CtxRec → CtxRec) : (updCtx n g s).time = s.time := rfl
@[simp] theorem updCtx_fh (n : Nat) (g : CtxRec → CtxRec) : (updCtx n g s).fh = s.fh := rfl
@[simp] theorem updCtx_comb (n : Nat) (g : CtxRec → CtxRec) : (updCtx n g s).comb = s.comb := rfl
@[simp] theorem updCtx_aq (n : Nat) (g : CtxRec → CtxRec) : (updCtx n g s).aq = s.aq := rfl
@[simp] theorem updCtx_power (n : Nat) (g : CtxRec → CtxRec) : (updCtx n g s).power = s.power := rfl
@[simp] theorem updCtx_evt (n : Nat) (g : CtxRec → CtxRec) : (updCtx n g s).evt = s.evt := rfl
@[simp] theorem updCtx_fault (n : Nat) (g : CtxRec → CtxRec) : (updCtx n g s).fault = s.fault := rfl
@[simp] theorem updCtx_counters (n : Nat) (g : CtxRec → CtxRec) : (updCtx n g s).counters = s.counters := rfl
@[simp] theorem updCtx_monitors (n : Nat) (g : CtxRec → CtxRec) : (updCtx n g s).monitors = s.monitors := rfl

@[simp] theorem updSet_pending (n : Nat) (g : CombSet → CombSet) : (updSet n g s).pending = s.pending := rfl
@[simp] theorem updSet_out (n : Nat) (g : CombSet → CombSet) : (updSet n g s).out = s.out := rfl
@[simp] theorem updSet_fuses (n : Nat) (g : CombSet → CombSet) : (updSet n g s).fuses = s.fuses := rfl
@[simp] theorem updSet_boot (n : Nat) (g : CombSet → CombSet) : (updSet n g s).boot = s.boot := rfl
@[simp] theorem updSet_mode (n : Nat) (g : CombSet → CombSet) : (updSet n g s).mode = s.mode := rfl
@[simp] theorem updSet_entryCause (n : Nat) (g : CombSet → CombSet) : (updSet n g s).entryCause = s.entryCause := rfl
@[simp] theorem updSet_transit (n : Nat) (g : CombSet → CombSet) : (updSet n g s).transit = s.transit := rfl
@[simp] theorem updSet_armedMode (n : Nat) (g : CombSet → CombSet) : (updSet n g s).armedMode = s.armedMode := rfl
@[simp] theorem updSet_dormantFrom (n : Nat) (g : CombSet → CombSet) : (updSet n g s).dormantFrom = s.dormantFrom := rfl
@[simp] theorem updSet_served (n : Nat) (g : CombSet → CombSet) : (updSet n g s).served = s.served := rfl
@[simp] theorem updSet_entropyReady (n : Nat) (g : CombSet → CombSet) : (updSet n g s).entropyReady = s.entropyReady := rfl
@[simp] theorem updSet_entropyFailed (n : Nat) (g : CombSet → CombSet) : (updSet n g s).entropyFailed = s.entropyFailed := rfl
@[simp] theorem updSet_drbgCount (n : Nat) (g : CombSet → CombSet) : (updSet n g s).drbgCount = s.drbgCount := rfl
@[simp] theorem updSet_blocked (n : Nat) (g : CombSet → CombSet) : (updSet n g s).blocked = s.blocked := rfl
@[simp] theorem updSet_blockReason (n : Nat) (g : CombSet → CombSet) : (updSet n g s).blockReason = s.blockReason := rfl
@[simp] theorem updSet_spdm (n : Nat) (g : CombSet → CombSet) : (updSet n g s).spdm = s.spdm := rfl
@[simp] theorem updSet_wh (n : Nat) (g : CombSet → CombSet) : (updSet n g s).wh = s.wh := rfl
@[simp] theorem updSet_chans (n : Nat) (g : CombSet → CombSet) : (updSet n g s).chans = s.chans := rfl
@[simp] theorem updSet_fwd (n : Nat) (g : CombSet → CombSet) : (updSet n g s).fwd = s.fwd := rfl
@[simp] theorem updSet_chanTab (n : Nat) (g : CombSet → CombSet) : (updSet n g s).chanTab = s.chanTab := rfl
@[simp] theorem updSet_accepted (n : Nat) (g : CombSet → CombSet) : (updSet n g s).accepted = s.accepted := rfl
@[simp] theorem updSet_cmdFailed (n : Nat) (g : CombSet → CombSet) : (updSet n g s).cmdFailed = s.cmdFailed := rfl
@[simp] theorem updSet_boxes (n : Nat) (g : CombSet → CombSet) : (updSet n g s).boxes = s.boxes := rfl
@[simp] theorem updSet_arbiters (n : Nat) (g : CombSet → CombSet) : (updSet n g s).arbiters = s.arbiters := rfl
@[simp] theorem updSet_links (n : Nat) (g : CombSet → CombSet) : (updSet n g s).links = s.links := rfl
@[simp] theorem updSet_fns (n : Nat) (g : CombSet → CombSet) : (updSet n g s).fns = s.fns := rfl
@[simp] theorem updSet_msix (n : Nat) (g : CombSet → CombSet) : (updSet n g s).msix = s.msix := rfl
@[simp] theorem updSet_peers (n : Nat) (g : CombSet → CombSet) : (updSet n g s).peers = s.peers := rfl
@[simp] theorem updSet_atc (n : Nat) (g : CombSet → CombSet) : (updSet n g s).atc = s.atc := rfl
@[simp] theorem updSet_atsReqs (n : Nat) (g : CombSet → CombSet) : (updSet n g s).atsReqs = s.atsReqs := rfl
@[simp] theorem updSet_invReqs (n : Nat) (g : CombSet → CombSet) : (updSet n g s).invReqs = s.invReqs := rfl
@[simp] theorem updSet_heldOut (n : Nat) (g : CombSet → CombSet) : (updSet n g s).heldOut = s.heldOut := rfl
@[simp] theorem updSet_clay (n : Nat) (g : CombSet → CombSet) : (updSet n g s).clay = s.clay := rfl
@[simp] theorem updSet_funcs (n : Nat) (g : CombSet → CombSet) : (updSet n g s).funcs = s.funcs := rfl
@[simp] theorem updSet_ports (n : Nat) (g : CombSet → CombSet) : (updSet n g s).ports = s.ports := rfl
@[simp] theorem updSet_gens (n : Nat) (g : CombSet → CombSet) : (updSet n g s).gens = s.gens := rfl
@[simp] theorem updSet_modBus (n : Nat) (g : CombSet → CombSet) : (updSet n g s).modBus = s.modBus := rfl
@[simp] theorem updSet_tables (n : Nat) (g : CombSet → CombSet) : (updSet n g s).tables = s.tables := rfl
@[simp] theorem updSet_cis (n : Nat) (g : CombSet → CombSet) : (updSet n g s).cis = s.cis := rfl
@[simp] theorem updSet_cipher (n : Nat) (g : CombSet → CombSet) : (updSet n g s).cipher = s.cipher := rfl
@[simp] theorem updSet_rings (n : Nat) (g : CombSet → CombSet) : (updSet n g s).rings = s.rings := rfl
@[simp] theorem updSet_time (n : Nat) (g : CombSet → CombSet) : (updSet n g s).time = s.time := rfl
@[simp] theorem updSet_fh (n : Nat) (g : CombSet → CombSet) : (updSet n g s).fh = s.fh := rfl
@[simp] theorem updSet_aq (n : Nat) (g : CombSet → CombSet) : (updSet n g s).aq = s.aq := rfl
@[simp] theorem updSet_power (n : Nat) (g : CombSet → CombSet) : (updSet n g s).power = s.power := rfl
@[simp] theorem updSet_evt (n : Nat) (g : CombSet → CombSet) : (updSet n g s).evt = s.evt := rfl
@[simp] theorem updSet_fault (n : Nat) (g : CombSet → CombSet) : (updSet n g s).fault = s.fault := rfl
@[simp] theorem updSet_counters (n : Nat) (g : CombSet → CombSet) : (updSet n g s).counters = s.counters := rfl
@[simp] theorem updSet_monitors (n : Nat) (g : CombSet → CombSet) : (updSet n g s).monitors = s.monitors := rfl

@[simp] theorem updGen_pending (q : Nat) (g : TestGen → TestGen) : (updGen q g s).pending = s.pending := rfl
@[simp] theorem updGen_out (q : Nat) (g : TestGen → TestGen) : (updGen q g s).out = s.out := rfl
@[simp] theorem updGen_fuses (q : Nat) (g : TestGen → TestGen) : (updGen q g s).fuses = s.fuses := rfl
@[simp] theorem updGen_boot (q : Nat) (g : TestGen → TestGen) : (updGen q g s).boot = s.boot := rfl
@[simp] theorem updGen_mode (q : Nat) (g : TestGen → TestGen) : (updGen q g s).mode = s.mode := rfl
@[simp] theorem updGen_entryCause (q : Nat) (g : TestGen → TestGen) : (updGen q g s).entryCause = s.entryCause := rfl
@[simp] theorem updGen_transit (q : Nat) (g : TestGen → TestGen) : (updGen q g s).transit = s.transit := rfl
@[simp] theorem updGen_armedMode (q : Nat) (g : TestGen → TestGen) : (updGen q g s).armedMode = s.armedMode := rfl
@[simp] theorem updGen_dormantFrom (q : Nat) (g : TestGen → TestGen) : (updGen q g s).dormantFrom = s.dormantFrom := rfl
@[simp] theorem updGen_served (q : Nat) (g : TestGen → TestGen) : (updGen q g s).served = s.served := rfl
@[simp] theorem updGen_entropyReady (q : Nat) (g : TestGen → TestGen) : (updGen q g s).entropyReady = s.entropyReady := rfl
@[simp] theorem updGen_entropyFailed (q : Nat) (g : TestGen → TestGen) : (updGen q g s).entropyFailed = s.entropyFailed := rfl
@[simp] theorem updGen_drbgCount (q : Nat) (g : TestGen → TestGen) : (updGen q g s).drbgCount = s.drbgCount := rfl
@[simp] theorem updGen_blocked (q : Nat) (g : TestGen → TestGen) : (updGen q g s).blocked = s.blocked := rfl
@[simp] theorem updGen_blockReason (q : Nat) (g : TestGen → TestGen) : (updGen q g s).blockReason = s.blockReason := rfl
@[simp] theorem updGen_spdm (q : Nat) (g : TestGen → TestGen) : (updGen q g s).spdm = s.spdm := rfl
@[simp] theorem updGen_wh (q : Nat) (g : TestGen → TestGen) : (updGen q g s).wh = s.wh := rfl
@[simp] theorem updGen_chans (q : Nat) (g : TestGen → TestGen) : (updGen q g s).chans = s.chans := rfl
@[simp] theorem updGen_fwd (q : Nat) (g : TestGen → TestGen) : (updGen q g s).fwd = s.fwd := rfl
@[simp] theorem updGen_chanTab (q : Nat) (g : TestGen → TestGen) : (updGen q g s).chanTab = s.chanTab := rfl
@[simp] theorem updGen_accepted (q : Nat) (g : TestGen → TestGen) : (updGen q g s).accepted = s.accepted := rfl
@[simp] theorem updGen_cmdFailed (q : Nat) (g : TestGen → TestGen) : (updGen q g s).cmdFailed = s.cmdFailed := rfl
@[simp] theorem updGen_boxes (q : Nat) (g : TestGen → TestGen) : (updGen q g s).boxes = s.boxes := rfl
@[simp] theorem updGen_arbiters (q : Nat) (g : TestGen → TestGen) : (updGen q g s).arbiters = s.arbiters := rfl
@[simp] theorem updGen_links (q : Nat) (g : TestGen → TestGen) : (updGen q g s).links = s.links := rfl
@[simp] theorem updGen_fns (q : Nat) (g : TestGen → TestGen) : (updGen q g s).fns = s.fns := rfl
@[simp] theorem updGen_msix (q : Nat) (g : TestGen → TestGen) : (updGen q g s).msix = s.msix := rfl
@[simp] theorem updGen_peers (q : Nat) (g : TestGen → TestGen) : (updGen q g s).peers = s.peers := rfl
@[simp] theorem updGen_atc (q : Nat) (g : TestGen → TestGen) : (updGen q g s).atc = s.atc := rfl
@[simp] theorem updGen_atsReqs (q : Nat) (g : TestGen → TestGen) : (updGen q g s).atsReqs = s.atsReqs := rfl
@[simp] theorem updGen_invReqs (q : Nat) (g : TestGen → TestGen) : (updGen q g s).invReqs = s.invReqs := rfl
@[simp] theorem updGen_heldOut (q : Nat) (g : TestGen → TestGen) : (updGen q g s).heldOut = s.heldOut := rfl
@[simp] theorem updGen_clay (q : Nat) (g : TestGen → TestGen) : (updGen q g s).clay = s.clay := rfl
@[simp] theorem updGen_funcs (q : Nat) (g : TestGen → TestGen) : (updGen q g s).funcs = s.funcs := rfl
@[simp] theorem updGen_ports (q : Nat) (g : TestGen → TestGen) : (updGen q g s).ports = s.ports := rfl
@[simp] theorem updGen_modBus (q : Nat) (g : TestGen → TestGen) : (updGen q g s).modBus = s.modBus := rfl
@[simp] theorem updGen_tables (q : Nat) (g : TestGen → TestGen) : (updGen q g s).tables = s.tables := rfl
@[simp] theorem updGen_cis (q : Nat) (g : TestGen → TestGen) : (updGen q g s).cis = s.cis := rfl
@[simp] theorem updGen_cipher (q : Nat) (g : TestGen → TestGen) : (updGen q g s).cipher = s.cipher := rfl
@[simp] theorem updGen_rings (q : Nat) (g : TestGen → TestGen) : (updGen q g s).rings = s.rings := rfl
@[simp] theorem updGen_time (q : Nat) (g : TestGen → TestGen) : (updGen q g s).time = s.time := rfl
@[simp] theorem updGen_fh (q : Nat) (g : TestGen → TestGen) : (updGen q g s).fh = s.fh := rfl
@[simp] theorem updGen_comb (q : Nat) (g : TestGen → TestGen) : (updGen q g s).comb = s.comb := rfl
@[simp] theorem updGen_aq (q : Nat) (g : TestGen → TestGen) : (updGen q g s).aq = s.aq := rfl
@[simp] theorem updGen_power (q : Nat) (g : TestGen → TestGen) : (updGen q g s).power = s.power := rfl
@[simp] theorem updGen_evt (q : Nat) (g : TestGen → TestGen) : (updGen q g s).evt = s.evt := rfl
@[simp] theorem updGen_fault (q : Nat) (g : TestGen → TestGen) : (updGen q g s).fault = s.fault := rfl
@[simp] theorem updGen_counters (q : Nat) (g : TestGen → TestGen) : (updGen q g s).counters = s.counters := rfl
@[simp] theorem updGen_monitors (q : Nat) (g : TestGen → TestGen) : (updGen q g s).monitors = s.monitors := rfl

@[simp] theorem updPeer_pending (pf : Nat) (g : PeerRegs → PeerRegs) : (updPeer pf g s).pending = s.pending := rfl
@[simp] theorem updPeer_out (pf : Nat) (g : PeerRegs → PeerRegs) : (updPeer pf g s).out = s.out := rfl
@[simp] theorem updPeer_fuses (pf : Nat) (g : PeerRegs → PeerRegs) : (updPeer pf g s).fuses = s.fuses := rfl
@[simp] theorem updPeer_boot (pf : Nat) (g : PeerRegs → PeerRegs) : (updPeer pf g s).boot = s.boot := rfl
@[simp] theorem updPeer_mode (pf : Nat) (g : PeerRegs → PeerRegs) : (updPeer pf g s).mode = s.mode := rfl
@[simp] theorem updPeer_entryCause (pf : Nat) (g : PeerRegs → PeerRegs) : (updPeer pf g s).entryCause = s.entryCause := rfl
@[simp] theorem updPeer_transit (pf : Nat) (g : PeerRegs → PeerRegs) : (updPeer pf g s).transit = s.transit := rfl
@[simp] theorem updPeer_armedMode (pf : Nat) (g : PeerRegs → PeerRegs) : (updPeer pf g s).armedMode = s.armedMode := rfl
@[simp] theorem updPeer_dormantFrom (pf : Nat) (g : PeerRegs → PeerRegs) : (updPeer pf g s).dormantFrom = s.dormantFrom := rfl
@[simp] theorem updPeer_served (pf : Nat) (g : PeerRegs → PeerRegs) : (updPeer pf g s).served = s.served := rfl
@[simp] theorem updPeer_entropyReady (pf : Nat) (g : PeerRegs → PeerRegs) : (updPeer pf g s).entropyReady = s.entropyReady := rfl
@[simp] theorem updPeer_entropyFailed (pf : Nat) (g : PeerRegs → PeerRegs) : (updPeer pf g s).entropyFailed = s.entropyFailed := rfl
@[simp] theorem updPeer_drbgCount (pf : Nat) (g : PeerRegs → PeerRegs) : (updPeer pf g s).drbgCount = s.drbgCount := rfl
@[simp] theorem updPeer_blocked (pf : Nat) (g : PeerRegs → PeerRegs) : (updPeer pf g s).blocked = s.blocked := rfl
@[simp] theorem updPeer_blockReason (pf : Nat) (g : PeerRegs → PeerRegs) : (updPeer pf g s).blockReason = s.blockReason := rfl
@[simp] theorem updPeer_spdm (pf : Nat) (g : PeerRegs → PeerRegs) : (updPeer pf g s).spdm = s.spdm := rfl
@[simp] theorem updPeer_wh (pf : Nat) (g : PeerRegs → PeerRegs) : (updPeer pf g s).wh = s.wh := rfl
@[simp] theorem updPeer_chans (pf : Nat) (g : PeerRegs → PeerRegs) : (updPeer pf g s).chans = s.chans := rfl
@[simp] theorem updPeer_fwd (pf : Nat) (g : PeerRegs → PeerRegs) : (updPeer pf g s).fwd = s.fwd := rfl
@[simp] theorem updPeer_chanTab (pf : Nat) (g : PeerRegs → PeerRegs) : (updPeer pf g s).chanTab = s.chanTab := rfl
@[simp] theorem updPeer_accepted (pf : Nat) (g : PeerRegs → PeerRegs) : (updPeer pf g s).accepted = s.accepted := rfl
@[simp] theorem updPeer_cmdFailed (pf : Nat) (g : PeerRegs → PeerRegs) : (updPeer pf g s).cmdFailed = s.cmdFailed := rfl
@[simp] theorem updPeer_boxes (pf : Nat) (g : PeerRegs → PeerRegs) : (updPeer pf g s).boxes = s.boxes := rfl
@[simp] theorem updPeer_arbiters (pf : Nat) (g : PeerRegs → PeerRegs) : (updPeer pf g s).arbiters = s.arbiters := rfl
@[simp] theorem updPeer_links (pf : Nat) (g : PeerRegs → PeerRegs) : (updPeer pf g s).links = s.links := rfl
@[simp] theorem updPeer_fns (pf : Nat) (g : PeerRegs → PeerRegs) : (updPeer pf g s).fns = s.fns := rfl
@[simp] theorem updPeer_msix (pf : Nat) (g : PeerRegs → PeerRegs) : (updPeer pf g s).msix = s.msix := rfl
@[simp] theorem updPeer_atc (pf : Nat) (g : PeerRegs → PeerRegs) : (updPeer pf g s).atc = s.atc := rfl
@[simp] theorem updPeer_atsReqs (pf : Nat) (g : PeerRegs → PeerRegs) : (updPeer pf g s).atsReqs = s.atsReqs := rfl
@[simp] theorem updPeer_invReqs (pf : Nat) (g : PeerRegs → PeerRegs) : (updPeer pf g s).invReqs = s.invReqs := rfl
@[simp] theorem updPeer_heldOut (pf : Nat) (g : PeerRegs → PeerRegs) : (updPeer pf g s).heldOut = s.heldOut := rfl
@[simp] theorem updPeer_clay (pf : Nat) (g : PeerRegs → PeerRegs) : (updPeer pf g s).clay = s.clay := rfl
@[simp] theorem updPeer_funcs (pf : Nat) (g : PeerRegs → PeerRegs) : (updPeer pf g s).funcs = s.funcs := rfl
@[simp] theorem updPeer_ports (pf : Nat) (g : PeerRegs → PeerRegs) : (updPeer pf g s).ports = s.ports := rfl
@[simp] theorem updPeer_gens (pf : Nat) (g : PeerRegs → PeerRegs) : (updPeer pf g s).gens = s.gens := rfl
@[simp] theorem updPeer_modBus (pf : Nat) (g : PeerRegs → PeerRegs) : (updPeer pf g s).modBus = s.modBus := rfl
@[simp] theorem updPeer_tables (pf : Nat) (g : PeerRegs → PeerRegs) : (updPeer pf g s).tables = s.tables := rfl
@[simp] theorem updPeer_cis (pf : Nat) (g : PeerRegs → PeerRegs) : (updPeer pf g s).cis = s.cis := rfl
@[simp] theorem updPeer_cipher (pf : Nat) (g : PeerRegs → PeerRegs) : (updPeer pf g s).cipher = s.cipher := rfl
@[simp] theorem updPeer_rings (pf : Nat) (g : PeerRegs → PeerRegs) : (updPeer pf g s).rings = s.rings := rfl
@[simp] theorem updPeer_time (pf : Nat) (g : PeerRegs → PeerRegs) : (updPeer pf g s).time = s.time := rfl
@[simp] theorem updPeer_fh (pf : Nat) (g : PeerRegs → PeerRegs) : (updPeer pf g s).fh = s.fh := rfl
@[simp] theorem updPeer_comb (pf : Nat) (g : PeerRegs → PeerRegs) : (updPeer pf g s).comb = s.comb := rfl
@[simp] theorem updPeer_aq (pf : Nat) (g : PeerRegs → PeerRegs) : (updPeer pf g s).aq = s.aq := rfl
@[simp] theorem updPeer_power (pf : Nat) (g : PeerRegs → PeerRegs) : (updPeer pf g s).power = s.power := rfl
@[simp] theorem updPeer_evt (pf : Nat) (g : PeerRegs → PeerRegs) : (updPeer pf g s).evt = s.evt := rfl
@[simp] theorem updPeer_fault (pf : Nat) (g : PeerRegs → PeerRegs) : (updPeer pf g s).fault = s.fault := rfl
@[simp] theorem updPeer_counters (pf : Nat) (g : PeerRegs → PeerRegs) : (updPeer pf g s).counters = s.counters := rfl
@[simp] theorem updPeer_monitors (pf : Nat) (g : PeerRegs → PeerRegs) : (updPeer pf g s).monitors = s.monitors := rfl

@[simp] theorem putFwd_pending (e : FwdEntry) : (putFwd e s).pending = s.pending := rfl
@[simp] theorem putFwd_out (e : FwdEntry) : (putFwd e s).out = s.out := rfl
@[simp] theorem putFwd_fuses (e : FwdEntry) : (putFwd e s).fuses = s.fuses := rfl
@[simp] theorem putFwd_boot (e : FwdEntry) : (putFwd e s).boot = s.boot := rfl
@[simp] theorem putFwd_mode (e : FwdEntry) : (putFwd e s).mode = s.mode := rfl
@[simp] theorem putFwd_entryCause (e : FwdEntry) : (putFwd e s).entryCause = s.entryCause := rfl
@[simp] theorem putFwd_transit (e : FwdEntry) : (putFwd e s).transit = s.transit := rfl
@[simp] theorem putFwd_armedMode (e : FwdEntry) : (putFwd e s).armedMode = s.armedMode := rfl
@[simp] theorem putFwd_dormantFrom (e : FwdEntry) : (putFwd e s).dormantFrom = s.dormantFrom := rfl
@[simp] theorem putFwd_served (e : FwdEntry) : (putFwd e s).served = s.served := rfl
@[simp] theorem putFwd_entropyReady (e : FwdEntry) : (putFwd e s).entropyReady = s.entropyReady := rfl
@[simp] theorem putFwd_entropyFailed (e : FwdEntry) : (putFwd e s).entropyFailed = s.entropyFailed := rfl
@[simp] theorem putFwd_drbgCount (e : FwdEntry) : (putFwd e s).drbgCount = s.drbgCount := rfl
@[simp] theorem putFwd_blocked (e : FwdEntry) : (putFwd e s).blocked = s.blocked := rfl
@[simp] theorem putFwd_blockReason (e : FwdEntry) : (putFwd e s).blockReason = s.blockReason := rfl
@[simp] theorem putFwd_spdm (e : FwdEntry) : (putFwd e s).spdm = s.spdm := rfl
@[simp] theorem putFwd_wh (e : FwdEntry) : (putFwd e s).wh = s.wh := rfl
@[simp] theorem putFwd_chans (e : FwdEntry) : (putFwd e s).chans = s.chans := rfl
@[simp] theorem putFwd_chanTab (e : FwdEntry) : (putFwd e s).chanTab = s.chanTab := rfl
@[simp] theorem putFwd_accepted (e : FwdEntry) : (putFwd e s).accepted = s.accepted := rfl
@[simp] theorem putFwd_cmdFailed (e : FwdEntry) : (putFwd e s).cmdFailed = s.cmdFailed := rfl
@[simp] theorem putFwd_boxes (e : FwdEntry) : (putFwd e s).boxes = s.boxes := rfl
@[simp] theorem putFwd_arbiters (e : FwdEntry) : (putFwd e s).arbiters = s.arbiters := rfl
@[simp] theorem putFwd_links (e : FwdEntry) : (putFwd e s).links = s.links := rfl
@[simp] theorem putFwd_fns (e : FwdEntry) : (putFwd e s).fns = s.fns := rfl
@[simp] theorem putFwd_msix (e : FwdEntry) : (putFwd e s).msix = s.msix := rfl
@[simp] theorem putFwd_peers (e : FwdEntry) : (putFwd e s).peers = s.peers := rfl
@[simp] theorem putFwd_atc (e : FwdEntry) : (putFwd e s).atc = s.atc := rfl
@[simp] theorem putFwd_atsReqs (e : FwdEntry) : (putFwd e s).atsReqs = s.atsReqs := rfl
@[simp] theorem putFwd_invReqs (e : FwdEntry) : (putFwd e s).invReqs = s.invReqs := rfl
@[simp] theorem putFwd_heldOut (e : FwdEntry) : (putFwd e s).heldOut = s.heldOut := rfl
@[simp] theorem putFwd_clay (e : FwdEntry) : (putFwd e s).clay = s.clay := rfl
@[simp] theorem putFwd_funcs (e : FwdEntry) : (putFwd e s).funcs = s.funcs := rfl
@[simp] theorem putFwd_ports (e : FwdEntry) : (putFwd e s).ports = s.ports := rfl
@[simp] theorem putFwd_gens (e : FwdEntry) : (putFwd e s).gens = s.gens := rfl
@[simp] theorem putFwd_modBus (e : FwdEntry) : (putFwd e s).modBus = s.modBus := rfl
@[simp] theorem putFwd_tables (e : FwdEntry) : (putFwd e s).tables = s.tables := rfl
@[simp] theorem putFwd_cis (e : FwdEntry) : (putFwd e s).cis = s.cis := rfl
@[simp] theorem putFwd_cipher (e : FwdEntry) : (putFwd e s).cipher = s.cipher := rfl
@[simp] theorem putFwd_rings (e : FwdEntry) : (putFwd e s).rings = s.rings := rfl
@[simp] theorem putFwd_time (e : FwdEntry) : (putFwd e s).time = s.time := rfl
@[simp] theorem putFwd_fh (e : FwdEntry) : (putFwd e s).fh = s.fh := rfl
@[simp] theorem putFwd_comb (e : FwdEntry) : (putFwd e s).comb = s.comb := rfl
@[simp] theorem putFwd_aq (e : FwdEntry) : (putFwd e s).aq = s.aq := rfl
@[simp] theorem putFwd_power (e : FwdEntry) : (putFwd e s).power = s.power := rfl
@[simp] theorem putFwd_evt (e : FwdEntry) : (putFwd e s).evt = s.evt := rfl
@[simp] theorem putFwd_fault (e : FwdEntry) : (putFwd e s).fault = s.fault := rfl
@[simp] theorem putFwd_counters (e : FwdEntry) : (putFwd e s).counters = s.counters := rfl
@[simp] theorem putFwd_monitors (e : FwdEntry) : (putFwd e s).monitors = s.monitors := rfl

end Sys2Proof.Machine
end

