-- ==== Sys2Proof/Laws/Store.lean ====
section
/-! SUPPORT. The sparse store: reads after writes, for every list, and the canonical form that every operation keeps; Clay keeps it too. -/

namespace Sys2Proof.Machine

open Sys2Proof

variable {α : Type} (d : α)

theorem store_get_put_same (k : Nat) (v : α) (st : Store α) : Store.get d k (Store.put k v st) = v := by
  induction st with
  | nil => simp [Store.put, Store.get]
  | cons p r ih =>
    obtain ⟨i, w⟩ := p
    simp only [Store.put]
    split
    · have : i ≠ k := by omega
      simp [Store.get, this, ih]
    · split <;> simp [Store.get]

theorem store_get_put_ne (k j : Nat) (v : α) (st : Store α) (h : j ≠ k) : Store.get d j (Store.put k v st) = Store.get d j st := by
  induction st with
  | nil => simp [Store.put, Store.get, Ne.symm h]
  | cons p r ih =>
    obtain ⟨i, w⟩ := p
    simp only [Store.put]
    split
    · simp [Store.get, ih]
    · split
      · rename_i hi; simp [Store.get, Ne.symm h, hi]
      · simp [Store.get, Ne.symm h]

theorem store_get_drop_same (k : Nat) (st : Store α) : Store.get d k (st.filter (fun x => x.1 != k)) = d := by
  induction st with
  | nil => rfl
  | cons p r ih =>
    obtain ⟨i, w⟩ := p
    by_cases hi : i = k
    · simp [hi, ih]
    · simp [Store.get, hi, ih]

theorem store_get_drop_ne (k j : Nat) (st : Store α) (h : j ≠ k) :
    Store.get d j (st.filter (fun x => x.1 != k)) = Store.get d j st := by
  induction st with
  | nil => rfl
  | cons p r ih =>
    obtain ⟨i, w⟩ := p
    by_cases hi : i = k
    · subst hi; simp [Store.get, Ne.symm h, ih]
    · simp [Store.get, hi, ih]

variable [DecidableEq α]

/-- A record reads as what was last stored in it. -/
@[simp] theorem store_get_set_same (k : Nat) (v : α) (st : Store α) : Store.get d k (Store.set d k v st) = v := by
  unfold Store.set
  split
  · rename_i h; rw [store_get_drop_same, h]
  · exact store_get_put_same d k v st

/-- Storing a record leaves every other record alone. -/
theorem store_get_set_ne (k j : Nat) (v : α) (st : Store α) (h : j ≠ k) : Store.get d j (Store.set d k v st) = Store.get d j st := by
  unfold Store.set
  split
  · exact store_get_drop_ne d k j st h
  · exact store_get_put_ne d k j v st h

@[simp] theorem store_get_upd_same (k : Nat) (f : α → α) (st : Store α) :
    Store.get d k (Store.upd d k f st) = f (Store.get d k st) := by simp [Store.upd]

theorem store_get_upd_ne (k j : Nat) (f : α → α) (st : Store α) (h : j ≠ k) :
    Store.get d j (Store.upd d k f st) = Store.get d j st := store_get_set_ne d k j _ st h

theorem store_wfFrom_mono {lo lo' : Nat} (h : lo' ≤ lo) (st : Store α) (w : Store.wfFrom d lo st = true) : Store.wfFrom d lo' st = true := by
  cases st with
  | nil => rfl
  | cons p r =>
    obtain ⟨i, v⟩ := p
    simp [Store.wfFrom] at w ⊢
    exact ⟨⟨by omega, w.1.2⟩, w.2⟩

theorem store_put_wfFrom (k : Nat) (v : α) (hv : v ≠ d) (st : Store α) : ∀ lo, lo ≤ k → Store.wfFrom d lo st = true →
    Store.wfFrom d lo (Store.put k v st) = true := by
  induction st with
  | nil => intro lo hk _; simp [Store.put, Store.wfFrom, hk, hv]
  | cons p r ih =>
    obtain ⟨i, w⟩ := p
    intro lo hk h
    simp [Store.wfFrom] at h
    simp only [Store.put]
    split
    · simp [Store.wfFrom, h.1, ih (i + 1) (by omega) h.2]
    · split
      · rename_i hi; subst hi; simp [Store.wfFrom, hk, hv, h.2]
      · simp [Store.wfFrom, hk, hv, h.1.2, h.2]; omega

theorem store_filter_wfFrom (q : Nat × α → Bool) (st : Store α) : ∀ lo, Store.wfFrom d lo st = true → Store.wfFrom d lo (st.filter q) = true := by
  induction st with
  | nil => intro lo _; rfl
  | cons p r ih =>
    obtain ⟨i, w⟩ := p
    intro lo h
    simp [Store.wfFrom] at h
    by_cases hq : q (i, w) = true
    · simp [List.filter, hq, Store.wfFrom, h.1, ih (i + 1) h.2]
    · simp only [List.filter, hq]
      exact store_wfFrom_mono d (by omega) _ (ih (i + 1) h.2)

/-- Storing a record keeps the canonical form. -/
theorem store_set_wf (k : Nat) (v : α) (st : Store α) (h : Store.wf d st = true) : Store.wf d (Store.set d k v st) = true := by
  unfold Store.set
  split
  · exact store_filter_wfFrom d _ st 0 h
  · rename_i hv; exact store_put_wfFrom d k v hv st 0 (Nat.zero_le _) h

theorem store_upd_wf (k : Nat) (f : α → α) (st : Store α) (h : Store.wf d st = true) : Store.wf d (Store.upd d k f st) = true :=
  store_set_wf d k _ st h

theorem store_setMany_wf (k : Nat) (l : List α) : ∀ st : Store α, Store.wf d st = true → Store.wf d (Store.setMany d k l st) = true := by
  induction l generalizing k with
  | nil => intro st h; exact h
  | cons v r ih => intro st h; exact ih (k + 1) _ (store_set_wf d k v st h)

/-! ## Clay -/

/-- A write into Clay keeps its canonical form. -/
theorem clayWrite_wf (a : Nat) (b : Bytes) (s : State) (h : Memory.wf s.clay) : Memory.wf (clayWrite a b s).clay := by
  have go : ∀ (l : List (Byte × Nat)) (st : Store Byte) (bad : Nat → Bool), Store.wf 0 st = true →
      Store.wf 0 (l.foldl (fun st x => if bad x.2 then st else Store.set 0 (a + x.2) x.1 st) st) = true := by
    intro l
    induction l with
    | nil => intro st bad h; exact h
    | cons x r ih =>
      intro st bad h
      simp only [List.foldl_cons]
      apply ih
      split
      · exact h
      · exact store_set_wf 0 _ _ st h
  exact go b.zipIdx s.clay (fun i => partWord a b.length i && poisonedIn s 9 ((a + i) / 8 * 8) 8) h

/-- Clay lists nothing after reset. -/
theorem reset_clay_wf : Memory.wf State.reset.clay := rfl

end Sys2Proof.Machine
end

