-- ==== Sys2Proof/Laws/Frames.lean ====
section
/-! SUPPORT. What the shared operations leave alone: events, interrupts, counters, host accesses, stitch frames, ring
completions and acknowledgements change no unit and no command channel. -/

namespace Sys2Proof.Machine

open Sys2Proof

theorem SameUnits.refl (s : State) : SameUnits s s := by
  constructor <;> simp

theorem SameUnits.trans {s t u : State} (a : SameUnits s t) (b : SameUnits t u) : SameUnits s u where
  mode := b.mode.trans a.mode
  fuses := b.fuses.trans a.fuses
  boot := b.boot.trans a.boot
  spdm := b.spdm.trans a.spdm
  served := b.served.trans a.served
  blocked := ⟨b.blocked.1.trans a.blocked.1, b.blocked.2.trans a.blocked.2⟩
  chanTab := b.chanTab.trans a.chanTab
  links := b.links.trans a.links
  peers := b.peers.trans a.peers
  clay := b.clay.trans a.clay
  funcs := b.funcs.trans a.funcs
  ports := b.ports.trans a.ports
  gens := b.gens.trans a.gens
  modBus := b.modBus.trans a.modBus
  tables := b.tables.trans a.tables
  bufs := ⟨b.bufs.1.trans a.bufs.1, b.bufs.2.1.trans a.bufs.2.1, b.bufs.2.2.trans a.bufs.2.2⟩
  cipher := b.cipher.trans a.cipher
  pumps := ⟨b.pumps.1.trans a.pumps.1, b.pumps.2.1.trans a.pumps.2.1, b.pumps.2.2.1.trans a.pumps.2.2.1, b.pumps.2.2.2.trans a.pumps.2.2.2⟩
  time := b.time.trans a.time
  fh := b.fh.trans a.fh
  comb := b.comb.trans a.comb
  power := b.power.trans a.power
  fault := b.fault.trans a.fault

/-- The aquifer's state with other Unris links. -/
def withStitch (a : AqSt) (l : Store StitchSt) : AqSt := { a with stitch := l }

/-- An operation that only reaches outwards: no unit, no command channel and no forwarding entry changes, and nothing becomes due. -/
structure Outward (s t : State) : Prop where
  units : SameUnits s t
  chans : t.chans = s.chans
  fwd : t.fwd = s.fwd
  accepted : t.accepted = s.accepted
  wms : t.cis = s.cis
  quiet : s.transit = none → t.transit = none
  /-- of the aquifer's state only the Unris links change -/
  aq : t.aq = withStitch s.aq t.aq.stitch
  /-- no host-transmit frame is fetched or ends -/
  frames : ∀ n, (qpAt t n).frames = (qpAt s n).frames
  /-- no read is asked for or ends -/
  tags : t.rings.tags = s.rings.tags
  armed : s.armedMode = none → t.armedMode = none

theorem Outward.refl (s : State) : Outward s s := ⟨.refl s, rfl, rfl, rfl, rfl, id, rfl, fun _ => rfl, rfl, id⟩

theorem Outward.trans {s t u : State} (a : Outward s t) (b : Outward t u) : Outward s u :=
  ⟨a.units.trans b.units, b.chans.trans a.chans, b.fwd.trans a.fwd, b.accepted.trans a.accepted, b.wms.trans a.wms, fun h => b.quiet (a.quiet h),
    by
      have h : withStitch t.aq u.aq.stitch = withStitch (withStitch s.aq t.aq.stitch) u.aq.stitch := congrArg (withStitch · u.aq.stitch) a.aq
      exact b.aq.trans h,
    fun n => (b.frames n).trans (a.frames n), b.tags.trans a.tags, fun h => b.armed (a.armed h)⟩

/-- A fold of outward operations is outward. -/
theorem Outward.fold {α : Type} (f : State → α → State) (h : ∀ t x, Outward t (f t x)) (l : List α) (s : State) :
    Outward s (l.foldl f s) := by
  induction l generalizing s with
  | nil => exact .refl s
  | cons x r ih => exact (h s x).trans (ih _)

theorem outward_emit (o : Out) (s : State) : Outward s (emit o s) := by
  refine ⟨?_, rfl, rfl, rfl, rfl, id, rfl, fun _ => rfl, rfl, id⟩; constructor <;> simp
theorem outward_updCfg (f : Nat) (g : FnCfg → FnCfg) (s : State) : Outward s (updCfg f g s) := by
  refine ⟨?_, rfl, rfl, rfl, rfl, id, rfl, fun _ => rfl, rfl, id⟩; constructor <;> simp
theorem outward_updMsix (f e : Nat) (g : Msix → Msix) (s : State) : Outward s (updMsix f e g s) := by
  refine ⟨?_, rfl, rfl, rfl, rfl, id, rfl, fun _ => rfl, rfl, id⟩; constructor <;> simp
theorem outward_updBox (b : Nat) (g : Mbox → Mbox) (s : State) : Outward s (updBox b g s) := by
  refine ⟨?_, rfl, rfl, rfl, rfl, id, rfl, fun _ => rfl, rfl, id⟩; constructor <;> simp
theorem outward_updStitch (p : Nat) (g : StitchSt → StitchSt) (s : State) : Outward s (updStitch p g s) := by
  refine ⟨?_, rfl, rfl, rfl, rfl, id, rfl, fun _ => rfl, rfl, id⟩; constructor <;> simp
theorem qpAt_updQp (n m : Nat) (g : Qp → Qp) (s : State) : qpAt (updQp n g s) m = if m = n then g (qpAt s n) else qpAt s m := by
  unfold qpAt updQp
  split
  · rename_i h; subst h; simp
  · rename_i h; exact store_get_upd_ne _ n m g _ h
theorem outward_updQp (n : Nat) (g : Qp → Qp) (hg : ∀ q, (g q).frames = q.frames) (s : State) : Outward s (updQp n g s) := by
  refine ⟨?_, rfl, rfl, rfl, rfl, id, rfl, fun m => ?_, rfl, id⟩
  · constructor <;> simp [updQp]
  · rw [qpAt_updQp]
    split
    · rename_i h; rw [hg, h]
    · rfl

theorem outward_countBy (n k : Nat) (s : State) : Outward s (countBy n k s) := by
  unfold countBy; split
  · exact .refl s
  · refine ⟨?_, rfl, rfl, rfl, rfl, id, rfl, fun _ => rfl, rfl, id⟩; constructor <;> simp
theorem outward_count (n : Nat) (s : State) : Outward s (count n s) := outward_countBy n 1 s

theorem outward_updIntx (pf : Nat) (s : State) : Outward s (updIntx pf s) := by
  unfold updIntx; dsimp only; split
  · exact (outward_updCfg _ _ s).trans (outward_emit _ _)
  · split
    · exact (outward_updCfg _ _ s).trans (outward_emit _ _)
    · exact .refl s
theorem outward_intxAll (s : State) : Outward s (intxAll s) := (outward_updIntx 0 s).trans (outward_updIntx 1 _)

theorem outward_sendMsix (f e : Nat) (s : State) : Outward s (sendMsix f e s) := by
  unfold sendMsix; split
  · exact .refl s
  · split
    · exact outward_emit _ s
    · exact outward_updMsix _ _ _ s

theorem outward_markArmed (s : State) : Outward s (markArmed s) := by
  unfold markArmed
  split
  · rename_i a ha
    split
    · refine ⟨?_, rfl, rfl, rfl, rfl, id, rfl, fun _ => rfl, rfl, (fun h => by simp [h] at ha)⟩; constructor <;> simp
    · exact .refl s
  · exact .refl s
theorem outward_markTransit (s : State) : Outward s (markTransit s) := by
  unfold markTransit
  split
  · rename_i x hx
    split
    · refine ⟨?_, rfl, rfl, rfl, rfl, (fun h => by simp [h] at hx), rfl, fun _ => rfl, rfl, id⟩; constructor <;> simp
    · exact .refl s
  · exact .refl s
theorem outward_latchWake (k : Nat) (s : State) : Outward s (latchWake k s) := by
  unfold latchWake
  split
  · dsimp only
    split <;> (refine ⟨?_, rfl, rfl, rfl, rfl, id, rfl, fun _ => rfl, rfl, id⟩; constructor <;> simp)
  · split
    · exact (outward_markArmed s).trans (outward_markTransit _)
    · exact .refl s

theorem outward_deliverEvt (src : Nat) (s : State) : Outward s (deliverEvt src s) := by
  unfold deliverEvt
  refine Outward.trans ?_ (outward_intxAll _)
  split
  · split
    · exact outward_count _ s
    · split
      · exact .refl s
      · exact outward_sendMsix _ _ s
  · exact .refl s

theorem outward_raise (src detail : Nat) (s : State) : Outward s (raise src detail s) := by
  unfold raise
  split
  · exact .refl s
  · dsimp only
    have w : ∀ (t : State), Outward t (if routeWake (evtRoute t src) then latchWake 6 t else t) := by
      intro t; split
      · exact outward_latchWake 6 t
      · exact .refl t
    split
    · exact w s
    · refine Outward.trans ?_ (w _)
      have e : Outward s { s with evt := { s.evt with
          status := Store.set false src true s.evt.status, detail := Store.set 0 src (BitVec.ofNat 32 detail) s.evt.detail } } := by
        refine ⟨?_, rfl, rfl, rfl, rfl, id, rfl, fun _ => rfl, rfl, id⟩; constructor <;> simp
      split
      · exact e.trans (outward_deliverEvt src _)
      · exact e

theorem outward_feedMon (n : Nat) (v : Int) (s : State) : Outward s (feedMon n v s) := by
  unfold feedMon; dsimp only; split
  · exact .refl s
  · have e : Outward s { s with monitors := Store.set {} n (monTake v (Store.get {} n s.monitors)) s.monitors } := by
      refine ⟨?_, rfl, rfl, rfl, rfl, id, rfl, fun _ => rfl, rfl, id⟩; constructor <;> simp
    split
    · exact e.trans (outward_raise _ _ _)
    · exact e
theorem outward_sample (kind index : Nat) (v : Int) (s : State) : Outward s (sample kind index v s) :=
  Outward.fold (fun (t : State) (p : Nat × Monitor) => feedMon p.1 v t) (fun t p => outward_feedMon p.1 v t) _ s

theorem outward_issue (k : WKind) (o : Out) (s : State) : Outward s (issue k o s) := by
  unfold issue
  split
  · exact outward_emit _ s
  · split
    · exact .refl s
    · split
      · refine ⟨?_, rfl, rfl, rfl, rfl, id, rfl, fun _ => rfl, rfl, id⟩; constructor <;> simp
      · split
        · exact outward_emit _ s
        · split
          · refine ⟨?_, rfl, rfl, rfl, rfl, id, rfl, fun _ => rfl, rfl, id⟩; constructor <;> simp
          · split
            · refine Outward.trans (t := atcTouch _ s) ?_ (outward_emit _ _)
              refine ⟨?_, rfl, rfl, rfl, rfl, id, rfl, fun _ => rfl, rfl, id⟩; constructor <;> simp [atcTouch]
            · refine Outward.trans ?_ (outward_emit _ _)
              refine ⟨?_, rfl, rfl, rfl, rfl, id, rfl, fun _ => rfl, rfl, id⟩; constructor <;> simp

theorem outward_postWrite (k : WKind) (ro : Bool) (bad : Nat → Nat → Bool) (f a : Nat) (d : Bytes) (s : State) :
    Outward s (postWrite k ro bad f a d s) :=
  Outward.fold _ (fun t _ => outward_issue _ _ t) _ s
theorem outward_hostWrite (k : WKind) (f a : Nat) (d : Bytes) (s : State) : Outward s (hostWrite k f a d s) := outward_postWrite _ _ _ f a d s
theorem outward_hostWriteP (k : WKind) (bad : Nat → Nat → Bool) (f a : Nat) (d : Bytes) (s : State) : Outward s (hostWriteP k bad f a d s) :=
  outward_postWrite _ _ _ f a d s

theorem outward_putFrame (port ty seq : Nat) (p : Bytes) (nak : Bool) (s : State) : Outward s (putFrame port ty seq p nak s) :=
  (outward_updStitch _ _ s).trans (outward_emit _ _)
theorem outward_sendNow (port ty : Nat) (p : Bytes) (s : State) : Outward s (sendNow port ty p s) :=
  (outward_putFrame _ _ _ _ _ s).trans (outward_updStitch _ _ _)
theorem outward_drainWaiting (port n : Nat) (s : State) : Outward s (drainWaiting port n s) := by
  induction n generalizing s with
  | zero => exact .refl s
  | succ n ih =>
    unfold drainWaiting
    dsimp only
    split
    · exact .refl s
    · split
      · exact ((outward_updStitch _ _ s).trans (outward_sendNow _ _ _ _)).trans (ih _)
      · exact .refl s
theorem outward_sendFrame (port ty : Nat) (p : Bytes) (s : State) : Outward s (sendFrame port ty p s) := by
  unfold sendFrame
  dsimp only
  split
  · exact .refl s
  · refine Outward.trans ?_ ((outward_updStitch _ _ _).trans (outward_drainWaiting _ _ _))
    split
    · exact (outward_updStitch _ _ s).trans (outward_emit _ _)
    · exact .refl s

theorem outward_fireQp (n : Nat) (s : State) : Outward s (fireQp n s) := by
  unfold fireQp; dsimp only; split
  · exact outward_updQp _ _ (by intro _; rfl) s
  · exact (outward_updQp _ _ (by intro _; rfl) s).trans (outward_sendMsix _ _ _)
theorem outward_modTick (n : Nat) (s : State) : Outward s (modTick n s) := by
  unfold modTick; simp only; split
  · exact .refl s
  · generalize (if (qpAt s n).modAt.isSome = true then (qpAt s n).modCnt else 0) + 1 = c
    split
    · exact outward_fireQp n s
    · exact outward_updQp _ _ (by intro _; rfl) s
theorem outward_writeCqe (n : Nat) (e : Cqe) (s : State) : Outward s (writeCqe n e s) := by
  unfold writeCqe
  refine Outward.trans ?_ ((outward_updQp _ _ (by intro _; rfl) _).trans (outward_modTick _ _))
  have h := (outward_hostWrite .cqe (qpAt s n).fn ((qpAt s n).cqAddr + 32 * (qpAt s n).cqIdx + 4) ((cqeBytes (qpAt s n).cqPhase e).drop 4) s).trans
    (outward_hostWrite .cqe (qpAt s n).fn ((qpAt s n).cqAddr + 32 * (qpAt s n).cqIdx) ((cqeBytes (qpAt s n).cqPhase e).take 4) _)
  split
  · exact h.trans (outward_count _ _)
  · split
    · exact h.trans (outward_count _ _)
    · exact h

theorem outward_ringDone (f : Nat) (seq : Word) (st det : Nat) (s : State) : Outward s (ringDone f seq st det s) := by
  unfold ringDone; dsimp only; split
  · exact .refl s
  · exact (outward_updQp _ _ (by intro _; rfl) s).trans (outward_writeCqe _ _ _)
theorem outward_raiseFnBox (f : Nat) (s : State) : Outward s (raiseFnBox f s) := by
  unfold raiseFnBox; split
  · exact outward_sendMsix _ _ s
  · exact outward_raise _ _ s
theorem outward_ackNotice (ch : Chan) (rc : Nat) (s : State) : Outward s (ackNotice ch rc s) := by
  unfold ackNotice
  split
  · dsimp only; split
    · exact (outward_updBox _ _ s).trans (outward_raiseFnBox _ _)
    · exact outward_updBox _ _ s
  · exact .refl s
theorem outward_reportAccepted (ch : Chan) (seq : Word) (s : State) : Outward s (reportAccepted ch seq s) := by
  unfold reportAccepted; split
  · exact outward_ringDone _ _ _ _ s
  · exact outward_ackNotice _ _ s
theorem outward_badCheck (ch : Chan) (seq : Word) (s : State) : Outward s (badCheck ch seq s) := by
  unfold badCheck
  refine (outward_count (cDev 0) s).trans ?_
  split
  · exact outward_ringDone _ _ _ _ _
  · exact outward_ackNotice _ _ _
theorem outward_deliverReply (r : CmdRef) (a : Answer) (s : State) : Outward s (deliverReply r a s) := by
  have host : ∀ (f : Nat) (t : State), Outward t (hostWrite .reply f r.resp.toNat ((replyBytes s r a).take 8)
      (hostWrite .reply f (r.resp.toNat + 8) ((replyBytes s r a).drop 8) (hostWriteP .reply (fun _ _ => false) f a.outAddr a.out t))) := fun f t =>
    (outward_hostWriteP _ _ _ _ _ t).trans ((outward_hostWrite _ _ _ _ _).trans (outward_hostWrite _ _ _ _ _))
  unfold deliverReply
  dsimp only
  split
  · exact host _ s
  · split
    · exact host _ s
    · exact .refl s
  · exact outward_emit _ s
  · exact outward_sendFrame _ _ _ s
  · exact .refl s

/-! ## Answering, and the end of a command -/

theorem sameUnits_updChan (ch : Chan) (g : ChanSt → ChanSt) (s : State) : SameUnits s (updChan ch g s) := by constructor <;> simp

/-- What answering changes of the state beside the outward effects: channels, forwarding entries and counts. -/
structure Answers (s t : State) : Prop where
  units : SameUnits s t
  wms : t.cis = s.cis
  quiet : s.transit = none → t.transit = none
  frames : ∀ n, (qpAt t n).frames = (qpAt s n).frames
  tags : t.rings.tags = s.rings.tags
  armed : s.armedMode = none → t.armedMode = none

/-- No unit changes, and nothing becomes due. -/
structure Kept (s t : State) : Prop where
  units : SameUnits s t
  quiet : s.transit = none → t.transit = none
  armed : s.armedMode = none → t.armedMode = none

theorem Kept.refl (s : State) : Kept s s := ⟨.refl s, id, id⟩
theorem Kept.trans {s t u : State} (a : Kept s t) (b : Kept t u) : Kept s u :=
  ⟨a.units.trans b.units, fun h => b.quiet (a.quiet h), fun h => b.armed (a.armed h)⟩
theorem Answers.kept {s t : State} (a : Answers s t) : Kept s t := ⟨a.units, a.quiet, a.armed⟩

/-- A fold of operations that change no unit changes none. -/
theorem Kept.fold {α : Type} (f : State → α → State) (h : ∀ t x, Kept t (f t x)) (l : List α) (s : State) : Kept s (l.foldl f s) := by
  induction l generalizing s with
  | nil => exact .refl s
  | cons x r ih => exact (h s x).trans (ih _)

theorem Answers.refl (s : State) : Answers s s := ⟨.refl s, rfl, id, fun _ => rfl, rfl, id⟩
theorem Answers.trans {s t u : State} (a : Answers s t) (b : Answers t u) : Answers s u :=
  ⟨a.units.trans b.units, b.wms.trans a.wms, fun h => b.quiet (a.quiet h), fun n => (b.frames n).trans (a.frames n), b.tags.trans a.tags,
    fun h => b.armed (a.armed h)⟩
theorem Outward.answers {s t : State} (a : Outward s t) : Answers s t := ⟨a.units, a.wms, a.quiet, a.frames, a.tags, a.armed⟩
theorem Outward.kept {s t : State} (a : Outward s t) : Kept s t := a.answers.kept
theorem answers_updChan (ch : Chan) (g : ChanSt → ChanSt) (s : State) : Answers s (updChan ch g s) :=
  ⟨sameUnits_updChan ch g s, rfl, id, fun _ => rfl, rfl, id⟩

theorem answers_countAnswer (u st : Nat) (s : State) : Answers s (countAnswer u st s) := by
  have e : Answers s (if st = stOk ∨ st = stDuplicate then s else { s with cmdFailed := Store.upd 0 u (· + 1) s.cmdFailed }) := by
    split
    · exact .refl s
    · refine ⟨?_, rfl, id, fun _ => rfl, rfl, id⟩; constructor <;> simp
  unfold countAnswer
  dsimp only
  split
  · exact e.trans (outward_raise _ _ _).answers
  · exact e

theorem answers_replyHere (r : CmdRef) (a : Answer) (s : State) : Answers s (replyHere r a s) := by
  unfold replyHere
  dsimp only
  exact ((((answers_updChan _ _ s).trans (answers_updChan _ _ _)).trans (answers_countAnswer _ _ _)).trans
    (outward_sample _ _ _ _).answers).trans (outward_deliverReply _ _ _).answers

theorem answers_replyN (n : Nat) (r : CmdRef) (a : Answer) (s : State) : Answers s (replyN n r a s) := by
  induction n generalizing r s with
  | zero => exact .refl s
  | succ n ih =>
    unfold replyN
    split
    · split
      · exact .refl s
      · rename_i x _
        have h (k : Nat) : Answers s (countAnswer r.unit a.status { s with fwd := s.fwd.filter fun y => y.num != k }) := by
          refine Answers.trans (t := { s with fwd := s.fwd.filter fun y => y.num != k }) ?_ (answers_countAnswer _ _ _)
          refine ⟨?_, rfl, id, fun _ => rfl, rfl, id⟩; constructor <;> simp
        dsimp only
        split
        · split
          · exact (h _).trans (outward_count _ _).answers
          · exact h _
        · exact (h _).trans (ih _ _)
    · exact answers_replyHere r a s

/-- A reply touches no unit. -/
theorem answers_reply (r : CmdRef) (a : Answer) (s : State) : Answers s (reply r a s) := answers_replyN 70 r a s
theorem answers_replyIfRunning (r : CmdRef) (a : Answer) (s : State) : Answers s (replyIfRunning r a s) := by
  unfold replyIfRunning; split
  · exact answers_reply r a s
  · exact .refl s
theorem answers_markStage (r : CmdRef) (n : Nat) (s : State) : Answers s (markStage r n s) := by
  unfold markStage; split
  · refine ⟨?_, rfl, id, fun _ => rfl, rfl, id⟩; constructor <;> simp
  · exact answers_updChan _ _ s
theorem answers_accept (r : CmdRef) (c : Cmd) (s : State) : Answers s (accept r c s) := by
  unfold accept
  refine ⟨?_, rfl, id, fun _ => rfl, rfl, id⟩; constructor <;> simp [updChan]
theorem answers_taken (op : OpInfo) (c : Cmd) (s : State) : Answers s (taken op c s) :=
  (answers_accept _ _ s).trans (outward_reportAccepted _ _ _).answers

/-! ## The end of every command -/

theorem outward_wmUpshift (w : Wm) (s : State) : Outward s (wmUpshift w s) := by
  unfold wmUpshift
  split
  · split
    · exact outward_updStitch _ _ s
    · exact .refl s
  · exact .refl s

theorem kept_wmSlot (n : Nat) (s : State) : Kept s (wmSlot n s) := by
  unfold wmSlot
  dsimp only
  split
  · exact .refl s
  · split
    · refine Kept.trans ?_ (outward_raise _ _ _).kept
      refine Kept.trans ?_ (outward_wmUpshift _ _).kept
      refine ⟨?_, id, id⟩; constructor <;> simp
    · split
      · refine ⟨?_, id, id⟩; constructor <;> simp
      · exact .refl s
theorem kept_wmCheck (s : State) : Kept s (wmCheck s) := Kept.fold _ (fun t n => kept_wmSlot n t) _ s

/-! ## Reads of the host -/

theorem kept_issueRead (w : WaitRead) (s : State) : Kept s (issueRead w s) := by
  unfold issueRead
  split
  · exact .refl s
  · refine Kept.trans ?_ (outward_issue _ _ _).kept
    refine ⟨?_, id, id⟩; constructor <;> simp
theorem kept_serveReads (s : State) : Kept s (serveReads s) := by
  have h : ∀ n (t : State), Kept t (serveReadsN n t) := by
    intro n
    induction n with
    | zero => exact fun t => .refl t
    | succ n ih =>
      intro t
      unfold serveReadsN
      split
      · exact .refl t
      · exact (kept_issueRead _ t).trans (ih _)
  exact h _ s
theorem kept_readRequest (f : Nat) (use : ReadUse) (a n off : Nat) (s : State) : Kept s (readRequest f use a n off s) := by
  unfold readRequest
  split
  · exact .refl s
  · refine Kept.trans ?_ (kept_serveReads _)
    refine ⟨?_, id, id⟩; constructor <;> simp
theorem kept_hostRead (f : Nat) (use : ReadUse) (a n : Nat) (s : State) : Kept s (hostRead f use a n s) :=
  Kept.fold _ (fun t _ => kept_readRequest _ _ _ _ _ t) _ s
theorem kept_kickQp (n : Nat) (s : State) : Kept s (kickQp n s) := by
  unfold kickQp
  dsimp only
  split
  · exact .refl s
  · refine Kept.trans (outward_updQp _ _ (by intro _; rfl) s).kept (Kept.fold _ (fun t p => ?_) _ _)
    unfold fetchPart
    split
    · exact kept_hostRead _ _ _ _ t
    · exact Kept.fold _ (fun u _ => kept_readRequest _ _ _ _ _ u) _ t
theorem kept_readOn (s : State) : Kept s (readOn s) := by
  refine Kept.fold _ (fun t x => ?_) _ s
  split
  · exact kept_kickQp _ t
  · exact .refl t

/-- With nothing due there is nothing to end. -/
theorem endDue_quiet (s : State) (h : Quiet s) : endDue s = s := by
  have e : abandonEntry s = s := by unfold abandonEntry; rw [h.2.1]
  have a : abandonArmed s = s := by unfold abandonArmed; rw [h.2.2]
  unfold endDue
  rw [h.1]
  show abandonEntry (abandonArmed (abandonEntry s)) = s
  rw [e, a, e]

theorem quiet_of_kept {s t : State} (a : Kept s t) (h : Quiet s) : Quiet t := ⟨by rw [a.units.boot]; exact h.1, a.quiet h.2.1, a.armed h.2.2⟩
theorem quiet_of_answers {s t : State} (a : Answers s t) (h : Quiet s) : Quiet t := quiet_of_kept a.kept h

/-- What follows a command that leaves nothing due touches no unit. -/
theorem sameUnits_settle (s : State) (h : Quiet s) : SameUnits s (settle s) := by
  have w := (kept_readOn s).trans (kept_wmCheck _)
  unfold settle
  rw [endDue_quiet _ (quiet_of_kept w h)]
  exact w.units.trans (outward_intxAll _).units

end Sys2Proof.Machine
end

