-- ==== Sys2Proof/Laws/Run.lean ====
section
/-! SUPPORT. What the shared run of a command packet does: the effect of one that passes its checks, and what one that is refused
leaves alone. -/

namespace Sys2Proof.Machine

open Sys2Proof

@[simp] theorem lenIs_eq (n : Nat) (c : Cmd) : lenIs n c = (c.payloadLen == n) := rfl

theorem chanSt_updChan (ch : Chan) (g : ChanSt → ChanSt) (s : State) : chanSt (updChan ch g s) ch = g (chanSt s ch) := by
  simp [chanSt, updChan]

/-! ## A unit path leads to the same unit after the command is taken -/

/-- Two states hold the same of what a unit path reads. -/
structure SamePlace (s t : State) : Prop where
  fuses : t.fuses = s.fuses
  aq : t.aq = withStitch s.aq t.aq.stitch
  fwd : t.fwd = s.fwd

theorem SamePlace.levelAt {s t : State} (h : SamePlace s t) (l : Nat) : Machine.levelAt t l = Machine.levelAt s l := by
  have e : ∀ (f : AqSt → Option Upper), (∀ a x, f (withStitch a x) = f a) → f t.aq = f s.aq := fun f hf => by rw [h.aq]; exact hf _ _
  cases l with
  | zero => exact e (fun a => a.group.map fun g => { group := g, index := a.index, gateway := a.gateway, stratum := a.stratum }) fun _ _ => rfl
  | succ l => exact e (fun a => a.uppers[l]?) fun _ _ => rfl

theorem SamePlace.uppers {s t : State} (h : SamePlace s t) : t.aq.uppers = s.aq.uppers := by rw [h.aq]; rfl
theorem SamePlace.members {s t : State} (h : SamePlace s t) : t.aq.members = s.aq.members := by rw [h.aq]; rfl

theorem SamePlace.parentAt {s t : State} (h : SamePlace s t) (l : Nat) (r : List Nat) : Machine.parentAt t l r = Machine.parentAt s l r := by
  simp [Machine.parentAt, h.levelAt]

theorem SamePlace.ownKeys {s t : State} (h : SamePlace s t) : Machine.ownKeys t = Machine.ownKeys s := by
  simp [Machine.ownKeys, h.levelAt, h.uppers]

theorem SamePlace.wellCount {s t : State} (h : SamePlace s t) : Machine.wellCount t = Machine.wellCount s := by
  unfold Machine.wellCount hasWellsHi capUnits
  rw [h.fuses]

theorem SamePlace.hopFrom {s t : State} (h : SamePlace s t) (x : Target) (hop : Nat) (r : List Nat) :
    Machine.hopFrom t x hop r = Machine.hopFrom s x hop r := by
  cases x <;> simp [Machine.hopFrom, h.parentAt, h.ownKeys, h.wellCount, h.members]

theorem SamePlace.pathMoves {s t : State} (h : SamePlace s t) (x : Target) (l : List Nat) :
    Machine.pathMoves t x l = Machine.pathMoves s x l := by
  induction l generalizing x with
  | nil => rfl
  | cons a r ih => simp [Machine.pathMoves, h.hopFrom, ih]

theorem SamePlace.startUnit {s t : State} (h : SamePlace s t) (ch : Chan) : Machine.startUnit t ch = Machine.startUnit s ch := by
  cases ch <;> simp [Machine.startUnit, linkLevel, h.levelAt, h.uppers, h.members, h.fwd]

theorem SamePlace.movesOf {s t : State} (h : SamePlace s t) (c : Cmd) : Machine.movesOf t c = Machine.movesOf s c := by
  simp [Machine.movesOf, h.pathMoves, h.startUnit]

/-! ## The state in which a command is taken -/

theorem accept_chans (r : CmdRef) (c : Cmd) (s : State) : (accept r c s).chans =
    (updChan r.chan (fun st => { st with
      last := some r.seq
      running := st.running.filter (fun q => !(decide (q.ref.seq = r.seq))) ++
        [{ ref := r, stage := 0, since := s.time.t, timeoutUs := timeoutOf c, held := some c }] }) s).chans := rfl

theorem samePlace_taken (op : OpInfo) (c : Cmd) (s : State) : SamePlace s (taken op c s) := by
  have a := outward_reportAccepted c.chan c.seq (accept (refAt op c s) c s)
  exact ⟨(answers_taken op c s).units.fuses, a.aq, a.fwd⟩

/-- The running commands of an idle channel once a command is taken. -/
theorem running_taken (op : OpInfo) (c : Cmd) (s : State) (h : (chanSt s c.chan).running = []) :
    (chanSt (taken op c s) c.chan).running =
      [{ ref := refAt op c s, stage := 0, since := s.time.t, timeoutUs := timeoutOf c, held := some c }] := by
  have e : (taken op c s).chans = (accept (refAt op c s) c s).chans := (outward_reportAccepted _ _ _).chans
  unfold chanSt
  rw [e, accept_chans]
  show (chanSt (updChan c.chan _ s) c.chan).running = _
  rw [chanSt_updChan]
  simp [h]

/-- A command that has just been taken has the whole of its time-out left. -/
theorem remaining_taken {op : OpInfo} {c : Cmd} {s : State} (h : Arrives op c s) :
    remainingNs (taken op c s) (refAt op c s) = timeoutOf c * 1000 := by
  have hr := running_taken op c s h.idle
  have ht : (taken op c s).time = s.time := (answers_taken op c s).units.time
  unfold remainingNs
  have hc : (refAt op c s).chan = c.chan := rfl
  rw [hc]
  split
  · rename_i e he
    exact absurd he (h.own e)
  · rw [hr]
    simp [refAt, ht]

/-! ## The run of a command -/

/-- A command that arrives is taken, and is executed at the unit its path leads to. -/
theorem arrives_run {op : OpInfo} {c : Cmd} {s : State} (h : Arrives op c s) (body : Body) :
    runCommand op body c s = execute op body (refAt op c s) (targetOf s c) c (taken op c s) := by
  have hheld : heldOff (chanSt (taken op c s) c.chan) (opClass op.code) (refAt op c s).unit c.fence c.seq = false := by
    unfold heldOff
    rw [running_taken op c s h.idle]
    simp [refAt]
  have hstart : startsNow op c s = false := by unfold startsNow; simp [h.idle]
  have hcred : ¬ replyCredits s c.chan 0 = 0 := by unfold replyCredits; simp [h.idle]
  unfold runCommand
  split
  · rename_i e he
    exact absurd he (h.own e)
  · unfold takeCommand
    simp only [hstart, h.reads, Bool.not_true, Bool.false_eq_true, if_false, if_neg hcred, h.crc, h.fresh]
    show (if heldOff (chanSt (taken op c s) c.chan) (opClass op.code) (refAt op c s).unit c.fence c.seq = true then taken op c s
      else if (!staged c (taken op c s)) = true then reply (refAt op c s) (err stRetry 0) (taken op c s)
      else execute op body (refAt op c s) (targetOf s c) c (taken op c s)) = _
    rw [hheld, h.room]
    rfl

/-- An answer without output goes back over any channel (R387). -/
theorem back_of_noOutput {ch : Chan} {a : Answer} (h : a.out = []) : tooMuchBack ch a = false := by
  unfold tooMuchBack
  split <;> simp [h]

/-- A choice between answers without output has none. -/
theorem noOutput_ite {p : Prop} [Decidable p] {x y : Option Answer} {a : Answer} (hx : x = some a → a.out = []) (hy : y = some a → a.out = []) :
    (if p then x else y) = some a → a.out = [] := by
  by_cases h : p
  · rw [if_pos h]; exact hx
  · rw [if_neg h]; exact hy

/-- A refusal has no output. -/
theorem noOutput_err {st d : Nat} {a : Answer} (h : some (err st d) = some a) : a.out = [] := by
  cases h; rfl

/-- The shared checks answer without output. -/
theorem checks_noOutput {op : OpInfo} {t : Target} {c : Cmd} {s : State} {a : Answer} : checks op t c s = some a → a.out = [] := by
  unfold checks
  repeat' first | exact noOutput_err | apply noOutput_ite
  exact fun h => absurd h (by simp)

/-- How a command ends: it answers, or runs on. -/
def ends (op : OpInfo) (c : Cmd) (s : State) : State × Option Answer → Host.Outcome State Fault Refusal
  | (u, some a) => answered op c s a u
  | (u, none) => runsOn op c s u

/-- A command at a unit of this device whose checks decide: it is answered with what they say. -/
theorem refused_run {op : OpInfo} {c : Cmd} {s : State} (h : Arrives op c s) (hr : Reaches c s)
    (ht : targetOf s c ≠ .badPath ∧ ∀ m r, targetOf s c ≠ .member m r) {a : Answer}
    (hc : checks op (targetOf s c) c (taken op c s) = some a) (body : Body) :
    done (runCommand op body c s) = answered op c s a (taken op c s) := by
  have hm := (samePlace_taken op c s).movesOf c
  have hf := (samePlace_taken op c s).fwd
  have h1 : (timeLeft (movesOf s c) (timeoutOf c * 1000)).isNone = false := by
    cases hx : timeLeft (movesOf s c) (timeoutOf c * 1000) with
    | none => exact absurd hx hr.1
    | some x => rfl
  have h2 : ¬ (0 < movesOf s c ∧ 256 < (s.fwd.filter fun x => !x.timedOut).length + movesOf s c) := by
    rcases hr.2 with e | e <;> omega
  rw [arrives_run h]
  unfold execute
  simp only [hm, hf, remaining_taken h, h1, if_neg h2]
  cases htc : targetOf s c with
  | badPath => exact absurd htc ht.1
  | member m r => exact absurd htc (ht.2 m r)
  | _ => rw [htc] at hc; simp [hc, answered, done, back_of_noOutput (checks_noOutput hc)]

/-- A command whose checks pass has exactly the effect of its body, from the state in which it is taken. -/
theorem ready_run {op : OpInfo} {t : Target} {c : Cmd} {s : State} (h : Ready op t c s) (body : Body) :
    done (runCommand op body c s) = ends op c s (body (refAt op c s) t c (taken op c s)) := by
  have hm := (samePlace_taken op c s).movesOf c
  have hf := (samePlace_taken op c s).fwd
  have h1 : (timeLeft (movesOf s c) (timeoutOf c * 1000)).isNone = false := by
    cases hx : timeLeft (movesOf s c) (timeoutOf c * 1000) with
    | none => exact absurd hx h.reaches.1
    | some x => rfl
  have h2 : ¬ (0 < movesOf s c ∧ 256 < (s.fwd.filter fun x => !x.timedOut).length + movesOf s c) := by
    rcases h.reaches.2 with e | e <;> omega
  rw [arrives_run h.arrives]
  unfold execute
  simp only [hm, hf, remaining_taken h.arrives, h1, if_neg h2, h.target]
  have hp := h.passes
  have ha : (t.isAquifer && groupClass op.code && op.code != 0x0803) = false ∧ (t.isAquifer && asksModes op.code) = false := by
    have := h.alone
    generalize t.isAquifer = x, groupClass op.code = y, (op.code != 0x0803) = z, asksModes op.code = w at this
    cases x <;> cases y <;> cases z <;> cases w <;> simp_all
  have hu := h.unit
  cases t with
  | badPath => exact absurd rfl hu.1
  | member m r => exact absurd rfl (hu.2 m r)
  | _ =>
    simp only [Bool.false_eq_true, if_false, hp, ha.1, ha.2]
    rcases body (refAt op c s) _ c (taken op c s) with ⟨u, _ | a⟩
    · rfl
    · unfold crossesBack ends answered done
      by_cases hb : tooMuchBack c.chan a = true
      · simp only [Option.any_some, hb, if_true]
      · simp only [Option.any_some, hb, if_false, Bool.false_eq_true]

/-- MODE_GET or IDENTIFY at an aquifer (R17): the gateway asks every other member, and answers when they have. -/
theorem asked_run {op : OpInfo} {l : Nat} {c : Cmd} {s : State} (h : Arrives op c s) (hr : Reaches c s) (ht : targetOf s c = .aquifer l)
    (ha : asksModes op.code = true) (hc : checks op (.aquifer l) c (taken op c s) = none) (f : Target → Cmd → State → Answer)
    (hf : (f (.aquifer l) c (taken op c s)).status = stOk) :
    done (runCommand op (readBody f) c s) = .next (settle (gathered (refAt op c s)
      (carryAll { code := 0x0103 } { c with payload := [], payloadLen := 0 } (refAt op c s) l (f (.aquifer l) c (taken op c s)) (taken op c s)))) := by
  have hm := (samePlace_taken op c s).movesOf c
  have hw := (samePlace_taken op c s).fwd
  have h1 : (timeLeft (movesOf s c) (timeoutOf c * 1000)).isNone = false := by
    cases hx : timeLeft (movesOf s c) (timeoutOf c * 1000) with
    | none => exact absurd hx hr.1
    | some x => rfl
  have h2 : ¬ (0 < movesOf s c ∧ 256 < (s.fwd.filter fun x => !x.timedOut).length + movesOf s c) := by
    rcases hr.2 with e | e <;> omega
  have hg : groupClass op.code = false := by
    have : op.code = 0x0101 ∨ op.code = 0x0103 := by simpa [asksModes] using ha
    rcases this with e | e <;> rw [e] <;> rfl
  rw [arrives_run h]
  unfold execute
  simp only [hm, hw, remaining_taken h, h1, if_neg h2, ht, hc, ha, hg, Target.isAquifer, Bool.false_eq_true, if_false, if_true, Bool.and_false,
    Bool.false_and, Bool.and_true, readBody, Option.getD_some, hf, ne_eq, not_true_eq_false, Target.level]
  rcases carryAll _ _ _ _ _ _ with ⟨v, _ | a⟩ <;> rfl

end Sys2Proof.Machine
end

