-- ==== Sys2Proof/Laws/Rows.lean ====
section
/-! SUPPORT. Every command packet row is one shared run with a body of its own. -/

namespace Sys2Proof.Machine

open Sys2Proof

/-- A command packet row is the shared run, with the row's body. -/
theorem row_runs {i : Instr} {op : OpInfo} {c : Cmd} (h : rowOf i = some (op, c)) :
    ∃ body : Body, ∀ s, exec i s = done (runCommand op body c s) := by
  cases i <;> first | (cases h; done) | (cases h; exact ⟨_, fun _ => rfl⟩)


/-! ## A command whose body does not run touches no unit -/

theorem answers_aq (s : State) (a : AqSt) : Answers s { s with aq := a } := by
  refine ⟨?_, rfl, id, fun _ => rfl, rfl, id⟩; constructor <;> simp
theorem answers_putFwd (e : FwdEntry) (p : Nat) (s : State) : Answers s (putFwd e (bumpFwdSeq p s)) := by
  refine (answers_aq s _).trans (t := bumpFwdSeq p s) ?_
  unfold putFwd
  refine ⟨?_, rfl, id, fun _ => rfl, rfl, id⟩; constructor <;> simp

theorem answers_carry (op : OpInfo) (c : Cmd) (r : CmdRef) (m : Nat) (rest : List Nat) (s : State) :
    Answers s (carry op c r m rest s).1 := by
  unfold carry
  dsimp only
  split
  · exact .refl s
  · split
    · exact .refl s
    · split
      · exact .refl s
      · split
        · exact .refl s
        · rename_i n _
          exact (answers_putFwd _ _ s).trans (outward_sendFrame _ _ _ _).answers

theorem foldl_keeps {α β : Type} {P : β → Prop} {f : β → α → β} (h : ∀ x a, P x → P (f x a)) (l : List α) (x : β) (hx : P x) :
    P (l.foldl f x) := by
  induction l generalizing x with
  | nil => exact hx
  | cons a l ih => exact ih _ (h x a hx)

theorem answers_carryAll (op : OpInfo) (c : Cmd) (r : CmdRef) (l : Nat) (own : Answer) (s : State) :
    Answers s (carryAll op c r l own s).1 := by
  have step : ∀ (x : State × List Nat × List (Nat × Answer)) m, Answers s x.1 →
      Answers s (match carry op c r m [] x.1 with
        | (u, none) => (u, x.2.1 ++ [m], x.2.2)
        | (u, some a) => (u, x.2.1, x.2.2 ++ [(m, a)])).1 := by
    intro x m h
    have hc := answers_carry op c r m [] x.1
    revert hc
    rcases carry op c r m [] x.1 with ⟨u, _ | a⟩ <;> exact fun hc => h.trans hc
  have h := fun z => foldl_keeps (P := fun x : State × List Nat × List (Nat × Answer) => Answers s x.1) step (otherMembers s l) (s, [], z) (.refl s)
  unfold carryAll
  dsimp only
  split <;> split
  · exact h _
  · exact (h []).trans (answers_aq _ _)
  · exact h _
  · exact (h [(s.aq.index, own)]).trans (answers_aq _ _)

/-- A body that changes no unit. -/
def BodyKeeps (b : Body) : Prop := ∀ r t c s, Kept s (b r t c s).1

theorem keeps_read (f : Target → Cmd → State → Answer) : BodyKeeps (readBody f) := fun _ _ _ s => .refl s

/-- What a stitch link takes back is the body's doing, or nothing (R387). -/
theorem kept_crossesBack {ch : Chan} {s : State} {o : State × Option Answer} (h : Kept s o.1) : Kept s (crossesBack ch s o).1 := by
  unfold crossesBack
  split
  · exact .refl s
  · exact h

/-- Executing a command whose body changes no unit, or whose checks decide, changes none. -/
theorem kept_execute {op : OpInfo} {body : Body} {r : CmdRef} {t : Target} {c : Cmd} {s : State}
    (h : BodyKeeps body ∨ checks op t c s ≠ none) : Kept s (execute op body r t c s) := by
  have fin : ∀ x : State × Option Answer, Kept s x.1 → Kept s (match x.2 with
      | some a => reply r a x.1
      | none => markStage r 1 x.1) := by
    rintro ⟨u, _ | a⟩ hu
    · exact hu.trans (answers_markStage r 1 u).kept
    · exact hu.trans (answers_reply r a u).kept
  unfold execute
  dsimp only
  refine fin _ ?_
  split
  · exact .refl s
  · split
    · exact .refl s
    · split
      · exact .refl s
      · split
        · exact .refl s
        · split
          · exact .refl s
          · split
            · exact .refl s
            · split
              · exact .refl s
              · exact (answers_carry _ _ _ _ _ _).kept
      · split
        · exact .refl s
        · rename_i hn
          rcases h with h | h
          · split
            · refine Kept.trans (h r .device c s) ?_
              exact (answers_carryAll _ _ _ _ _ _).kept
            · split
              · split
                · exact h r t c s
                · exact (h r t c s).trans (answers_carryAll _ _ _ _ _ _).kept
              · exact kept_crossesBack (h _ _ _ _)
          · exact absurd hn h

/-- A packet row whose body changes no unit, or whose checks decide wherever it starts, changes none. -/
theorem kept_runCommand {op : OpInfo} {body : Body} {c : Cmd} {s : State}
    (h : BodyKeeps body ∨ ∀ u t, Kept s u → u.fwd = s.fwd → checks op t c u ≠ none) : Kept s (runCommand op body c s) := by
  have ex : ∀ r t u, Kept s u → u.fwd = s.fwd → Kept s (execute op body r t c u) := fun r t u a d =>
    a.trans (kept_execute (h.imp id fun k => k u t a d))
  unfold runCommand
  split
  · split
    · refine ex _ _ _ ?_ rfl
      refine ⟨?_, id, id⟩; constructor <;> simp
    · exact .refl s
  · split
    · exact ex _ _ _ (.refl s) rfl
    · split
      · exact .refl s
      · unfold takeCommand
        dsimp only
        split
        · exact .refl s
        · split
          · exact (outward_badCheck _ _ _).answers.kept
          · split
            · have a := (answers_taken op c s).kept
              split
              · exact a
              · split
                · exact a.trans (answers_reply _ _ _).kept
                · exact ex _ _ _ a (samePlace_taken op c s).fwd
            · exact ((outward_reportAccepted _ _ _).trans (outward_deliverReply _ _ _)).answers.kept

/-! ## Which bodies change no unit -/

theorem keeps_funcQuery : BodyKeeps (fun ref _ c s => match funcRefused ref (arg c 0 8) s with
      | some a => (s, some a)
      | none => (s, some (okOut (b2n (funcOf s (arg c 0 8)).created) 0 (arg c 8 8) (allocBytes (arg c 0 8) (funcOf s (arg c 0 8)))))) := by
  intro r t c s
  dsimp only
  split <;> exact .refl s

/-- A row that only reads is the shared run with a body that changes no unit. -/
theorem row_reads {i : Instr} (h : onlyReads i = true) :
    ∃ op c, rowOf i = some (op, c) ∧ ∃ body, BodyKeeps body ∧ ∀ s, exec i s = done (runCommand op body c s) := by
  cases i with
  | identify c => exact ⟨infoIdentify, c, rfl, _, keeps_read _, fun _ => rfl⟩
  | capability c => exact ⟨infoCapability, c, rfl, _, keeps_read _, fun _ => rfl⟩
  | modeGet c => exact ⟨infoModeGet, c, rfl, _, keeps_read _, fun _ => rfl⟩
  | echo c => exact ⟨infoEcho, c, rfl, _, keeps_read _, fun _ => rfl⟩
  | statusOf c => exact ⟨infoStatusOf, c, rfl, _, keeps_read _, fun _ => rfl⟩
  | gateCheck c => exact ⟨infoGateCheck, c, rfl, _, keeps_read _, fun _ => rfl⟩
  | certRead c => exact ⟨infoCertRead, c, rfl, _, keeps_read _, fun _ => rfl⟩
  | portStatus c => exact ⟨infoPortStatus, c, rfl, _, keeps_read _, fun _ => rfl⟩
  | testgenStatus c => exact ⟨infoTestgenStatus, c, rfl, _, keeps_read _, fun _ => rfl⟩
  | programList c => exact ⟨infoProgramList, c, rfl, _, keeps_read _, fun _ => rfl⟩
  | epochGet c => exact ⟨infoEpochGet, c, rfl, _, keeps_read _, fun _ => rfl⟩
  | ownerQuery c => exact ⟨infoOwnerQuery, c, rfl, _, keeps_read _, fun _ => rfl⟩
  | siltRead c => exact ⟨infoSiltRead, c, rfl, _, keeps_read _, fun _ => rfl⟩
  | policerRead c => exact ⟨infoPolicerRead, c, rfl, _, keeps_read _, fun _ => rfl⟩
  | queueStatus c => exact ⟨infoQueueStatus, c, rfl, _, keeps_read _, fun _ => rfl⟩
  | cipherStatus c => exact ⟨infoCipherStatus, c, rfl, _, keeps_read _, fun _ => rfl⟩
  | queueQuery c => exact ⟨infoQueueQuery, c, rfl, _, keeps_read _, fun _ => rfl⟩
  | pumpStatus c => exact ⟨infoPumpStatus, c, rfl, _, keeps_read _, fun _ => rfl⟩
  | timeGet c => exact ⟨infoTimeGet, c, rfl, _, keeps_read _, fun _ => rfl⟩
  | fhGridQuery c => exact ⟨infoFhGridQuery, c, rfl, _, keeps_read _, fun _ => rfl⟩
  | aqStatus c => exact ⟨infoAqStatus, c, rfl, _, keeps_read _, fun _ => rfl⟩
  | aqCertRead c => exact ⟨infoAqCertRead, c, rfl, _, keeps_read _, fun _ => rfl⟩
  | powerStatus c => exact ⟨infoPowerStatus, c, rfl, _, keeps_read _, fun _ => rfl⟩
  | powerTelemetry c => exact ⟨infoPowerTelemetry, c, rfl, _, keeps_read _, fun _ => rfl⟩
  | powerVfRead c => exact ⟨infoPowerVfRead, c, rfl, _, keeps_read _, fun _ => rfl⟩
  | countersRead c => exact ⟨infoCountersRead, c, rfl, _, keeps_read _, fun _ => rfl⟩
  | cntCtxRead c => exact ⟨infoCntCtxRead, c, rfl, _, keeps_read _, fun _ => rfl⟩
  | funcQuery c => exact ⟨infoFuncQuery, c, rfl, _, keeps_funcQuery, fun _ => rfl⟩
  | _ => cases h

/-- What a command leaves, once what follows it is done: no unit has changed when the run changed none and nothing is due. -/
theorem sameUnits_done {s u t : State} (a : Kept s u) (q : Quiet s) (h : done u = .next t) : SameUnits s t := by
  cases h
  exact a.units.trans (sameUnits_settle u (quiet_of_kept a q))

end Sys2Proof.Machine
end

