-- ==== Sys2Proof/Laws/Settle.lean ====
section
/-! SUPPORT. What follows every command: every row ends in `settle`, and what `settle` leaves true. -/

namespace Sys2Proof.Machine

open Sys2Proof

/-- Every row answers a next state, and what follows every command has been done in it. -/
theorem exec_settles (i : Instr) (s : State) : ∃ u, exec i s = .next (settle u) := by
  cases i <;> exact ⟨_, rfl⟩

/-- A step is the end of a command, or a nanosecond. -/
theorem step_cases {s t : State} (h : step s = .next t) : (∃ u, t = settle u) ∨ (s.pending = [] ∧ t = tick s) := by
  unfold step at h
  split at h
  · rename_i hp
    cases h
    exact .inr ⟨hp, rfl⟩
  · rename_i c rest _
    obtain ⟨u, hu⟩ := exec_settles c { s with pending := rest }
    rw [hu] at h
    cases h
    exact .inl ⟨u, rfl⟩

/-- A nanosecond touches only the clocks. -/
theorem tick_frame (s : State) : tick s = { s with time := (tick s).time, wh := (tick s).wh } := by
  unfold tick
  split
  · dsimp only; split <;> rfl
  · split <;> rfl

/-! ## Nothing due -/

theorem transit_updIntx (pf : Nat) (s : State) :
    (updIntx pf s).transit = s.transit ∧ (updIntx pf s).boot = s.boot ∧ (updIntx pf s).armedMode = s.armedMode := by
  unfold updIntx
  dsimp only
  split
  · exact ⟨rfl, rfl, rfl⟩
  · split <;> exact ⟨rfl, rfl, rfl⟩

theorem synce_emits (l : List (Nat × SynceSt)) (f : Nat → Pin) (t : State) :
    (l.foldl (fun t (x : Nat × SynceSt) => if x.2.low then t else emit (.pinLevel (f x.1) false) t) t).transit = t.transit ∧
    (l.foldl (fun t (x : Nat × SynceSt) => if x.2.low then t else emit (.pinLevel (f x.1) false) t) t).boot = t.boot ∧
    (l.foldl (fun t (x : Nat × SynceSt) => if x.2.low then t else emit (.pinLevel (f x.1) false) t) t).cis = t.cis ∧
    (l.foldl (fun t (x : Nat × SynceSt) => if x.2.low then t else emit (.pinLevel (f x.1) false) t) t).armedMode = t.armedMode := by
  induction l generalizing t with
  | nil => exact ⟨rfl, rfl, rfl, rfl⟩
  | cons x r ih =>
    simp only [List.foldl_cons]
    have e := ih (if x.2.low then t else emit (.pinLevel (f x.1) false) t)
    refine ⟨e.1.trans ?_, e.2.1.trans ?_, e.2.2.1.trans ?_, e.2.2.2.trans ?_⟩ <;> split <;> rfl

/-- After a reset nothing is due and no watermark is set. -/
theorem reset_clears (source : Nat) (straps : Straps) (s : State) :
    Quiet (resetDevice source straps s) ∧ (resetDevice source straps s).cis.wms = [] := by
  unfold resetDevice
  dsimp only
  have key : ∀ (t : State), t.transit = none → t.boot.resetDue = none → t.cis.wms = [] → t.armedMode = none →
      ∀ (l : List (Nat × SynceSt)) (a b : Bool),
      let t := l.foldl (fun t (x : Nat × SynceSt) => if x.2.low then t else emit (.pinLevel (if x.1 = 0 then .syncE0 else .syncE1) false) t) t
      let t := if a then emit (.pinLevel .ppsOut false) t else t
      let t := if b then emit (.pinLevel .fault true) t else t
      Quiet t ∧ t.cis.wms = [] := by
    intro t h1 h2 h3 h4 l a b
    obtain ⟨e1, e2, e3, e4⟩ := synce_emits l (fun n => if n = 0 then .syncE0 else .syncE1) t
    unfold Quiet
    cases a <;> cases b <;> refine ⟨⟨?_, ?_, ?_⟩, ?_⟩ <;> simp [e1, e2, e3, e4, h1, h2, h3, h4]
  exact key _ rfl rfl rfl rfl _ _ _

/-- No entry to DORMANT under way is overtaken. -/
def EntryOk (s : State) : Prop := ∀ x, s.transit = some x → x.abandon = false

/-- None that waits is, but one of a group. -/
def ArmedOk (s : State) : Prop := ∀ a, s.armedMode = some a → a.abandon = true → a.cause = 5

/-- The end of an overtaken entry: nothing happens when none is, and else no entry is under way. -/
theorem abandonEntry_cases (s : State) :
    (abandonEntry s = s ∧ EntryOk s) ∨
    ((abandonEntry s).transit = none ∧ (abandonEntry s).boot = s.boot ∧ (s.armedMode = none → (abandonEntry s).armedMode = none)) := by
  unfold abandonEntry
  split
  · rename_i x hx
    split
    · refine .inr ?_
      dsimp only
      split
      · rename_i r _
        have a := answers_replyIfRunning r (err stAborted 2) { s with transit := none }
        exact ⟨a.quiet rfl, a.units.boot, a.armed⟩
      · exact ⟨rfl, rfl, id⟩
    · rename_i ha
      refine .inl ⟨rfl, fun y hy => ?_⟩
      rw [hx] at hy
      cases hy
      simpa using ha
  · rename_i hx
    exact .inl ⟨rfl, fun y hy => by rw [hx] at hy; cases hy⟩

/-- The same of one that waits. -/
theorem abandonArmed_cases (s : State) :
    (abandonArmed s = s ∧ ArmedOk s) ∨ ((abandonArmed s).armedMode = none ∧ (abandonArmed s).boot = s.boot) := by
  unfold abandonArmed
  split
  · rename_i x hx
    split
    · refine .inr ?_
      dsimp only
      split
      · rename_i r _
        have a := answers_replyIfRunning r (err stAborted 2) { s with armedMode := none }
        exact ⟨a.armed rfl, a.units.boot⟩
      · exact ⟨rfl, rfl⟩
    · rename_i ha
      refine .inl ⟨rfl, fun y hy hb => ?_⟩
      rw [hx] at hy
      cases hy
      simpa [hb] using ha
  · rename_i hx
    exact .inl ⟨rfl, fun y hy => by rw [hx] at hy; cases hy⟩

theorem entryOk_none {s : State} (h : s.transit = none) : EntryOk s := fun x hx => by rw [h] at hx; cases hx
theorem armedOk_none {s : State} (h : s.armedMode = none) : ArmedOk s := fun x hx => by rw [h] at hx; cases hx

/-- Ending what is due leaves nothing due. -/
theorem nothingDue_endDue (s : State) : NothingDue (endDue s) := by
  unfold endDue
  split
  · rename_i st _
    have r := (reset_clears 2 st s).1
    exact ⟨r.1, entryOk_none r.2.1, armedOk_none r.2.2⟩
  · rename_i hb
    have c1 := abandonEntry_cases s
    generalize abandonEntry s = u at c1 ⊢
    have hu : u.boot.resetDue = none ∧ EntryOk u := by
      rcases c1 with ⟨e, k⟩ | ⟨e, b, _⟩
      · subst e; exact ⟨hb, k⟩
      · exact ⟨by rw [b]; exact hb, entryOk_none e⟩
    have c2 := abandonArmed_cases u
    have c3 := abandonEntry_cases (abandonArmed u)
    rcases c2 with ⟨e, k⟩ | ⟨e, b⟩
    · rw [e] at c3 ⊢
      have keep : abandonEntry u = u := by
        unfold abandonEntry
        split
        · rename_i x hx
          rw [if_neg (by rw [hu.2 x hx]; exact Bool.false_ne_true)]
        · rfl
      rw [keep]
      exact ⟨hu.1, hu.2, k⟩
    · have hb2 : (abandonArmed u).boot.resetDue = none := by rw [b]; exact hu.1
      rcases c3 with ⟨e3, k3⟩ | ⟨e3, b3, a3⟩
      · rw [e3]; exact ⟨hb2, k3, armedOk_none e⟩
      · exact ⟨by rw [b3]; exact hb2, entryOk_none e3, armedOk_none (a3 e)⟩

/-- What follows every command leaves nothing due. -/
theorem nothingDue_settle (s : State) : NothingDue (settle s) := by
  have h := nothingDue_endDue (wmCheck (readOn s))
  unfold settle intxAll
  generalize endDue (wmCheck (readOn s)) = u at h ⊢
  have a := transit_updIntx 0 u
  have b := transit_updIntx 1 (updIntx 0 u)
  unfold NothingDue
  rw [b.1, a.1, b.2.1, a.2.1, b.2.2, a.2.2]
  exact h

/-! ## The INTx lines -/

theorem cfgOf_updCfg (f n : Nat) (g : FnCfg → FnCfg) (s : State) : cfgOf (updCfg f g s) n = if n = f then g (cfgOf s f) else cfgOf s n := by
  unfold cfgOf updCfg
  split
  · rename_i h; subst h; simp
  · rename_i h; exact store_get_upd_ne _ f n g _ h

/-- What the INTx law of one function reads. -/
structure IntxReads (s t : State) (pf : Nat) : Prop where
  mode : intMode t pf = intMode s pf
  cond : intxCond t pf = intxCond s pf
  issue : canIssue t pf = canIssue s pf
  withdraw : canWithdraw t pf = canWithdraw s pf

theorem intxReads_updIntx (k pf : Nat) (s : State) : IntxReads s (updIntx k s) pf := by
  have e : ∀ (b : Bool) (o : Out), IntxReads s (emit o (updCfg k (fun c => { c with intxOn := b }) s)) pf := by
    intro b o
    have c : ∀ n, ∃ x, cfgOf (emit o (updCfg k (fun c => { c with intxOn := b }) s)) n = { cfgOf s n with intxOn := x } := by
      intro n
      refine ⟨if n = k then b else (cfgOf s n).intxOn, ?_⟩
      show cfgOf (updCfg k (fun c => { c with intxOn := b }) s) n = _
      rw [cfgOf_updCfg]
      split
      · rename_i h; subst h; rfl
      · rfl
    refine ⟨?_, rfl, ?_, rfl⟩
    · obtain ⟨x, hx⟩ := c pf
      unfold intMode
      rw [hx]
    · obtain ⟨x, hx⟩ := c pf
      obtain ⟨y, hy⟩ := c (pfOf pf)
      unfold canIssue fnUp live enumerated
      rw [hx, hy]
      rfl
  unfold updIntx
  dsimp only
  split
  · exact e _ _
  · split
    · exact e _ _
    · exact ⟨rfl, rfl, rfl, rfl⟩

/-- The INTx law of one function. -/
def IntxOk (s : State) (pf : Nat) : Prop :=
  ((cfgOf s pf).intxOn = true → (intMode s pf == 2 && intxCond s pf) = true ∨ canWithdraw s pf = false) ∧
  ((intMode s pf == 2 && intxCond s pf) = true → canIssue s pf = true → (cfgOf s pf).intxOn = true)

theorem intxOk_same {s t : State} {pf : Nat} (r : IntxReads s t pf) (c : (cfgOf t pf).intxOn = (cfgOf s pf).intxOn) (h : IntxOk s pf) :
    IntxOk t pf := by
  unfold IntxOk
  rw [r.mode, r.cond, r.issue, r.withdraw, c]
  exact h

theorem intxOn_updIntx (k : Nat) (s : State) : (cfgOf (updIntx k s) k).intxOn =
    if intMode s k == 2 && intxCond s k then (cfgOf s k).intxOn || canIssue s k else (cfgOf s k).intxOn && !canWithdraw s k := by
  have e : ∀ (b : Bool) (o : Out), cfgOf (emit o (updCfg k (fun c => { c with intxOn := b }) s)) k = { cfgOf s k with intxOn := b } := by
    intro b o
    show cfgOf (updCfg k (fun c => { c with intxOn := b }) s) k = _
    rw [cfgOf_updCfg, if_pos rfl]
  unfold updIntx
  dsimp only
  generalize hw : (intMode s k == 2 && intxCond s k) = w
  generalize hn : (cfgOf s k).intxOn = n
  generalize hc : canIssue s k = c
  generalize hd : canWithdraw s k = d
  cases w <;> cases n <;> cases c <;> cases d <;> simp [e, hn]

theorem intxOk_updIntx (k : Nat) (s : State) : IntxOk (updIntx k s) k := by
  have r := intxReads_updIntx k k s
  unfold IntxOk
  rw [r.mode, r.cond, r.issue, r.withdraw, intxOn_updIntx]
  generalize (intMode s k == 2 && intxCond s k) = w
  generalize (cfgOf s k).intxOn = n
  generalize canIssue s k = c
  generalize canWithdraw s k = d
  cases w <;> cases n <;> cases c <;> cases d <;> simp

theorem intxOn_other (k pf : Nat) (s : State) (h : pf ≠ k) : (cfgOf (updIntx k s) pf).intxOn = (cfgOf s pf).intxOn := by
  have e : ∀ (b : Bool) (o : Out), cfgOf (emit o (updCfg k (fun c => { c with intxOn := b }) s)) pf = cfgOf s pf := by
    intro b o
    show cfgOf (updCfg k (fun c => { c with intxOn := b }) s) pf = _
    rw [cfgOf_updCfg, if_neg h]
  unfold updIntx
  dsimp only
  split
  · rw [e]
  · split
    · rw [e]
    · rfl

/-- Bringing both lines up to date makes both follow their conditions. -/
theorem intxLaw_intxAll (s : State) : IntxLaw (intxAll s) := by
  intro pf h
  have h1 := intxOk_updIntx 1 (updIntx 0 s)
  have h0 := intxOk_same (intxReads_updIntx 1 0 (updIntx 0 s)) (intxOn_other 1 0 _ (by decide)) (intxOk_updIntx 0 s)
  have : pf = 0 ∨ pf = 1 := by omega
  rcases this with rfl | rfl
  · exact h0
  · exact h1

theorem intxLaw_settle (s : State) : IntxLaw (settle s) := intxLaw_intxAll _

/-! ## Watermarks -/

/-- The law of one slot. -/
def WmOk (s : State) (n : Nat) : Prop :=
  1 ≤ wmKind (Store.get ({} : Wm) n s.cis.wms) → wmKind (Store.get ({} : Wm) n s.cis.wms) ≤ 7 →
    ((Store.get ({} : Wm) n s.cis.wms).above = false → wmLive s (Store.get {} n s.cis.wms) < wmThreshold (Store.get {} n s.cis.wms)) ∧
    ((Store.get ({} : Wm) n s.cis.wms).above = true →
      wmThreshold (Store.get {} n s.cis.wms) * (100 - wmHyst (Store.get {} n s.cis.wms)) ≤ wmLive s (Store.get {} n s.cis.wms) * 100)

/-- What the live levels read. -/
structure LevelReads (s t : State) : Prop where
  bufs : t.cis.bufs = s.cis.bufs
  queues : t.cis.queues = s.cis.queues
  frames : ∀ n, (qpAt t n).frames = (qpAt s n).frames
  sump : t.rings.sump = s.rings.sump
  tags : t.rings.tags = s.rings.tags
  power : t.power = s.power

theorem LevelReads.live {s t : State} (h : LevelReads s t) (w : Wm) : wmLive t w = wmLive s w := by
  have f : ∀ n, (Store.get ({} : Qp) n t.rings.qps).frames = (Store.get ({} : Qp) n s.rings.qps).frames := h.frames
  unfold wmLive wmLevel poolUsed chargeOf sumpUsed
  rw [h.bufs, h.queues, h.sump, h.tags, h.power, f]

theorem LevelReads.trans {s t u : State} (a : LevelReads s t) (b : LevelReads t u) : LevelReads s u :=
  ⟨b.bufs.trans a.bufs, b.queues.trans a.queues, fun n => (b.frames n).trans (a.frames n), b.sump.trans a.sump,
    b.tags.trans a.tags, b.power.trans a.power⟩

theorem Answers.levels {s t : State} (a : Answers s t) : LevelReads s t :=
  ⟨by rw [a.wms], by rw [a.wms], a.frames, a.units.pumps.2.2.1, a.tags, a.units.power⟩

theorem wmOk_same {s t : State} {n : Nat} (r : LevelReads s t) (c : Store.get ({} : Wm) n t.cis.wms = Store.get {} n s.cis.wms) (h : WmOk s n) :
    WmOk t n := by
  unfold WmOk
  rw [c]
  intro a b
  rw [r.live]
  exact h a b

/-- One slot looks at its level: its law holds, and every other slot and every level stay. -/
theorem wmSlot_law (n : Nat) (s : State) :
    WmOk (wmSlot n s) n ∧ LevelReads s (wmSlot n s) ∧
    ∀ m, m ≠ n → Store.get ({} : Wm) m (wmSlot n s).cis.wms = Store.get {} m s.cis.wms := by
  unfold wmSlot
  dsimp only
  split
  · rename_i h
    refine ⟨fun a b => ?_, ⟨rfl, rfl, fun _ => rfl, rfl, rfl, rfl⟩, fun _ _ => rfl⟩
    omega
  · split
    · rename_i hx
      simp only [Bool.and_eq_true, Bool.not_eq_true', decide_eq_true_eq] at hx
      generalize hw : Store.get ({} : Wm) n s.cis.wms = w at *
      let v : State := { s with cis := { s.cis with
        wms := Store.set {} n { w with crossed := true, above := true, count := (w.count + 1) % 2 ^ 32 } s.cis.wms } }
      show WmOk (raise (704 + n) 0 (wmUpshift w v)) n ∧ LevelReads s (raise (704 + n) 0 (wmUpshift w v)) ∧
        ∀ m, m ≠ n → Store.get ({} : Wm) m (raise (704 + n) 0 (wmUpshift w v)).cis.wms = Store.get {} m s.cis.wms
      have o := (outward_wmUpshift w v).trans (outward_raise (704 + n) 0 (wmUpshift w v))
      have lv := o.answers.levels
      have base : LevelReads s v := ⟨rfl, rfl, fun _ => rfl, rfl, rfl, rfl⟩
      have hv : v.cis.wms = Store.set {} n { w with crossed := true, above := true, count := (w.count + 1) % 2 ^ 32 } s.cis.wms := rfl
      generalize raise (704 + n) 0 (wmUpshift w v) = z at o lv ⊢
      refine ⟨?_, base.trans lv, fun m hm => ?_⟩
      · unfold WmOk
        rw [o.wms, hv]
        simp only [store_get_set_same]
        intro _ _
        refine ⟨(fun h => by cases h), fun _ => ?_⟩
        rw [(base.trans lv).live]
        have e : wmLive s { w with crossed := true, above := true, count := (w.count + 1) % 2 ^ 32 } = wmLive s w := rfl
        rw [e]
        show wmThreshold w * (100 - wmHyst w) ≤ wmLive s w * 100
        exact Nat.mul_le_mul hx.2 (Nat.sub_le _ _)
      · rw [o.wms, hv]
        exact store_get_set_ne _ n m _ _ hm
    · rename_i hx
      split
      · rename_i hy
        simp only [Bool.and_eq_true, decide_eq_true_eq] at hy
        have base : LevelReads s { s with cis := { s.cis with
          wms := Store.set {} n { Store.get ({} : Wm) n s.cis.wms with above := false } s.cis.wms } } := ⟨rfl, rfl, fun _ => rfl, rfl, rfl, rfl⟩
        refine ⟨?_, base, fun m hm => store_get_set_ne _ n m _ _ hm⟩
        unfold WmOk
        simp only [store_get_set_same]
        intro _ _
        refine ⟨fun _ => ?_, fun h => by cases h⟩
        rw [base.live]
        generalize hw : Store.get ({} : Wm) n s.cis.wms = w at *
        show wmLive s w < wmThreshold w
        have h1 : wmThreshold w * (100 - wmHyst w) ≤ wmThreshold w * 100 := Nat.mul_le_mul (Nat.le_refl _) (Nat.sub_le _ _)
        omega
      · rename_i hy
        have k : WmOk s n := by
          intro _ _
          refine ⟨fun ha => ?_, fun ha => ?_⟩
          · simp only [ha, Bool.not_false, Bool.true_and, decide_eq_true_eq] at hx
            omega
          · simp only [ha, Bool.true_and, decide_eq_true_eq] at hy
            omega
        exact ⟨k, ⟨rfl, rfl, fun _ => rfl, rfl, rfl, rfl⟩, fun _ _ => rfl⟩

/-- A slot that a list's looks include obeys the law after them. -/
theorem wmFold_law (l : List Nat) (s : State) :
    LevelReads s (l.foldl (fun t n => wmSlot n t) s) ∧
    (∀ m, m ∉ l → Store.get ({} : Wm) m (l.foldl (fun t n => wmSlot n t) s).cis.wms = Store.get {} m s.cis.wms) ∧
    (∀ m, m ∈ l ∨ WmOk s m → WmOk (l.foldl (fun t n => wmSlot n t) s) m) := by
  induction l generalizing s with
  | nil => exact ⟨⟨rfl, rfl, fun _ => rfl, rfl, rfl, rfl⟩, fun _ _ => rfl, fun m h => h.elim (by simp) id⟩
  | cons n r ih =>
    obtain ⟨a, b, c⟩ := wmSlot_law n s
    obtain ⟨d, e, f⟩ := ih (wmSlot n s)
    simp only [List.foldl_cons]
    refine ⟨b.trans d, fun m hm => ?_, fun m hm => f m ?_⟩
    · simp only [List.mem_cons, not_or] at hm
      rw [e m hm.2, c m hm.1]
    · by_cases hn : m = n
      · subst hn; exact .inr a
      · rcases hm with hm | hm
        · simp only [List.mem_cons] at hm
          exact .inl (hm.resolve_left hn)
        · exact .inr (wmOk_same b (c m hn) hm)

theorem store_get_unlisted {α : Type} (d : α) (k : Nat) (st : Store α) (h : k ∉ st.map (·.1)) : Store.get d k st = d := by
  induction st with
  | nil => rfl
  | cons p r ih =>
    obtain ⟨i, w⟩ := p
    simp only [List.map_cons, List.mem_cons, not_or] at h
    simp [Store.get, Ne.symm h.1, ih h.2]

/-- Every slot obeys the law once all have looked. -/
theorem watermark_wmCheck (s : State) (n : Nat) : WmOk (wmCheck s) n := by
  obtain ⟨_, e, f⟩ := wmFold_law (s.cis.wms.map (·.1)) s
  by_cases h : n ∈ s.cis.wms.map (·.1)
  · exact f n (.inl h)
  · have : Store.get ({} : Wm) n (wmCheck s).cis.wms = {} := (e n h).trans (store_get_unlisted _ n _ h)
    unfold WmOk
    rw [this]
    intro h1
    exact absurd h1 (by decide)

theorem watermarkLaw_iff (s : State) : WatermarkLaw s ↔ ∀ n, WmOk s n := Iff.rfl

/-- Ending an overtaken entry moves no level. -/
theorem levels_abandon (s : State) : LevelReads s (abandonEntry s) ∧ (abandonEntry s).cis = s.cis := by
  unfold abandonEntry
  split
  · split
    · dsimp only
      split
      · rename_i r _
        have a := answers_replyIfRunning r (err stAborted 2) { s with transit := none }
        exact ⟨LevelReads.trans (t := { s with transit := none }) ⟨rfl, rfl, fun _ => rfl, rfl, rfl, rfl⟩ a.levels, a.wms⟩
      · exact ⟨⟨rfl, rfl, fun _ => rfl, rfl, rfl, rfl⟩, rfl⟩
    · exact ⟨⟨rfl, rfl, fun _ => rfl, rfl, rfl, rfl⟩, rfl⟩
  · exact ⟨⟨rfl, rfl, fun _ => rfl, rfl, rfl, rfl⟩, rfl⟩
theorem levels_abandonArmed (s : State) : LevelReads s (abandonArmed s) ∧ (abandonArmed s).cis = s.cis := by
  unfold abandonArmed
  split
  · split
    · dsimp only
      split
      · rename_i r _
        have a := answers_replyIfRunning r (err stAborted 2) { s with armedMode := none }
        exact ⟨LevelReads.trans (t := { s with armedMode := none }) ⟨rfl, rfl, fun _ => rfl, rfl, rfl, rfl⟩ a.levels, a.wms⟩
      · exact ⟨⟨rfl, rfl, fun _ => rfl, rfl, rfl, rfl⟩, rfl⟩
    · exact ⟨⟨rfl, rfl, fun _ => rfl, rfl, rfl, rfl⟩, rfl⟩
  · exact ⟨⟨rfl, rfl, fun _ => rfl, rfl, rfl, rfl⟩, rfl⟩

/-- What follows every command leaves every watermark slot at its law. -/
theorem watermarkLaw_settle (s : State) : WatermarkLaw (settle s) := by
  intro n
  have h := watermark_wmCheck (readOn s) n
  unfold settle
  generalize wmCheck (readOn s) = t at h ⊢
  have e : WmOk (endDue t) n := by
    unfold endDue
    split
    · rename_i st _
      unfold WmOk
      rw [(reset_clears 2 st t).2]
      intro h1
      have h2 : ¬ 1 ≤ wmKind (Store.get ({} : Wm) n []) := by
        show ¬ 1 ≤ wmKind ({} : Wm)
        decide
      exact absurd h1 h2
    · have a := levels_abandon t
      have b := levels_abandonArmed (abandonEntry t)
      have c := levels_abandon (abandonArmed (abandonEntry t))
      refine wmOk_same ((a.1.trans b.1).trans c.1) ?_ h
      rw [c.2, b.2, a.2]
  have o := outward_intxAll (endDue t)
  exact wmOk_same o.answers.levels (by rw [o.wms]) e

end Sys2Proof.Machine
end

