-- ==== Sys2Proof/Machine/Package.lean ====
section
/-! DEFINITION. The package: its ball grid and which signal or rail each ball carries (R462 to R467), and the supplies (R468). Nothing of it is state:
a board finds here which ball is which. -/

namespace Sys2Proof.Machine

open Sys2Proof

/-- Rows, and columns, of the grid: 59 x 59 balls (R462). -/
def ballGrid : Nat := 59

/-- The alphabet of row names (R463). -/
def rowLetters : List String := ["A", "B", "C", "D", "E", "F", "G", "H", "J", "K", "L", "M", "N", "P", "T", "U", "V", "W", "Y"]

/-- The name of a row (R463). -/
def rowName (r : Nat) : String := (["", "A", "B", "C"].getD (r / 19) "") ++ rowLetters.getD (r % 19) ""

/-- The name of a ball: its row, then its column. -/
def ballName (r c : Nat) : String := rowName r ++ toString c

/-- Row indices of the rows that R465 names. -/
def rowB : Nat := 1
def rowE : Nat := 4
def rowBV : Nat := 54
def rowCA : Nat := 57

/-- What a ball carries. -/
inductive Ball where
  | vss
  /-- A supply, numbered as R468 lists them. -/
  | rail (n : Nat)
  /-- A line lane's pair: transmit or receive, P or N. -/
  | line (lane : Nat) (tx p : Bool)
  /-- A host lane's pair. -/
  | host (lane : Nat) (tx p : Bool)
  /-- A west I/O signal (R467). -/
  | west (i : Nat)
  /-- An east I/O signal (R467). -/
  | east (i : Nat)
  deriving DecidableEq, Repr

/-- The line lane ball at a column of row B or E, by lane and by P or N (R465). -/
def lineAt (c : Nat) : Option (Nat × Bool) :=
  (List.range 16).findSome? fun k =>
    let c0 := 3 + 14 * (k / 4) + 3 * (k % 4)
    if c = c0 then some (k, true) else if c = c0 + 1 then some (k, false) else none

/-- The host lane ball at a column of row CA or BV (R465). -/
def hostAt (c : Nat) : Option (Nat × Bool) :=
  (List.range 16).findSome? fun k => if c = 6 + 3 * k then some (k, true) else if c = 7 + 3 * k then some (k, false) else none

/-- Rails by their place in R468. -/
def railCore : Nat := 1
def railSram : Nat := 2
def rail09 : Nat := 3
def rail12 : Nat := 4
def railHbm : Nat := 5
def railVpp : Nat := 6

/-- A ball of the core power array (R466). -/
def coreBall (r c : Nat) : Ball :=
  if (r + c) % 2 = 0 then .vss
  else
    let u := (r / 2 + c / 2) % 8
    .rail (if u ≤ 4 then railCore else if u = 5 then railSram else if u = 6 then railHbm else railVpp)

/-- What the ball at row index `r` and column `c` carries (R464 to R467): a ball that no rule assigns is VSS. -/
def ballAt (r c : Nat) : Ball :=
  if r = rowB ∨ r = rowE then
    match lineAt c with
    | some (k, p) => .line k (r == rowB) p
    | none => .vss
  else if r = rowCA ∨ r = rowBV then
    match hostAt c with
    | some (k, p) => .host k (r == rowCA) p
    | none => .vss
  else if r = 10 ∨ r = 46 then (if c % 3 = 0 then .vss else .rail rail09)
  else if r = 11 ∨ r = 47 then (if c % 3 = 0 then .vss else .rail rail12)
  else if 12 ≤ r ∧ r ≤ 45 then
    if c ≤ 2 then (let i := 2 * (r - 12) + (c - 1); if i ≤ 44 then .west i else .vss)
    else if c ≤ 57 then coreBall r c
    else (let i := 2 * (r - 12) + (c - 58); if i ≤ 15 then .east i else .vss)
  else .vss

/-- The west I/O signals in their order (R467). -/
def westSignals : List String :=
  ["SYS_RST_N", "PERST0_N", "PERST1_N", "WAKE_IN_N", "HOST_BIF", "BOOT_SRC", "OWNER_EN", "MOD_SPD0", "MOD_SPD1", "SEEP_XI", "SEEP_XO", "SYSREF_25M",
   "PPS_IN", "PPS_OUT", "SYNCE_CLK0", "SYNCE_CLK1"] ++
  ((List.range 4).map fun q => ["MOD_SCL_" ++ toString q, "MOD_SDA_" ++ toString q]).flatten ++
  ["SB_SCL", "SB_SDA", "SB_ALERT_N", "FL_CLK", "FL_CS_N", "FL_DQS"] ++ ((List.range 8).map fun n => "FL_DQ" ++ toString n) ++
  ["FL_RST_N", "FAULT_N", "AVS_CLK", "AVS_MDATA", "AVS_SDATA", "VDD_WH", "VDD_WH"]

/-- The east I/O signals in their order (R467). -/
def eastSignals : List String :=
  ["LINE_REFCLK_P", "LINE_REFCLK_N", "HOST_REFCLK0_P", "HOST_REFCLK0_N", "HOST_REFCLK1_P", "HOST_REFCLK1_N", "TEST_EN"] ++ List.replicate 9 "VDD_IO"

/-- A supply: its name, its nominal in mV (VDD_CORE's is what is commanded), and its tolerance in percent (R468). -/
def supplies : List (String × Nat × Nat) :=
  [("VDD_WH", 800, 3), ("VDD_CORE", 750, 3), ("VDD_SRAM", 800, 3), ("VDDA_09", 900, 2), ("VDDA_12", 1200, 2), ("VDD_HBM", 1100, 3), ("VPP_HBM", 1800, 3),
   ("VDD_IO", 1800, 5)]

/-- A rail lies outside the band that the wellhead monitors, its nominal widened to 5 percent either way (R470). `mv` is what the ball shows and
`nominal` the nominal or, for VDD_CORE, what is commanded. -/
def railOutside (nominal mv : Nat) : Bool := decide (mv * 100 < nominal * 95) || decide (nominal * 105 < mv * 100)

end Sys2Proof.Machine
end

