-- ==== Sys2Proof/Tests/Slice0.lean ====
section
/-! SUPPORT. Tests: an ill-formed command for each check of WellFormed, words and examples of the spec, and for each statement
concrete states and operands that meet its hypotheses. -/

namespace Sys2Proof.Tests

set_option Elab.async false
set_option maxRecDepth 10000

open Sys2Proof Sys2Proof.Machine

/-! ## Helpers -/

/-- `Ready` as a test that computes, for a command whose path stays in the device. -/
def readyB (op : OpInfo) (t : Target) (c : Cmd) (s : State) : Bool :=
  (match c.chan with
    | .fwd _ => false
    | _ => true) &&
  readable s c.chan && (chanSt s c.chan).running.isEmpty && cmdGood op.code c && (window (chanSt s c.chan) c.seq).isNone &&
  staged c (taken op c s) && (timeLeft (movesOf s c) (timeoutOf c * 1000)).isSome && (movesOf s c == 0 || decide ((s.fwd.filter fun x => !x.timedOut).length + movesOf s c ≤ 256)) &&
  targetOf s c == t && (match t with
    | .badPath => false
    | .member _ _ => false
    | _ => true) &&
  !(t.isAquifer && (groupClass op.code && op.code != 0x0803 || asksModes op.code)) && (checks op t c (taken op c s)).isNone

theorem ready_of {op : OpInfo} {t : Target} {c : Cmd} {s : State} (h : readyB op t c s = true) : Ready op t c s := by
  simp only [readyB, Bool.and_eq_true] at h
  obtain ⟨⟨⟨⟨⟨⟨⟨⟨⟨⟨⟨h0, h1⟩, h2⟩, h3⟩, h4⟩, hr⟩, h5⟩, h5'⟩, h6⟩, h7⟩, h8⟩, h9⟩ := h
  simp only [Bool.or_eq_true, decide_eq_true_eq, beq_iff_eq, Option.isNone_iff_eq_none, List.isEmpty_iff] at h2 h4 h5' h6 h9
  rw [Bool.not_eq_true'] at h8
  refine ⟨⟨fun e he => ?_, h1, h2, h3, h4, hr⟩, ⟨?_, h5'⟩, h6, ⟨?_, ?_⟩, h8, h9⟩
  · rw [he] at h0; cases h0
  · intro a; rw [a] at h5; cases h5
  · rintro rfl; cases h7
  · rintro m r rfl; cases h7

/-- `Arrives` and `Reaches` as a test that computes. -/
def arrivesB (op : OpInfo) (c : Cmd) (s : State) : Bool :=
  (match c.chan with
    | .fwd _ => false
    | _ => true) &&
  readable s c.chan && (chanSt s c.chan).running.isEmpty && cmdGood op.code c && (window (chanSt s c.chan) c.seq).isNone && staged c (taken op c s) &&
  (timeLeft (movesOf s c) (timeoutOf c * 1000)).isSome && (movesOf s c == 0 || decide ((s.fwd.filter fun x => !x.timedOut).length + movesOf s c ≤ 256))

theorem arrives_of {op : OpInfo} {c : Cmd} {s : State} (h : arrivesB op c s = true) : Arrives op c s ∧ Reaches c s := by
  simp only [arrivesB, Bool.and_eq_true] at h
  obtain ⟨⟨⟨⟨⟨⟨⟨h0, h1⟩, h2⟩, h3⟩, h4⟩, hr⟩, h5⟩, h5'⟩ := h
  simp only [Bool.or_eq_true, decide_eq_true_eq, beq_iff_eq, Option.isNone_iff_eq_none, List.isEmpty_iff] at h2 h4 h5'
  refine ⟨⟨fun e he => ?_, h1, h2, h3, h4, hr⟩, ⟨?_, h5'⟩⟩
  · rw [he] at h0; cases h0
  · intro a; rw [a] at h5; cases h5

/-- A result that is there, or an error that is. -/
def isOk {α β : Type} : Except α β → Bool
  | .ok _ => true
  | .error _ => false

theorem ok_of {α β : Type} {x : Except α β} (h : isOk x = true) : ∃ v, x = .ok v := by
  cases x with
  | ok v => exact ⟨v, rfl⟩
  | error e => cases h

theorem error_of {α β : Type} {x : Except α β} (h : isOk x = false) : ∃ e, x = .error e := by
  cases x with
  | ok v => cases h
  | error e => exact ⟨e, rfl⟩

/-- The CRC of a command packet. -/
def sealed (op : OpInfo) (c : Cmd) : Cmd := { c with crc := BitVec.ofNat 32 (cmdCrc op.code c) }

/-- A command packet on the sideband transport, with its CRC. -/
def pkt (op : OpInfo) (p : Bytes) : Cmd :=
  sealed op { chan := .sideband, seq := 1, payloadLen := p.length, payload := p }

/-- The same to a unit by its path. -/
def pktTo (op : OpInfo) (hops : List Nat) (p : Bytes) : Cmd :=
  sealed op { chan := .sideband, seq := 1, payloadLen := p.length, payload := p, hops := hops, pathLen := hops.length }

/-- The device in FLOWING, after reset. -/
def up : State := { State.reset with mode := .flowing }

/-- The same as a part without the Combiner and the wells 8 to 11. -/
def small : State := { up with fuses := { up.fuses with variant := .lys9624S } }

/-- A command that runs on the sideband transport. -/
def runs (op : Nat) (seq : Word) : Running := { ref := { chan := .sideband, seq := seq, op := op, unit := unitCode .device } }

/-- The device with a sideband transport in a given state. -/
def side (st : ChanSt) : State := updChan .sideband (fun _ => st) up

/-- The device with channel 1030 bound without PRIV to mailbox 2056, and a notice of KIND 1 pending there. -/
def boxed : State := {
  up with chanTab := Store.set {} 1030 { valid := true, commands := true, box := 2056 } up.chanTab, boxes := [(2056, { status := 1, kind := 1 })] }


/-- The device with one virtual function, which may issue requests, and with Bus Master Enable 1 in PF0. -/
def virt : State := {
  up with funcs := Store.set {} 2 { created := true, qpCount := 2, vecCount := 2 } up.funcs,
          fns := Store.set {} 0 { bme := true, vfEnable := true, numVfs := 1 } (Store.set {} 2 { bme := true } up.fns) }

/-- A command packet on another channel. -/
def pktOn (ch : Chan) (op : OpInfo) (p : Bytes) : Cmd := sealed op { chan := ch, seq := 1, payloadLen := p.length, payload := p }

theorem crcBit_lt (c : Nat) (h : c < 2 ^ 32) : crcBit 0x82F63B78 c < 2 ^ 32 := by
  unfold crcBit
  split
  · exact Nat.xor_lt_two_pow (by omega) (by decide)
  · omega

theorem crcByte_lt (c : Nat) (b : Byte) (h : c < 2 ^ 32) : crcByte 0x82F63B78 c b < 2 ^ 32 := by
  unfold crcByte
  iterate 8 apply crcBit_lt
  exact Nat.xor_lt_two_pow h (Nat.lt_of_lt_of_le b.isLt (by decide))

theorem crc32c_lt (b : Bytes) : crc32c b < 2 ^ 32 := by
  have h : ∀ (b : Bytes) (x : Nat), x < 2 ^ 32 → b.foldl (crcByte 0x82F63B78) x < 2 ^ 32 := by
    intro b
    induction b with
    | nil => intro x hx; exact hx
    | cons a b ih => intro x hx; exact ih _ (crcByte_lt x a hx)
  exact Nat.xor_lt_two_pow (h b _ (by decide)) (by decide)

/-- A sealed packet that is whole passes its check, whatever its bytes. -/
theorem good_sealed (op : OpInfo) (c : Cmd) (hb : c.bad = false) (hl : c.payload.length = c.payloadLen) : cmdGood op.code (sealed op c) = true := by
  have h : cmdCrc op.code (sealed op c) = cmdCrc op.code c := rfl
  have h2 : cmdCrc op.code c < 2 ^ 32 := crc32c_lt _
  simp only [cmdGood, h]
  simp only [sealed, hb, hl, BitVec.toNat_ofNat, Nat.mod_eq_of_lt h2]
  simp

/-- The hypotheses of a row's statement at a sealed packet, with no need to compute its CRC. -/
def readyP (op : OpInfo) (t : Target) (c : Cmd) (s : State) : Bool :=
  (match c.chan with
    | .fwd _ => false
    | _ => true) &&
  readable s c.chan && (chanSt s c.chan).running.isEmpty && (!c.bad && decide (c.payload.length = c.payloadLen)) && (window (chanSt s c.chan) c.seq).isNone &&
  staged c (taken op (sealed op c) s) && (timeLeft (movesOf s c) (timeoutOf c * 1000)).isSome && (movesOf s c == 0 || decide ((s.fwd.filter fun x => !x.timedOut).length + movesOf s c ≤ 256)) &&
  targetOf s c == t && (match t with
    | .badPath => false
    | .member _ _ => false
    | _ => true) &&
  !(t.isAquifer && (groupClass op.code && op.code != 0x0803 || asksModes op.code)) && (checks op t (sealed op c) (taken op (sealed op c) s)).isNone

theorem readyB_of_readyP {op : OpInfo} {t : Target} {c : Cmd} {s : State} (h : readyP op t c s = true) : readyB op t (sealed op c) s = true := by
  simp only [readyP, Bool.and_eq_true, Bool.not_eq_true', decide_eq_true_eq] at h
  obtain ⟨⟨⟨⟨⟨⟨⟨⟨⟨⟨⟨h0, h1⟩, h2⟩, h3, h3'⟩, h4⟩, hr⟩, h5⟩, h5'⟩, h6⟩, h7⟩, h8⟩, h9⟩ := h
  have h3 := good_sealed op c h3 h3'
  simp only [readyB, Bool.and_eq_true, h3, Bool.not_eq_true']
  exact ⟨⟨⟨⟨⟨⟨⟨⟨⟨⟨⟨h0, h1⟩, h2⟩, trivial⟩, h4⟩, hr⟩, h5⟩, h5'⟩, h6⟩, h7⟩, h8⟩, h9⟩

/-! ## Ill-formed commands -/

/-- Packets that break one check of `Cmd.wf` each. -/
def badPackets : List Cmd :=
  [{ chan := .admin 1026 }, { chan := .mailbox 4096 }, { chan := .link 16 }, { chan := .fwd 256 }, { payloadLen := 1 }, { pathLen := 256 },
   { hops := List.replicate 8 0 }, { hops := [65536] }, { payloadLen := 2 ^ 32, bad := true }]

/-- Every row that carries a command packet refuses every bad one. -/
theorem test_bad_packets : (([.identify, .capability, .modeGet, .modeSet, (fun c => .resetUnit c {}), .echo, .statusOf, .forward, .channelBind, (fun c => .imageLoad c {}),
     .gateCheck, (fun c => .fwWrite c {}), .fwActivate, .ownerEnrol, .random, .certRead, .funcCreate, .funcDestroy, .funcQuery, .spoofSet, .portConfig,
     .portStatus, (fun c => .modRead c {}), (fun c => .modWrite c {}), .portLoopback, .testgenSet, .testgenStatus, .graphWrite, .bindSet, .treeWrite,
     .treesetWrite, .ruleWrite, .classWrite, .alistWrite, .spreadSet, .indirWrite, .flowcntRead, .programList, .emDefine, .emUpdate, .commit, .emLookup,
     .emAgedRead, .sieveDefine, .sieveUpdate, .sieveSearch, .sieveStep, .epochGet, .poolLayout, .quotaSet, .ownerQuery, .forfeit, .siltRead, .siltReclaim,
     .poolStatus, .wmSet, .wmRead, .policerWrite, .policerRead, .schedWrite, .curveWrite, .portBufSet, .queueStatus, .ctxLoad, .ctxDelete, .ctxRead,
     .ctxUpdate, .cipherStatus, .queueCreate, .queueStop, .queueStart, .queueDestroy, .queueQuery, .pumpAssign, .pcqSet, .pumpRecover, .pumpStatus,
     .timeConfig, .timeGet, .timeAdjust, .timePortSet, .ppsInRead, .synceSet, .fhCarrierSet, .fhFlowSet, .fhFlowStatus, .fhGridQuery, .combSetWrite,
     .combCflowWrite, .combWeights, .combSwitch, .combStatus, .aqConfig, .aqJoin, .aqLeave, .aqStatus, .aqCertRead, .powerPolicy, .powerCostSet,
     .powerPlanSet, .powerStatus, .powerTelemetry, .powerVfRead, .countersRead, .cntGrant, .monConfig, .monRead, .cntCtxRead] : List (Cmd → Instr)).all fun k => badPackets.all fun c => !(k c).wf) = true := by decide +kernel

/-- A frame that is too long, and an access of no byte or of nine. -/
theorem test_bad_frames (d : Bytes) (h : 65536 < d.length) : ({ data := d } : RxFrame).wf = false ∧ ({ data := d } : StitchFrame).wf = false ∧
    ({ size := 0 } : RegAccess).wf = false ∧ ({ size := 9 } : RegAccess).wf = false := by
  refine ⟨?_, ?_, rfl, rfl⟩
  · simp only [RxFrame.wf, Bool.and_eq_false_imp, decide_eq_false_iff_not]; omega
  · simp only [StitchFrame.wf, Bool.and_eq_false_imp, decide_eq_false_iff_not]; omega

/-- Ill-formed terms, one for each check of `Instr.wf` on any other row, in the order of the rows: part 1 of 4. -/
theorem test_bad_rows_1 : (([.retryFlash 1026, .loadRecovery 1026, .recoveryWindowWrite 1026 0 [], .whWake 1026 0, .portSignalDetect 16, .forwardedReply 256 {},
     .commandTimeout (.link 16) 0, .mboxDoorbell 1026 0 0, .mboxDoorbell 0 2072 0, .mboxAck 1026 0 0, .mboxAck 0 2072 0, .mboxTimeout 2072, .perst 2,
     .hotReset 2, .linkTrained 2 0 0 false, .surpriseDown 2, .pcieUncorrectableError 2 0, .contRelease 1026 0, .contRelease 0 256, .flr 1026,
     .flrComplete 1026, .vfEnableClear 2, .busMasterEnable 1026 false, .msixUnmask 1026 0 0, .msixUnmask 0 4096 0, .msixUnmask 0 0 3,
     .readCompletion 4096 [] false 0, .readCompletion 0 [] false 3, .readTimeout 4096, .invalidateRequest 32 0 0 0, .invalidateRequest 0 1026 0 0,
     .invalidateCompletion 32 0, .invalidateCompletion 0 1026, .peerWindowWrite 2 0 0 [] false, .peerWindowRead 2 0 0 0, .registerWrite 1026 {} 0,
     .registerWrite 0 { bar := 1 } 0, .lineFrameReceive 16 { data := [0] }, .lineFrameReceive 0 {}, .pauseFrameReceive 16 [], .pauseExpiry 16 0,
     .pauseExpiry 0 8, .pauseWatchdog 16 0, .pauseWatchdog 0 8, .pauseXoffRepeat 16 0, .pauseXoffRepeat 0 8, .lpiEntry 16, .portLinkChange 16 false 0] : List Instr).all fun i => !i.wf) = true := by decide +kernel

/-- Ill-formed terms, one for each check of `Instr.wf` on any other row, in the order of the rows: part 2 of 4. -/
theorem test_bad_rows_2 : (([.egressDequeue 17, .timedLaunch 4096, .frameDeparture 16, .testgenFrame 4, .widthDownshiftTrigger 16, .widthUpshiftTrigger 16, .widthProposeTimeout 16,
     .modulePoll 4 false [] [], .modBusStretchTimeout 4, .sweeperVisit 64 0, .watermarkRegisterWrite 1026 {} 0, .watermarkRegisterWrite 0 { bar := 1 } 0,
     .cipherMessageStart true 4, .submissionDoorbell 1026 0 0, .submissionDoorbell 0 16384 0, .descriptorFetchComplete 16384 [] false,
     .txDataReadComplete 16384 0 [] false, .txDataReadComplete 0 65536 [] false, .txReadRetry 16384, .completionDoorbell 1026 0 0,
     .completionDoorbell 0 16384 0, .arm 1026 0 0, .arm 0 16384 0, .moderationTimeout 16384, .adminEnable 2 0, .adminDisable 2 0, .go 1026 0 0, .go 0 256 0,
     .channelStart 256, .channelAbort 1026 0 0, .channelAbort 0 256 0, .pumpTransferComplete 256 [], .pcqHead 1026 0 0, .pcqHead 0 32 0, .timeNowLoRead 2,
     .ptpSync 16 { data := [0] }, .ptpSync 0 {}, .followUp 16 { data := [0] }, .followUp 0 {}, .delayReq 16 { data := [0] }, .delayReq 0 {},
     .delayResp 16 { data := [0] }, .delayResp 0 {}, .announce 16 { data := [0] }, .announce 0 {}, .signaling 16 { data := [0] }, .signaling 0 {},
     .ptpTransmit 16 0] : List Instr).all fun i => !i.wf) = true := by decide +kernel

/-- Ill-formed terms, one for each check of `Instr.wf` on any other row, in the order of the rows: part 3 of 4. -/
theorem test_bad_rows_3 : (([.ptpTransmit 0 16, .carrierResume 32, .synceLaneLoss 2, .synceClockReturn 2, .carrierRecordEffective 32, .fhWindowClose 4096, .combSetDisableDone 32,
     .weightBankLoaded 32 {}, .combBankSwitch 32, .uplinkSymbolClose 32, .uplinkRecordWrite 32, .downlinkCombine 32, .dlFrameReady 32 0,
     .dlFrameReady 0 1024, .pkt 16 { data := zeros 12 }, .pkt 0 {}, .cmd 16 { data := zeros 12 }, .cmd 0 {}, .rsp 16 { data := zeros 12 }, .rsp 0 {},
     .null 16 { data := zeros 12 }, .null 0 {}, .stitchRetryTimeout 16, .stitchSignalLoss 16, .hello 16 { data := zeros 12 }, .hello 0 {},
     .cert 16 { data := zeros 12 }, .cert 0 {}, .proof 16 { data := zeros 12 }, .proof 0 {}, .admitted 16 { data := zeros 12 }, .admitted 0 {},
     .leave 16 { data := zeros 12 }, .leave 0 {}, .widthPropose 16 { data := zeros 12 }, .widthPropose 0 {}, .widthAccept 16 { data := zeros 12 },
     .widthAccept 0 {}, .widthRefuse 16 { data := zeros 12 }, .widthRefuse 0 {}, .widthSwitch 16 { data := zeros 12 }, .widthSwitch 0 {},
     .rest 16 { data := zeros 12 }, .rest 0 {}, .restAck 16 { data := zeros 12 }, .restAck 0 {}, .wake 16, .ping 16 { data := zeros 12 }] : List Instr).all fun i => !i.wf) = true := by decide +kernel

/-- Ill-formed terms, one for each check of `Instr.wf` on any other row, in the order of the rows: part 4 of 4. -/
theorem test_bad_rows_4 : (([.ping 0 {}, .pong 16 { data := zeros 12 }, .pong 0 {}, .prepare 16 { data := zeros 12 }, .prepare 0 {}, .confirm 16 { data := zeros 12 },
     .confirm 0 {}, .refuse 16 { data := zeros 12 }, .refuse 0 {}, .abort 16 { data := zeros 12 }, .abort 0 {}, .memberRouteTimeout 64, .restIdle 16,
     .restScheduledWake 16, .wakePatternHeard 16, .wakePatternTimeout 16, .engineClockGate 96, .wellClockGate 12, .wellPowerGate 12, .cipherUnitGate true 4,
     .mgmtCoreGate 4, .clayChannelPowerDown 256, .combinerGroupGate 16, .unitWakeComplete 16 0, .pointChangeDone 14, .plannedWake 32 false, .thermalTrip 24,
     .patrolScrub 10 0 0, .supplyFault 8, .faultStatusClear 1026 0, .evtEnableWrite 1026 0 0, .evtEnableWrite 0 48 0, .counterPageRead 1026 0,
     .hostRefclkLoss 2, .vfEnableSet 2 0, .atsEnableClear 1026, .registerRead 1026 {}, .registerRead 0 { bar := 1 }, .modBusArbitrationLost 4,
     .modBusIdle 4 {}, .lpiWake 16, .stitchCtrlBad 16 { data := zeros 12 }, .stitchCtrlBad 0 {}] : List Instr).all fun i => !i.wf) = true := by decide +kernel

/-- A packet and an event that are well-formed. -/
theorem test_well_formed : (Instr.timeGet (pkt infoTimeGet [])).wf = true ∧ (Instr.flr 1025).wf = true := by decide +kernel

/-! ## Examples of the spec -/

/-- The reply of a command of SEQ 1 on the sideband transport, after the step that runs it. -/
def replied (i : Instr) (s : State) : Option Answer :=
  match step { s with pending := [i] } with
  | .next t => ((chanSt t .sideband).cache.find? fun x => x.1 == 1).map (·.2)
  | _ => none

/-- CRC-32C's check value over the ASCII string "123456789" (R39). -/
theorem test_crc32c : crc32c [0x31, 0x32, 0x33, 0x34, 0x35, 0x36, 0x37, 0x38, 0x39] = 0xE3069283 := by decide +kernel

/-- The example after R46: with H = 0xFFFF_FFF0, 63 back is cached, 64 back is evicted, 0x0000_0003 is new, and a value then skipped is known. -/
theorem test_window : let st (h : Word) : ChanSt := { last := some h, cache := [(0xFFFFFFB1, ok 5 6)] }
    window (st 0xFFFFFFF0) 0xFFFFFFB1 = some { status := stDuplicate, detail := 0, r0 := 5, r1 := 6 } ∧
      window (st 0xFFFFFFF0) 0xFFFFFFB0 = some { status := stDuplicate, detail := 0xFE } ∧ window (st 0xFFFFFFF0) 3 = none ∧
      window (st 3) 0xFFFFFFF5 = some { status := stDuplicate, detail := 0xFE } := by
  decide +kernel

/-- The example after R356: a symbol's start on carrier 2's grid, nearest frame X's arrival. -/
theorem test_symbol_start : nearestInstance { mu := 1 } (1700001654637000 * 65536) 37 4 1 3 = (170000165, 1700001654607552 * 65536) := by decide +kernel

/-- The example of the stadium cell: work per symbol, groups per symbol (R379, R381) and the cost of a symbol at 1,500 fJ (R415). -/
theorem test_stadium_cell : let s : State := { up with fh := { up.fh with carriers := [(0, { mu := 1, prbs := 273, enable := true })] } }
    let x : CombSet := { antennas := 384, layers := 32, numPrb := 273 }
    let y : CombSet := { x with dir := 1, layers := 64 }
    combWork x = 40255488 ∧ combWork y = 80510976 ∧ combGroups s x = 4 ∧ combGroups s y = 8 ∧ symbolFj s y = 80510976 * 1500 := by
  decide +kernel

/-- The example after R158: FUNC 7 after five virtual functions of 16 queue pairs and vectors takes the blocks that begin at 208. -/
theorem test_func_create : let vf (i : Nat) : Nat × Func := (2 + i, { created := true, qpBase := 128 + 16 * i, qpCount := 16, vecBase := 128 + 16 * i, vecCount := 16 })
    let s : State := { up with funcs := Store.setMany {} 2 ((List.range 5).map fun i => (vf i).2) up.funcs }
    replied (.funcCreate (pkt infoFuncCreate (toLe 2 7 ++ toLe 2 16 ++ toLe 2 16 ++ zeros 58))) s = some (ok 0x00D000D0 7) := by
  decide +kernel

/-- The example after R238: an insert of prefix length 20 goes to row 3 and moves three rows. -/
theorem test_sieve_insert : let mask (n : Nat) : BitVec 160 := ~~~(BitVec.allOnes 160 >>> n)
    let row (i n : Nat) : Nat × SieveRow := (i, { valid := true, mask := mask n, rule := i })
    let s : State := { up with tables := { up.tables with sieve := [(0, { mode := 1, banks := 1, rows := [row 0 32, row 1 24, row 2 24, row 3 16, row 4 16, row 5 8] })] } }
    (match sieveRecord 0 ([1, 0] ++ toLe 2 9 ++ zeros 24 ++ [0xFF, 0xFF, 0xF0] ++ zeros 17) s with
      | .ok (n, t) => some (n, (sieveAt t 0).rows.map fun x => (x.1, x.2.rule))
      | .error _ => none) = some (3, [(0, 0), (1, 1), (2, 2), (3, 9), (4, 3), (5, 4), (6, 5)]) := by
  decide +kernel

/-- TIME_GET right after reset: time 0 in FREE, UNLOCKED (R336). -/
theorem test_time_get : replied (.timeGet (pkt infoTimeGet [])) State.reset = some (ok 0 (2 ^ 18)) := by decide +kernel

/-- A command on a part without its unit answers NO_UNIT (R4). -/
theorem test_absent : replied (.combStatus (pkt infoCombStatus (zeros 16))) small = some (err stNoUnit 0) := by decide +kernel

/-- The example after R444: STITCH_DRIFT with detail 1 on port 6 is source 1,110, and its detail reads 1. -/
theorem test_event_source : let s := raise (1104 + 6) 1 up
    evtStatus s 1110 = true ∧ evtDetail s 1110 = 1 := by
  decide +kernel

/-- The example after R174: 0xFFFF quanta on a 400 Gb/s port last 83.88 us. -/
theorem test_quanta : bitTime (65535 * 512) 400000 / 65536 = 83884 := by decide +kernel

/-- The example after R467: where MOD_SDA_2, line lane 13, host lane 5 and a core ball lie. -/
theorem test_balls : westSignals.getD 21 "" = "MOD_SDA_2" ∧ ballAt 22 2 = .west 21 ∧ ballName 22 2 = "AD2" ∧
    ballAt rowB 48 = .line 13 true true ∧ ballAt rowB 49 = .line 13 true false ∧ ballAt rowE 48 = .line 13 false true ∧ ballAt rowE 49 = .line 13 false false ∧
    ballAt rowCA 21 = .host 5 true true ∧ ballAt rowCA 22 = .host 5 true false ∧ ballName 20 31 = "AB31" ∧ ballAt 20 31 = .rail railCore := by
  decide +kernel

/-! ## States and operands that meet the hypotheses: the step and command packets -/

theorem wit_IdleStepIsOneNanosecond :
    up.pending = [] ∧ ({ up with mode := .dry } : State).pending = [] ∧ ({ up with wh := { up.wh with clocksStopped := true } } : State).pending = [] := by
  decide +kernel

theorem wit_NothingLeftDue : NothingDue up ∧ ∃ t, step up = .next t :=
  ⟨⟨rfl, fun _ h => (by cases h), fun _ h => (by cases h)⟩, _, rfl⟩

theorem wit_IntxFollowsItsCondition : IntxLaw up ∧ ∃ t, step up = .next t := ⟨by unfold IntxLaw; decide +kernel, _, rfl⟩

theorem wit_WatermarksHaveLooked : WatermarkLaw up ∧ ∃ t, step up = .next t := by
  refine ⟨fun n => ?_, _, rfl⟩
  intro w h
  exact absurd (show 1 ≤ wmKind ({} : Wm) from h) (by decide)

theorem wit_BadCrcIsNotExecuted : let c := { pkt infoTimeGet [] with crc := 0 }
    rowOf (.timeGet c) = some (infoTimeGet, c) ∧ readable up c.chan = true ∧ replyCredits up c.chan 0 ≠ 0 ∧ startsNow infoTimeGet c up = false ∧ cmdGood infoTimeGet.code c = false ∧
      c.chan = .sideband ∧ up.mode ≠ .dry := by
  refine ⟨rfl, ?_⟩; decide +kernel

theorem wit_DuplicateIsNotExecuted : let c := pkt infoTimeGet []
    let s := side { last := some 1, cache := [(1, ok 0 0)], running := [runs 0x0101 0] }
    rowOf (.timeGet c) = some (infoTimeGet, c) ∧ readable s c.chan = true ∧ replyCredits s c.chan 0 ≠ 0 ∧ cmdGood infoTimeGet.code c = true ∧
      window (chanSt s c.chan) c.seq = some { status := stDuplicate } ∧ (∀ q ∈ (chanSt s c.chan).running, q.ref.seq = c.seq → q.stage ≠ 0) := by
  refine ⟨rfl, ?_⟩; decide +kernel

theorem wit_SequenceWindow : ∃ a b : ChanSt, a.last = none ∧ b.last = some 0 ∧ (0x80000000 : Nat) ≤ ((0 : Word) - 0x80000000).toNat ∧
    ((0 : Word) - 0xFFFFFFC1).toNat < 64 ∧ b.cache.find? (fun q => decide (q.1 = (0xFFFFFFC1 : Word))) = some (0xFFFFFFC1, ok 0 0) ∧
    ((0 : Word) - 0).toNat < 64 ∧ b.cache.find? (fun q => decide (q.1 = (0 : Word))) = none ∧
    64 ≤ ((0 : Word) - 0xFFFFFFC0).toNat ∧ ((0 : Word) - 0x80000001).toNat < 0x80000000 :=
  ⟨{}, { last := some 0, cache := [(0xFFFFFFC1, ok 0 0)] }, by decide⟩

theorem wit_StartsInAcceptanceOrder : let c := pkt infoTimeGet []
    let f := sealed infoTimeGet { c with fence := true }
    let s := side { last := some 0, running := [runs infoTimeGet.code 0] }
    let u := side { last := some 0, running := [runs 0x0101 0] }
    let w := side { last := some 0, running := [{ runs 0x0101 0 with stage := 0 }] }
    let full := side { last := some 0, running := List.replicate 16 (runs 0x0101 0) }
    rowOf (.timeGet c) = some (infoTimeGet, c) ∧ rowOf (.timeGet f) = some (infoTimeGet, f) ∧
      (startsNow infoTimeGet c full = false ∧ replyCredits full c.chan 0 = 0) ∧
      (readable s c.chan = true ∧ replyCredits s c.chan 0 ≠ 0 ∧ cmdGood infoTimeGet.code c = true ∧ window (chanSt s c.chan) c.seq = none ∧
        (∀ p ∈ (chanSt s c.chan).running, p.ref.seq ≠ c.seq) ∧ (chanSt s c.chan).running = [runs infoTimeGet.code 0] ∧
        opClass (runs infoTimeGet.code 0).ref.op = opClass infoTimeGet.code ∧ (runs infoTimeGet.code 0).ref.unit = unitCode (targetOf s c)) ∧
      (readable w c.chan = true ∧ replyCredits w c.chan 0 ≠ 0 ∧ window (chanSt w c.chan) c.seq = none ∧
        (∀ p ∈ (chanSt w c.chan).running, p.ref.seq ≠ c.seq) ∧ (chanSt w c.chan).running = [{ runs 0x0101 0 with stage := 0 }]) ∧
      (readable u f.chan = true ∧ replyCredits u c.chan 0 ≠ 0 ∧ cmdGood infoTimeGet.code f = true ∧ window (chanSt u f.chan) f.seq = none ∧
        (∀ p ∈ (chanSt u f.chan).running, p.ref.seq ≠ f.seq) ∧ (chanSt u f.chan).running = [runs 0x0101 0] ∧ f.fence = true) := by
  refine ⟨rfl, rfl, ?_⟩; decide +kernel

theorem wit_ChecksInOrder :
    (let c := pktTo infoTimeGet [99, 0, 0] []; arrivesB infoTimeGet c up = true ∧ targetOf up c = .badPath) ∧
    (let c := pktTo infoIdentify [8] (zeros 8); arrivesB infoIdentify c small = true ∧ targetOf small c = .noUnit) ∧
    (let c := pkt infoCombStatus (zeros 16); arrivesB infoCombStatus c small = true ∧ targetOf small c = .device ∧ classAbsent infoCombStatus small = true) ∧
    (let c := pkt infoTimeGet [0]; arrivesB infoTimeGet c up = true ∧ classAbsent infoTimeGet up = false ∧ infoTimeGet.len c = false) ∧
    (let c := pkt infoTimeConfig (zeros 48);
      arrivesB infoTimeConfig c ({ up with mode := .shutIn } : State) = true ∧ infoTimeConfig.len c = true ∧ c.payloadLen ≤ 4096 ∧
      infoTimeConfig.modes.contains .shutIn = false) ∧
    (let c := pkt infoMonConfig (zeros 32);
      let s : State := { up with transit := some { gate := true } };
      arrivesB infoMonConfig c s = true ∧ infoMonConfig.len c = true ∧ infoMonConfig.modes.contains s.mode = true ∧ infoMonConfig.gated = true ∧
        s.transit.any (·.gate) = true) ∧
    (let c := pktOn (.admin 2) infoTimeConfig (zeros 48);
      arrivesB infoTimeConfig c virt = true ∧ infoTimeConfig.len c = true ∧ targetOf virt c = .device ∧ classAbsent infoTimeConfig virt = false ∧
        onVfRing c.chan = true ∧ infoTimeConfig.vf = false) := by
  decide +kernel

theorem wit_AbsentUnitAnswersNoUnit :
    (let c := pktTo infoIdentify [8] (zeros 8); rowOf (.identify c) = some (infoIdentify, c) ∧ arrivesB infoIdentify c small = true ∧ targetOf small c = .noUnit) ∧
    (let c := pkt infoCombStatus (zeros 16); rowOf (.combStatus c) = some (infoCombStatus, c) ∧ arrivesB infoCombStatus c small = true ∧
      classAbsent infoCombStatus small = true ∧ targetOf small c = .device) :=
  ⟨⟨rfl, by decide +kernel⟩, rfl, by decide +kernel⟩

theorem wit_AnswerTouchesNoUnit : let c := pkt infoTimeGet []
    let a := okOut 0 0 0 (zeros 4097)
    Quiet up ∧ tooMuchBack c.chan (ok 0 0) = false ∧ (∃ t, answered infoTimeGet c up (ok 0 0) up = .next t) ∧
      tooMuchBack (.link 0) a = true ∧ (∃ t, answered infoTimeGet { c with chan := .link 0 } up a up = .next t) ∧ ∃ t, runsOn infoTimeGet c up up = .next t :=
  ⟨⟨rfl, rfl, rfl⟩, rfl, ⟨_, rfl⟩, by decide +kernel, ⟨_, if_pos (by decide +kernel)⟩, _, rfl⟩

theorem wit_ReadingRowsChangeNoUnit : let i := Instr.timeGet (pkt infoTimeGet []); onlyReads i = true ∧ Quiet up ∧ ∃ t, exec i up = .next t :=
  ⟨rfl, ⟨rfl, rfl, rfl⟩, _, rfl⟩

theorem wit_VfRingChangesNoUnit : let c := pktOn (.admin 2) infoTimeConfig (zeros 48)
    rowOf (.timeConfig c) = some (infoTimeConfig, c) ∧ onVfRing c.chan = true ∧ infoTimeConfig.code ≠ 0x0402 ∧ infoTimeConfig.code ≠ 0x0404 ∧ Quiet virt ∧
      ∃ t, exec (.timeConfig c) virt = .next t :=
  ⟨rfl, rfl, by decide, by decide, ⟨rfl, rfl, rfl⟩, _, rfl⟩

theorem wit_NoRightNoEffect :
    (let c := pktOn (.mailbox 1030) infoTimeConfig (zeros 48); rowOf (.timeConfig c) = some (infoTimeConfig, c) ∧ infoTimeConfig.priv = true ∧
      hasPriv boxed c.chan = false ∧ Quiet boxed ∧ ∃ t, exec (.timeConfig c) boxed = .next t) ∧
    (let c := pkt infoTimeConfig (zeros 48); let s : State := { up with mode := .shutIn }
      infoTimeConfig.modes.contains s.mode = false ∧ Quiet s ∧ ∃ t, exec (.timeConfig c) s = .next t) ∧
    (let c := pktOn (.mailbox 0) infoTimeConfig (zeros 48); openRefused infoTimeConfig c.chan = true ∧ Quiet up ∧ ∃ t, exec (.timeConfig c) up = .next t) :=
  ⟨⟨rfl, rfl, by decide +kernel, ⟨rfl, rfl, rfl⟩, _, rfl⟩, ⟨by decide +kernel, ⟨rfl, rfl, rfl⟩, _, rfl⟩, by decide +kernel, ⟨rfl, rfl, rfl⟩, _, rfl⟩

/-- The device with a notice of KIND 1 pending in open box 0. -/
def opened : State := { up with boxes := [(0, { status := 1, kind := 1 })] }

theorem wit_FirmwareNeedsPriv :
    (chanEntry boxed 1030).priv = false ∧
    (∀ n ∈ ([(1030, boxed), (0, opened)] : List (Nat × State)),
      (let c := pktOn (.mailbox n.1) infoFwWrite (zeros 16); arrivesB infoFwWrite c n.2 = true ∧ targetOf n.2 c = .device ∧ c.payloadLen = 16) ∧
      (let c := pktOn (.mailbox n.1) infoFwActivate (zeros 8); arrivesB infoFwActivate c n.2 = true ∧ targetOf n.2 c = .device ∧ c.payloadLen = 8) ∧
      (let c := pktOn (.mailbox n.1) infoOwnerEnrol (zeros 208); arrivesB infoOwnerEnrol c n.2 = true ∧ targetOf n.2 c = .device ∧ c.payloadLen = 208)) := by
  decide +kernel

/-! ## Power, boot, identity and images -/

/-- The device in DRY after a power-on reset. -/
def dry : State := resetDevice 0 {} State.reset

theorem wit_EveryResetClears : up.wh.clocksStopped = false ∧ (3 : Nat) ≠ 0 ∧ ({ up with fuses := { up.fuses with intact := false } } : State).fuses.intact = false := by
  decide +kernel

theorem wit_PowerAndBootRows :
    (dry.boot.powered = true ∧ up.mode ≠ .dry) ∧
    (bootRuns dry = true ∧ dry.boot.stage ≠ 0xF ∧ dry.boot.image = none ∧ dry.boot.clayTrained = false) ∧
    (let s : State := { dry with boot := { dry.boot with image := some {}, clayTrained := true } };
      bootRuns s = true ∧ s.boot.image.isSome = true ∧ s.boot.clayTrained = true) ∧
    (let s : State := { dry with boot := { dry.boot with supplyStopped := true } };
      s.mode = .dry ∧ s.boot.powered = true ∧ s.boot.supplyStopped = true ∧ bootHeld s = false) ∧
    (let s : State := { dry with boot := { dry.boot with stage := 0xF } }; (1 : Nat) < 2 ∧ awaitsRecovery s = true ∧ 0x01FFFFFF + [(0 : Byte)].length ≤ 0x02000000) := by
  decide +kernel

theorem wit_EntropyAndRandom : let c := pkt infoRandom (toLe 8 0x1000 ++ toLe 8 4096)
    let s : State := { up with entropyReady := true }
    (let d := pkt infoRandom (toLe 8 0x1000 ++ toLe 8 4097); readyB infoRandom .device d s = true ∧ 4096 < arg d 8 8) ∧
    (up.mode ≠ .dry ∧ up.entropyReady = false ∧ up.entropyFailed = false ∧ up.cipher.nonce = none ∧ ({ up with cipher := { up.cipher with nonce := some 0 } } : State).cipher.nonce.isSome = true) ∧
    ({ up with entropyFailed := true } : State).entropyFailed = true ∧
    (readyB infoRandom .device c s = true ∧ 1 ≤ arg c 8 8 ∧ arg c 8 8 ≤ 4096 ∧ (taken infoRandom c s).entropyReady = true) ∧
    (readyB infoRandom .device c up = true ∧ (taken infoRandom c up).entropyReady = false) := by
  decide +kernel

theorem wit_ImageCommands :
    (let c := pkt infoImageLoad (zeros 16); readyB infoImageLoad .device c virt = true ∧ (taken infoImageLoad c virt).tables.commit = none ∧
      (taken infoImageLoad c virt).tables.loading = false) ∧
    readyB infoGateCheck .device (pkt infoGateCheck []) State.reset = true ∧
    (let c := pkt infoFwWrite (toLe 8 0x1000 ++ toLe 8 512); let img : HostData := { data := zeros 512 }; let u := taken infoFwWrite c virt;
      readyB infoFwWrite .device c virt = true ∧ 512 ≤ arg c 8 8 ∧ arg c 8 8 ≤ 33554432 ∧ readGood (hostData u c img) 0 512 = true ∧
        readGood (hostData u c img) 512 (fld ((hostData u c img).data.take (arg c 8 8)) 20 4) = true) ∧
    (let c := pkt infoFwActivate (zeros 8); let s : State := { State.reset with fuses := { State.reset.fuses with slotA := some { verified := true } } };
      readyB infoFwActivate .device c s = true ∧
        (if bit (arg c 0 1) 0 then (taken infoFwActivate c s).fuses.slotB else (taken infoFwActivate c s).fuses.slotA) = some { verified := true } ∧
        (taken infoFwActivate c s).fuses.floor ≤ 0) ∧
    (let c := pkt infoOwnerEnrol (zeros 208); let s : State := { State.reset with boot := { State.reset.boot with straps := { ownerEn := true } } };
      readyB infoOwnerEnrol .device c s = true ∧ (taken infoOwnerEnrol c s).fuses.ownerKeys = [] ∧ (taken infoOwnerEnrol c s).boot.straps.ownerEn = true ∧ arg c 0 8 = 0) ∧
    (let c := pkt infoCertRead (toLe 8 0x1000 ++ toLe 4 0 ++ toLe 4 0); let s : State := { up with boot := { up.boot with identIncomplete := true } };
      readyB infoCertRead .device c s = true ∧ arg c 12 4 = 0 ∧ (ownChain (taken infoCertRead c s)).length ≤ arg c 8 4) := by
  decide +kernel

theorem wit_SpdmRequests : up.mode ≠ .dry ∧ ({ transport := 2, data := [] } : SpdmMsg).transport ≤ 2 ∧
    (∀ k ∈ [0x84, 0xE1, 0xE3, 0x81, 0x82, 0x83, 0xE0, 0xE4, 0xE5, 0xE8, 0xE9, 0xEC, 0x85, 0x86], spdmCode [0x12, BitVec.ofNat 8 k, 0, 0] = k) := by
  decide +kernel

/-! ## The common core, modes and wake -/

theorem wit_CoreReadsAnswer :
    (∀ p ∈ [([], Target.device), ([3], .well 3), ([3, 7], .engine 31)], readyB infoIdentify p.2 (pktTo infoIdentify p.1 (toLe 8 0x1000)) up = true ∧
      readyB infoCapability p.2 (pktTo infoCapability p.1 []) up = true ∧ readyB infoModeGet p.2 (pktTo infoModeGet p.1 []) up = true ∧
      readyB infoEcho p.2 (pktTo infoEcho p.1 (zeros 9)) up = true) ∧
    arg (pkt infoIdentify (toLe 8 0x1000)) 0 8 % 64 = 0 ∧
    readyB infoStatusOf .device (pkt infoStatusOf (zeros 4)) up = true ∧
    (let c := pkt infoIdentify (toLe 8 1); readyB infoIdentify .device c up = true ∧ arg c 0 8 % 64 ≠ 0) ∧
    (let s : State := { up with aq := { up.aq with group := some 7, index := 0, members := [(0, { present := true })] } };
      let c := pktTo infoModeGet [0xFFFF] []; let d := pktTo infoIdentify [0xFFFF] (toLe 8 0x1000)
      (arrivesB infoModeGet c s = true ∧ targetOf s c = .aquifer 0 ∧ (checks infoModeGet (.aquifer 0) c (taken infoModeGet c s)).isNone = true ∧
        otherMembers (taken infoModeGet c s) 0 = []) ∧
      (arrivesB infoIdentify d s = true ∧ targetOf s d = .aquifer 0 ∧ arg d 0 8 % 64 = 0 ∧
        (checks infoIdentify (.aquifer 0) d (taken infoIdentify d s)).isNone = true)) := by
  decide +kernel

theorem wit_WellsHaveNoMode :
    readyB infoModeGet (.well 11) (pktTo infoModeGet [11] []) up = true ∧ readyB infoModeGet (.engine 95) (pktTo infoModeGet [11, 7] []) up = true ∧
    readyB infoModeSet (.well 0) (pktTo infoModeSet [0] (zeros 16)) up = true ∧ readyB infoModeSet (.engine 0) (pktTo infoModeSet [0, 0] (zeros 16)) up = true := by
  decide +kernel

theorem wit_ModeSetAtADevice :
    let set (m : Nat) := pkt infoModeSet (toLe 8 m ++ zeros 8)
    (let s : State := { up with armedMode := some {} }; readyB infoModeSet .device (set 3) s = true ∧ s.mode ≠ .shutIn ∧ (taken infoModeSet (set 3) s).armedMode.isSome = true) ∧
    (let u := taken infoModeSet (set 3) up; readyB infoModeSet .device (set 3) up = true ∧ u.transit = none ∧ u.armedMode = none ∧
      modeOf (arg (set 3) 0 1 % 8) = some up.mode) ∧
    (let u := taken infoModeSet (set 1) up; readyB infoModeSet .device (set 1) up = true ∧ modeOf (arg (set 1) 0 1 % 8) = some .priming ∧ Mode.priming ≠ up.mode ∧
      isOk (modeChange u .priming) = true) ∧
    (let s : State := { State.reset with wh := { State.reset.wh with latched := 4#8 } }; let u := taken infoModeSet (set 4) s;
      readyB infoModeSet .device (set 4) s = true ∧ u.transit = none ∧ u.armedMode = none ∧ modeOf (arg (set 4) 0 1 % 8) = some .dormant ∧ isOk (modeChange u .dormant) = false) := by
  decide +kernel

/-- The device on its way from one mode to another. -/
def going (m : Mode) (x : Transit) : State := { up with mode := m, transit := some x }

theorem wit_ModeAndWakeEvents :
    (let s : State := { up with armedMode := some { target := .proving, atNs := 5 } };
      s.armedMode = some { target := .proving, atNs := 5 } ∧ s.aq.change = none ∧ s.transit = none ∧ s.mode ≠ .proving ∧
      isOk (modeChange { advanceNs 5 s with armedMode := none } .proving) = true) ∧
    (let s := going .priming { gate := true, target := .proving }; s.transit = some { gate := true, target := .proving } ∧ gateReason s = some 1) ∧
    (let s : State := { going .priming { gate := true, target := .proving, ref := some {} } with entropyReady := true, cis := { up.cis with layout := List.replicate 8 (0, 0) } };
      s.transit = some { gate := true, target := .proving, ref := some {} } ∧ gateReason s = none) ∧
    (let s := going .flowing { target := .priming }; s.transit = some { target := .priming } ∧ s.mode = .flowing) ∧
    (let s := going .proving { target := .flowing }; s.transit = some { target := .flowing } ∧ s.mode = .proving) ∧
    (let s := going .priming { target := .proving }; s.transit = some { target := .proving } ∧ s.mode = .priming) ∧
    (let s : State := { up with mode := .dormant }; s.mode = .dormant ∧ s.wh.clocksStopped = false ∧ s.wh.waking = false) ∧
    (let s : State := { up with mode := .dormant, wh := { up.wh with waking := true } }; s.mode = .dormant ∧ s.wh.waking = true ∧ s.spdm.held = []) ∧
    (let s : State := { up with mode := .dormant }; frozen s 1 = false ∧ isVf 1 = false ∧ (1 : Word).getLsbD 0 = true) ∧
    (let s : State := { up with mode := .dormant, wh := { up.wh with clocksStopped := true, timer := 1 } };
      s.wh.clocksStopped = true ∧ s.wh.timer ≠ 0 ∧ s.wh.timerFired = false) ∧
    (let s := updPort 15 (fun p => { p with cfg := { p.cfg with wakeArm := true } }) up; (portAt s 15).cfg.wakeArm = true ∧ 15 < laneCount s) := by
  decide +kernel

theorem wit_WakeEventsLatch : let s : State := { up with mode := .dormant, wh := { up.wh with latched := 2#8 } }
    (7 : Nat) < 8 ∧ s.mode = .dormant ∧ s.wh.latched.getLsbD 1 = true ∧ s.wh.waking = false ∧ wakeEnabled s 7 = true ∧
      ({ s with wh := { s.wh with waking := true } } : State).wh.waking = true := by
  decide +kernel

theorem wit_ResetUnitScopes :
    readyB infoResetUnit (.well 11) (pktTo infoResetUnit [11] []) up = true ∧ readyB infoResetUnit (.engine 95) (pktTo infoResetUnit [11, 7] []) up = true ∧
    (let c := pktOn (.mailbox 1030) infoResetUnit []; readyB infoResetUnit .device c boxed = true ∧ hasPriv (taken infoResetUnit c boxed) c.chan = false) ∧
    (let c := { pktTo infoResetUnit [0xFFFF] [] with chan := .mailbox 1030 };
      let s : State := { boxed with aq := { up.aq with group := some 7, index := 0, members := [(0, { present := true })] } };
      readyB infoResetUnit (.aquifer 0) c s = true ∧ hasPriv (taken infoResetUnit c s) c.chan = false) ∧
    (let c := pkt infoResetUnit []; readyB infoResetUnit .device c up = true ∧ hasPriv (taken infoResetUnit c up) c.chan = true) := by
  decide +kernel

theorem wit_ForwardingAndBinding :
    (let i : Cmd := sealed infoCapability { inl := true, seq := 9 }; let b := headerBytes infoCapability.code i ++ toLe 4 i.crc.toNat; let c := pkt forwardInfo b;
      readyB forwardInfo .device c up = true ∧ isOk (innerEntry (refAt forwardInfo c up) .device c.payload (taken forwardInfo c up)) = true) ∧
    (let c := pkt forwardInfo (zeros 64); readyB forwardInfo .device c up = true ∧
      isOk (innerEntry (refAt forwardInfo c up) .device c.payload (taken forwardInfo c up)) = false) ∧
    (∀ x ∈ [(1030, 2056), (4095, 2071)], let c := pkt infoChannelBind (toLe 8 x.1 ++ zeros 8 ++ toLe 8 0 ++ toLe 2 1 ++ toLe 2 x.2 ++ zeros 4);
      let e := readEntry (slice c.payload 16 16);
      readyB infoChannelBind .device c State.reset = true ∧ (taken infoChannelBind c State.reset).served = false ∧ 1030 ≤ arg c 0 8 ∧ arg c 0 8 ≤ 4095 ∧ e.valid = true ∧
        2056 ≤ e.box ∧ e.box ≤ 2071 ∧
        masterOk (taken infoChannelBind c State.reset) e.masterA = true ∧ masterOk (taken infoChannelBind c State.reset) e.masterB = true) ∧
    (let s : State := { up with fwd := [{ num := 3 }] }; s.fwd.find? (fun (y : FwdEntry) => y.num == 3) = some { num := 3 }) ∧
    (let s := side { last := some 1, running := [runs 0x0101 1] }; timeRuns s = true ∧
      (chanSt s .sideband).running.find? (fun q => decide (q.ref.seq = 1)) = some (runs 0x0101 1)) := by
  decide +kernel

theorem wit_LateReplyIsDiscarded : let x : FwdEntry := { num := 3, timedOut := true, origin := { chan := .admin 2 } }
    let s : State := { virt with fwd := [x] }
    s.fwd.find? (fun x => x.num == 3) = some x ∧ x.timedOut = true ∧ chanFn { s with fwd := s.fwd.filter fun y => y.num != 3 } x.origin.chan = some 2 ∧ s.mode ≠ .dry ∧
      (ok 0 0).status ≠ stInternal := by
  decide +kernel

theorem wit_MailboxRows : (up.mode ≠ .dry ∧ up.mode ≠ .dormant ∧ frozen up 0 = false) ∧
    (let s : State := { up with boxes := [(2071, { status := 1, tmo := 1 })] }; s.mode ≠ .dry ∧ (boxAt s 2071).status.getLsbD 0 = true ∧ (boxAt s 2071).tmo ≠ 0) := by
  decide +kernel

theorem wit_MailboxRing :
    (boxView boxed 0 2071 = none ∧ strangerTo boxed 0 2071 = false) ∧ (boxView boxed 1 2056 = none ∧ strangerTo boxed 1 2056 = true) ∧ boxView virt 2 8 = some true ∧ boxView virt 2 9 = some false ∧
    (let s : State := { virt with boxes := [(8, { status := 1 })] }; (boxAt s 8).status.getLsbD 0 = true) ∧
    (boxAt virt 8).status.getLsbD 0 = false ∧ 2 ≤ (2 : Word).toNat % 4 ∧ (1 : Word).toNat % 4 < 2 ∧ (boxAt virt 8).notice.toNat % 65536 = 0 ∧
    (let s : State := { virt with boxes := [(8, { notice := 1 }), (9, { notice := 0xFFFF })] };
      (boxAt s 9).notice.toNat % 65536 ≠ 0 ∧ boxView s 2 9 = some false ∧ (boxAt s 8).notice.toNat % 65536 ≠ 0 ∧ boxView s 2 8 = some true ∧ (0 : Word).toNat % 4 = 0) := by
  decide +kernel

/-! ## Links, resets of functions, and host accesses -/

/-- A port's record changed. -/
def withPort (n : Nat) (f : PortSt → PortSt) : State := updPort n f up

theorem wit_LinkAndFlrRows :
    ((linkList up).contains 0 = true ∧ up.mode ≠ .dry ∧ 16 ∈ [1, 2, 4, 8, 16] ∧ 16 ≤ (if up.boot.straps.hostBif then 8 else 16) ∧ 2 ≤ 7 ∧ 1 ≤ (7 : Nat)) ∧
    (let s := updLink 0 (fun x => { x with frozen := true }) up; (1 : Nat) < 2 ∧ (linkAt s (linkOf s 1)).frozen = true ∧ (linkAt s 0).up = true ∧ (linkAt s 0).lstate = 0 ∧
      s.mode ≠ .shutIn ∧ (let t : State := { s with mode := .shutIn }; t.mode = .shutIn ∧ coolEnough t = true ∧ (linkAt t (linkOf t 1)).frozen = true) ∧
      (let t : State := { s with mode := .shutIn, power := { s.power with sensors := [105 * 16] } }; coolEnough t = false)) ∧
    (answersCfg virt 2 = true ∧ answersCfg up 0 = true ∧ isVf 2 = true ∧ isVf 0 = false ∧ virt.mode ≠ .dry ∧ virt.mode ≠ .dormant ∧
      (cfgOf (updCfg 0 (fun c => { c with ats := true }) up) 0).ats = true ∧ 63 < vecBacked up 0) ∧
    (answersCfg ({ up with mode := .dormant } : State) 0 = true ∧ (cfgOf up 0).flr = false ∧ (cfgOf up 0).ats = false) ∧
    (HostUp 0 up ∧ 0 < vecBacked up 0 ∧ vecBacked up 0 ≤ 2047) ∧
    (let s := updCfg 2 (fun c => { c with flr := true }) virt; (cfgOf s 2).flr = true ∧ (funcOf (flrEnd 2 s) 2).destroying = none ∧
      (let t := updCfg 0 (fun c => { c with flr := true }) up; (cfgOf t 0).flr = true ∧
        ((vfsOf t 0).filter fun v => (cfgOf t v).flr) = [] ∧ (funcOf (flrEnd 0 t) 0).destroying = none)) ∧
    ((1 : Nat) < 2 ∧ (cfgOf virt 0).vfEnable = true ∧ 512 ≤ 512 ∧ (cfgOf up 1).vfEnable = false) := by
  unfold HostUp
  decide +kernel

/-- The device with one read in flight. -/
def reading : State := { up with rings := { up.rings with tags := [{ num := 7, use := .other }] } }

/-- A held request. -/
def held1 : WKind × Out := (.rx, .hostWrite 0 0 [] false false)

/-- A held read. -/
def held2 : WKind × Out := (.read, .hostRead 0 7 0 0)

/-- A held write of a Pump channel. -/
def held3 : WKind × Out := (.dest 3, .hostWrite 0 0 [] false false)

theorem wit_EndpointRows :
    (tagOf reading 7 = some { num := 7, use := .other } ∧ ReadUse.other ≠ .pump 0) ∧
    (let s : State := { up with rings := { up.rings with tags := [{ num := 7, use := .pump 3 }] } }; tagOf s 7 = some { num := 7, use := .pump 3 }) ∧
    (let s : State := { up with rings := { up.rings with lateReads := [(7, 0)] } }; tagOf s 7 = none ∧ s.rings.lateReads.find? (fun x => x.1 == 7) = some (7, 0)) ∧
    (let r : AtsReq := { num := 5 }; let s : State := { up with atsReqs := [r] }; let e : AtsReply := { size := 2 ^ 30 };
      s.atsReqs.find? (fun r => r.num == 5) = some r ∧ r.stale = false ∧ (if r.write then e.wr else e.rd) = true ∧ 4096 ≤ e.size ∧ e.size ≤ 2 ^ 30) ∧
    (let r : AtsReq := { num := 5, stale := true }; let s : State := { up with atsReqs := [r] }; s.atsReqs.find? (fun r => r.num == 5) = some r ∧ r.stale = true) ∧
    (∀ h ∈ [held1, held2, held3], let r : AtsReq := { num := 5, holds := [h] }; let s : State := { reading with atsReqs := [r] };
      s.atsReqs.find? (fun r => r.num == 5) = some r ∧ r.stale = false ∧ r.holds = h :: [] ∧
        tagOf (count (cDev 5) { s with atsReqs := s.atsReqs.filter fun x => x.num != 5 }) 7 = some { num := 7, use := .other }) ∧
    (answersCfg up 0 = true ∧ up.mode ≠ .dry) ∧
    (let r : InvReq := { itag := 31, fn := 0 }; let s : State := { reading with invReqs := [r] };
      s.invReqs.find? (fun (r : InvReq) => r.itag == 31 && r.fn == 0) = some r ∧ frozen s 0 = false ∧ (∀ t ∈ s.rings.tags, r.waits.contains t.num = false)) := by
  decide +kernel

theorem wit_PeerWindowStores : let s : State := { up with peers := [(0, { win := 1, allow := [(0, 0x80000000)] })] }
    HostUp 0 s ∧ Quiet s ∧ ([1, 2] : Bytes) ≠ [] ∧
      peerOpen s 0 0 0 2 = true ∧ Store.get [] 9 s.fault.poison = [] ∧ Store.get 0 1 s.clay = 0 ∧ s.clay = [] := by
  unfold HostUp Quiet
  decide +kernel

theorem wit_RegisterRows :
    decodes up 3 = false ∧ decodes ({ up with mode := .dry } : State) 0 = true ∧
    (let s := updLink 0 (fun x => { x with frozen := true }) up; decodes s 0 = true ∧ s.mode ≠ .dry ∧ frozen s 0 = true ∧ (⟨0, 0, 4, false, none⟩ : RegAccess).bar ≠ 255) ∧
    (let s : State := { up with mode := .dormant }; decodes s 0 = true ∧ frozen s 0 = false ∧ dormantReads 0 0x200 = false) ∧
    (HostUp 0 up ∧ decodes up 0 = true ∧ isVf 0 = false ∧ up.served = false ∧ managed 0 0x120 = true ∧ managed 0 0x19C = true ∧ ({ up with served := true } : State).served = true) ∧
    (HostUp 2 virt ∧ decodes virt 2 = true ∧ isVf 2 = true ∧ 1 < tableSize 2 ∧ 1 < vecBacked virt 2) ∧
    (0xFFC % 4 = 0 ∧ ¬ (2 = 4 ∧ 0 % 4 = 0) ∧ ¬ ((4 : Nat) = 4 ∧ 2 % 4 = 0) ∧ ¬ ((8 : Nat) = 8 ∧ 4 % 8 = 0)) ∧
    ((funcOf up 0).counterPage = false ∧ (funcOf (updFunc 0 (fun f => { f with counterPage := true }) up) 0).counterPage = true ∧
      HostUp 0 (updFunc 0 (fun f => { f with counterPage := true }) up)) ∧
    ((admAt up 0).ctrl.getLsbD 0 = false ∧ (1 : Word).getLsbD 0 = true ∧ (0 : Word).getLsbD 0 = false ∧
      (let s : State := { up with rings := { up.rings with adm := [(0, { ctrl := 1 })] } }; HostUp 0 s ∧ (admAt s 0).ctrl.getLsbD 0 = true) ∧
      admOk 1#32 = false ∧ admOk 0x040401#32 = true) ∧
    (doorbellOk up 0 63 = false) ∧
    (let s : State := { up with rings := { up.rings with qps := [(63, { state := 1, ty := 2 })] } }; doorbellOk s 0 63 = true ∧ (qpAt s (devQp s 0 63)).ty = 2 ∧ s.transit = none) ∧
    (let s : State := { up with rings := { up.rings with qps := [(63, { state := 1 })] } }; doorbellOk s 0 63 = true ∧ (qpAt s (devQp s 0 63)).ty ≠ 2) ∧
    (pumpOwner up 0 0 = true ∧ pumpOwner up 1 254 = true ∧ (2 : Word).getLsbD 1 = true) ∧
    (let s : State := { up with rings := { up.rings with pcqs := [(31, { log2 := 4, unread := [false, false] })] } }; let p := pcqAt s 31;
      pcqFor p 0 = true ∧ (2 : Word).getLsbD 16 = false ∧ (2 + pcqSize p - p.head) % pcqSize p = 2 ∧ 2 < pcqSize p ∧ 2 ≤ p.unread.length ∧
        (16 : Word).getLsbD 16 = false ∧ pcqSize p ≤ (16 : Word).toNat % 65536) := by
  unfold HostUp
  refine ⟨?_, ?_, ?_, ?_, ?_, ?_, ?_, ?_, ?_, ?_, ?_⟩ <;> decide +kernel

/-! ## Tenancy and ports -/

theorem wit_TenancyCommands :
    (let c := pkt infoFuncCreate (toLe 2 2 ++ toLe 2 256 ++ toLe 2 256 ++ zeros 58); let s : State := { up with cis := { up.cis with layout := List.replicate 8 (1, 1) } };
      let u := taken infoFuncCreate c s; let r := readAlloc c.payload;
      readyB infoFuncCreate .device c s = true ∧ funcRefused (refAt infoFuncCreate c s) (arg c 0 2) u = none ∧ allocInRange (arg c 0 2) r = true ∧
        isVf (arg c 0 2) = true ∧ (funcOf u (arg c 0 2)).created = false ∧ r.cipherCtx = 0 ∧ allocMisfit u (arg c 0 2) r = none) ∧
    (let c := pkt infoFuncDestroy (toLe 8 2); let u := taken infoFuncDestroy c virt;
      readyB infoFuncDestroy .device c virt = true ∧ 2 ≤ arg c 0 8 ∧ funcRefused (refAt infoFuncDestroy c virt) (arg c 0 8) u = none ∧ (funcOf u (arg c 0 8)).created = true ∧
        (cfgOf u (arg c 0 8)).flr = false) ∧
    (let c := pkt infoFuncDestroy (toLe 8 2); let s := updCfg 2 (fun c => { c with flr := true }) virt; let u := taken infoFuncDestroy c s;
      readyB infoFuncDestroy .device c s = true ∧ funcRefused (refAt infoFuncDestroy c s) (arg c 0 8) u = none ∧ (funcOf u (arg c 0 8)).created = true ∧
        (cfgOf u (arg c 0 8)).flr = true) ∧
    (let c := pkt infoFuncQuery (toLe 8 1025 ++ toLe 8 0x1000);
      readyB infoFuncQuery .device c up = true ∧ funcRefused (refAt infoFuncQuery c up) (arg c 0 8) (taken infoFuncQuery c up) = none) ∧
    (let c := pkt infoSpoofSet (toLe 2 2 ++ toLe 1 4 ++ toLe 1 1 ++ toLe 2 2 ++ zeros 10); let s := updFunc 2 (fun f => { f with eaxcEntries := 2 }) virt;
      let u := taken infoSpoofSet c s;
      readyB infoSpoofSet .device c s = true ∧ funcRefused (refAt infoSpoofSet c s) (arg c 0 2) u = none ∧ arg c 2 1 = 4 ∧ arg c 4 2 ≤ (funcOf u (arg c 0 2)).eaxcEntries ∧
        arg c 4 2 ≤ spoofMost 4 ∧ c.payloadLen = 8 + arg c 4 2 * spoofSize 4 ∧ (records (spoofSize 4) 3 (slice c.payload 8 8)).any (badPrefix 4) = false) := by
  decide +kernel

theorem wit_LineAndPauseRows :
    (let s := withPort 0 (fun p => { p with held := [(7, { on := true })] }); (heldAt s 0 7).on = true ∧ (heldAt s 0 7).tripped = false) ∧
    (let s := withPort 0 (fun p => { p with held := [(7, { tripped := true })] }); (heldAt s 0 7).tripped = true) ∧
    (let s := withPort 0 (fun p => { p with held := [(7, { on := true, since := 1, upTo := 50 * 1000000 * 65536 + 1 })] }); let h := heldAt s 0 7;
      h.tripped = false ∧ h.on = true ∧ h.since + (portAt s 0).cfg.pauseWd * 1000000 * 65536 ≤ h.upTo) ∧
    (∀ k ∈ [0, 1], let s := withPort 0 (fun p => { p with cfg := { p.cfg with mode := 1, fcTx := true }, up := true, held := [(0, { xoff := true, xonKib := k })] });
      (heldAt s 0 0).xoff = true ∧ pauseGen s 0 0 = true ∧ (k = 0 → (heldAt s 0 0).xonKib * 1024 ≤ ingressBytes s 0 0) ∧
        (k = 1 → ingressBytes s 0 0 < (heldAt s 0 0).xonKib * 1024)) ∧
    (let c := pkt infoPortBufSet (toLe 1 15 ++ toLe 1 7 ++ toLe 2 1 ++ toLe 2 0 ++ zeros 2);
      readyB infoPortBufSet .device c up = true ∧ arg c 0 1 ≤ 15 ∧ arg c 1 1 ≤ 7 ∧ arg c 4 4 < arg c 2 2 ∧ arg c 0 1 < laneCount (taken infoPortBufSet c up)) := by
  decide +kernel

/-- Port 0 up in line mode. -/
def lineOn (f : PortSt → PortSt) : State := withPort 0 (fun p => f { p with cfg := { p.cfg with mode := 1 }, up := true })

theorem wit_EgressRows :
    (portFree (lineOn id) 0 = true ∧ (0 : Nat) < 16) ∧
    (let s := lineOn (fun p => { p with cfg := { p.cfg with lpi := true } });
      (portAt s 0).cfg.lpi = true ∧ lineUp s 0 = true ∧ (portAt s 0).lpiOn = false ∧ (portAt s 0).lb ≠ 3 ∧ portIdle s 0 = true) ∧
    (let p : Packet := { num := 1, bytes := zeros 60, launch := some 1000, live := true };
      let timed (late drop : Bool) (now mode : Nat) : State := {
        withPort 0 (fun p => { p with cfg := { p.cfg with mode := mode }, up := true, lpiOn := late }) with
        cis := { up.cis with queues := [(0, [p])] }, time := { up.time with t := now },
        tables := { up.tables with active := { up.tables.active with netQs := [(0, { parent := 0, timed := true, lateDrop := drop, lateTol := 5 })] } } };
      (let s := timed true true 0 1; (portAt s 0).lpiOn = true ∧ ((freeHeads s 0).map (·.1)).min? = some 1000) ∧
      (∀ m ∈ [1, 2], let s := timed false true 0 m; portOfQueue s.tables.active 0 = some 0 ∧ Store.get [] 0 s.cis.queues = p :: [] ∧
        (freeHeads s 0).contains (launchAt p, 0) = true ∧ (∀ x ∈ freeHeads s 0, launchAt p < x.1 ∨ (launchAt p = x.1 ∧ 0 ≤ x.2)) ∧ portFree s 0 = true ∧
        (portAt s 0).cfg.mode = m ∧ stitchTakes s 0 p = true ∧ (advanceTo (max (launchAt p * 65536) (txReady s 0)) s).time.t ≤ (launchAt p + 5) * 65536) ∧
      (∀ d ∈ [true, false], let s := timed false d (2000 * 65536) 1; (freeHeads s 0).contains (launchAt p, 0) = true ∧
        (netRec s.tables.active 0).lateDrop = d ∧ portFree s 0 = true ∧
        (launchAt p + 5) * 65536 < (advanceTo (max (launchAt p * 65536) (txReady s 0)) s).time.t)) ∧
    (∀ k ∈ [0, 2], let s : State := { lineOn (fun p => { p with lb := k }) with gens := [(0, { run := true, hdr := zeros 14 })] }; let g := genAt s 0;
      g.run = true ∧ lineUp s g.port = true ∧ (portAt s g.port).onWire = none ∧ (portAt s g.port).lb = k ∧ (portAt s g.port).lb ≠ 1 ∧
        beforeTimed (advanceTo (max g.nextAt (txReady s g.port)) s) g.port (testLen g g.sent + 20) = true) := by
  decide +kernel

theorem wit_PortLinkAndModuleRows :
    (2 ≤ (portAt (withPort 0 (fun p => { p with width := 2 })) 0).width ∧ up.mode ≠ .dry) ∧
    (modeTalks up = true ∧ 4 * 3 < laneCount up ∧ (busAt up 3).xfer = none) ∧
    (let v := updBus 3 (fun b => { b with pages := [], dataPath := Store.setMany 0 0 [1, 1, 1, 1] [] }) up;
      (List.range 4).any (fun i => Store.get 0 (pageKey 0x50 0 0 (8 + i)) (busAt v 3).pages != 0) = false ∧
      ∀ j, j < 4 → Store.get 0 j (busAt v 3).dataPath = if laneUsed v (4 * 3 + j) then 4 else 1) ∧
    (let s := updBus 3 (fun b => { b with xfer := some {} }) up; (busAt s 3).xfer = some {} ∧ (busAt s 3).backOff = false ∧ (busAt s 3).lost < 3) ∧
    (let s := updBus 3 (fun b => { b with xfer := some { write := true, data := [1] }, backOff := true, lost := 2 }) up;
      (busAt s 3).xfer = some { write := true, data := [1] } ∧ (busAt s 3).backOff = true ∧
      (xferOutcome 3 { write := true, data := [1] } {} (startXfer 3 { write := true, data := [1] } s)).2 = some (ok 1 0)) := by
  decide +kernel

theorem wit_PortCommands :
    (let c := pkt infoPortConfig (toLe 1 12 ++ toLe 1 2 ++ toLe 1 4 ++ toLe 1 3 ++ toLe 2 9728 ++ zeros 6 ++ toLe 1 1 ++ toLe 1 4 ++ zeros 18); let u := taken infoPortConfig c up;
      let r := readPortCfg c.payload; let s := withPort 12 (fun p => { p with cfg := { r with widthFloor := 2 }, up := true });
      readyB infoPortConfig .device c up = true ∧ portCfgBad 12 r = false ∧ arg c 0 1 = 12 ∧ 12 < laneCount u ∧ hasStitch u = true ∧ portClash u 12 r = false ∧
        onlyWidths u 12 r = false ∧ readyB infoPortConfig .device c s = true ∧ portClash (taken infoPortConfig c s) 12 r = false ∧
        onlyWidths (taken infoPortConfig c s) 12 r = true) ∧
    (let c := pkt infoPortStatus (toLe 8 15); readyB infoPortStatus .device c up = true ∧ arg c 0 8 ≤ 15 ∧ arg c 0 8 < laneCount (taken infoPortStatus c up)) ∧
    (let c := pkt infoModRead (toLe 1 3 ++ toLe 1 127 ++ toLe 1 3 ++ toLe 1 0x11 ++ toLe 1 128 ++ toLe 1 128 ++ zeros 2 ++ toLe 8 0x1000); let u := taken infoModRead c up;
      readyB infoModRead .device c up = true ∧ arg c 0 1 ≤ 3 ∧ arg c 1 1 ≤ 127 ∧ pageOk (arg c 2 1) (arg c 3 1) = true ∧ 1 ≤ arg c 5 1 ∧ arg c 5 1 ≤ 128 ∧
        arg c 4 1 + arg c 5 1 ≤ 256 ∧ 4 * arg c 0 1 < laneCount u ∧ (busAt u (arg c 0 1)).xfer = none ∧ (zeros 128).length = arg c 5 1) ∧
    (let c := pkt infoModWrite (toLe 1 3 ++ toLe 1 127 ++ toLe 1 0 ++ toLe 1 0 ++ toLe 1 248 ++ toLe 1 8 ++ zeros 10); let u := taken infoModWrite c up;
      readyB infoModWrite .device c up = true ∧ arg c 0 1 ≤ 3 ∧ arg c 1 1 ≤ 127 ∧ pageOk (arg c 2 1) (arg c 3 1) = true ∧ 1 ≤ arg c 5 1 ∧ arg c 5 1 ≤ 8 ∧
        arg c 4 1 + arg c 5 1 ≤ 256 ∧ 4 * arg c 0 1 < laneCount u ∧ (busAt u (arg c 0 1)).xfer = none) ∧
    (∀ k ∈ [0, 3], let c := pkt infoPortLoopback (toLe 1 0 ++ toLe 1 k ++ zeros 6); let s : State := { lineOn id with mode := .proving }; let u := taken infoPortLoopback c s;
      readyB infoPortLoopback .device c s = true ∧ arg c 0 1 ≤ 15 ∧ arg c 1 1 = k ∧ arg c 0 1 < laneCount u ∧ u.mode = .proving ∧ (portAt u (arg c 0 1)).cfg.mode = 1 ∧
        (portAt u 0).lb = 0) ∧
    (let c := pkt infoTestgenSet (toLe 1 3 ++ toLe 1 15 ++ toLe 1 3 ++ toLe 1 0 ++ toLe 2 64 ++ toLe 2 64 ++ zeros 5 ++ toLe 1 14 ++ zeros 114);
      let s : State := { up with mode := .proving }; let u := taken infoTestgenSet c s;
      readyB infoTestgenSet .device c s = true ∧ testgenBad u c.payload = false ∧ 4 * arg c 0 1 < laneCount u ∧ u.mode = .proving) ∧
    (let c := pkt infoTestgenStatus (toLe 8 3 ++ toLe 8 0x1000);
      readyB infoTestgenStatus .device c up = true ∧ arg c 0 8 ≤ 3 ∧ 4 * arg c 0 8 < laneCount (taken infoTestgenStatus c up)) := by
  decide +kernel

/-! ## Tables and packet processing -/

/-- A table write of one record at FIRST: it is ready and its records are accepted; with a TARGET out of range they are refused; under a COMMIT
the banks are locked. -/
def writes (op : OpInfo) (w : Writer) (size : Cmd → Nat) (target first : Nat) (rec : Bytes) : Bool :=
  let c (t : Nat) : Cmd := pkt op (toLe 2 t ++ zeros 2 ++ toLe 4 first ++ toLe 8 1 ++ rec)
  let run (t : Nat) (s : State) : Bool := isOk (w (arg (c t) 0 2) (arg (c t) 4 4) (writeRecs (size (c t)) (c t)) (taken op (c t) s))
  let s : State := { up with tables := { up.tables with commit := some {} } }
  readyB op .device (c target) up && !tablesLocked (taken op (c target) up) && run target up && readyB op .device (c 0xFFFF) up && !run 0xFFFF up &&
  readyB op .device (c target) s && tablesLocked (taken op (c target) s)

theorem wit_TableRows :
    (writes infoGraphWrite writeGraph graphRecSize 3 0xFFFFFFFF (zeros 16) && writes infoBindSet writeBinds (fun _ => 4) 0 0 (zeros 4) &&
      writes infoTreeWrite writeTrees (fun _ => 16) 0 1048575 ([1] ++ zeros 15) && writes infoTreesetWrite writeTreeSet (fun _ => 48) 15 0 (zeros 48) &&
      writes infoRuleWrite writeRules (fun _ => 8) 15 65535 (zeros 8) && writes infoClassWrite writeClasses (fun _ => 8) 0 4095 (zeros 8) &&
      writes infoSpreadSet writeSpreads (fun _ => 64) 0 0 (zeros 64) && writes infoIndirWrite writeIndir (fun _ => 2) 1025 511 (zeros 2) &&
      writes infoPolicerWrite writePolicers (fun _ => 32) 0 16383 (zeros 8 ++ toLe 4 64 ++ toLe 4 64 ++ toLe 4 64 ++ toLe 4 64 ++ zeros 8) &&
      writes infoSchedWrite writeSched (fun _ => 48) 2 16383 (zeros 4 ++ toLe 4 64 ++ toLe 4 64 ++ zeros 36) &&
      writes infoCurveWrite writeCurves (fun _ => 8) 0 255 (zeros 8)) = true ∧
    (let c := pkt infoAlistWrite (zeros 4 ++ toLe 4 65535 ++ toLe 8 1 ++ zeros 8); let u := taken infoAlistWrite c up;
      readyB infoAlistWrite .device c up = true ∧ tablesLocked u = false ∧ isOk (writeAlist (arg c 0 2) (arg c 4 4) (writeRecs 8 c) u) = true ∧
        (alistWords (writeRecs 8 c)).findSome? (fun x => wordAbsent u x.2) = none) ∧
    (let s : State := { up with fuses := { up.fuses with variant := .lys9632C } };
      let c := pkt infoAlistWrite (zeros 8 ++ toLe 8 1 ++ toLe 8 (0x04 * 2 ^ 56)); let u := taken infoAlistWrite c s;
      readyB infoAlistWrite .device c s = true ∧ tablesLocked u = false ∧ isOk (writeAlist (arg c 0 2) (arg c 4 4) (writeRecs 8 c) u) = true ∧
        (alistWords (writeRecs 8 c)).findSome? (fun x => wordAbsent u x.2) = some 1) ∧
    (let c := pkt infoFlowcntRead (toLe 4 61440 ++ toLe 2 4096 ++ zeros 2 ++ toLe 8 0x1000); readyB infoFlowcntRead .device c up = true ∧ 1 ≤ arg c 4 2 ∧ arg c 4 2 ≤ 4096 ∧
      arg c 0 4 + arg c 4 2 ≤ 65536) ∧
    readyB infoProgramList .device (pkt infoProgramList (toLe 8 0x1000 ++ toLe 8 4096)) up = true ∧ arg (pkt infoProgramList (toLe 8 0x1000 ++ toLe 8 4096)) 8 8 = 16 * 256 ∧
    (let c := pkt infoPolicerRead (toLe 4 12288 ++ toLe 4 4096 ++ toLe 8 0x1000); readyB infoPolicerRead .device c up = true ∧ 1 ≤ arg c 4 4 ∧ arg c 4 4 ≤ 4096 ∧
      arg c 0 4 + arg c 4 4 ≤ 16384) ∧
    (∀ x ∈ [(0, 255), (1, 4095), (2, 16383)], let c := pkt infoQueueStatus (toLe 4 x.1 ++ toLe 4 x.2 ++ toLe 8 0x1000); readyB infoQueueStatus .device c up = true ∧
      arg c 0 4 ≤ 2 ∧ arg c 4 4 < (if arg c 0 4 = 0 then 256 else if arg c 0 4 = 1 then 4096 else 16384)) := by
  decide +kernel

/-- At most 256 programs are listed: 4,096 bytes of output hold them. -/
theorem wit_TableRows_programs :
    16 * ((List.range 256).filterMap fun p => (Config.program p).map fun x => toLe 1 p ++ toLe 1 0 ++ toLe 2 (programBudget x.2.1) ++ toLe 4 x.2.2 ++ programName x.1).length ≤
      arg (pkt infoProgramList (toLe 8 0x1000 ++ toLe 8 4096)) 8 8 := by
  have h : arg (pkt infoProgramList (toLe 8 0x1000 ++ toLe 8 4096)) 8 8 = 16 * 256 := by decide +kernel
  rw [h]
  exact Nat.mul_le_mul_left 16 ((List.length_filterMap_le _ _).trans (by simp))

/-- The device with a packet at an engine of well 0. -/
def engined (p : Packet) : State := { up with cis := { up.cis with engine := [p], layout := List.replicate 8 (16, 0) } }

theorem wit_EngineRows :
    (let p : Packet := { num := 1, bytes := [1], live := true }; let s := engined p;
      (enginePkt s 1).any (fun p => earlierOut s p) = false ∧ (takeEngine 1 s).isSome = true ∧ ((takeEngine 1 s).map fun x => (x.1, x.2.1)) = some (p, 0) ∧
        ((takeEngine 1 s).any fun x => pktPoisoned x.2.2 p) = false ∧
        (∀ r ∈ [({ data := [2] } : EngineResult), { data := [2], drop := true }, { data := [1] }], engineOk p r = true ∧ engineDeclared (engineUse s 1).1 r = true ∧
          r.copies = [] ∧ r.ems = [] ∧ r.flows = []) ∧
        ((takeEngine 1 s).any fun x => isOk (ensureBuffer p 1 x.2.2)) = true ∧ engineOk p { data := [] } = false ∧
        engineDeclared (engineUse s 1).1 { data := [] } = true) ∧
    (let p : Packet := { num := 1, bytes := zeros 64, live := true }; let s : State := { up with cis := { up.cis with learning := [p] } };
      s.cis.learning.find? (fun p => p.num == 1) = some p ∧ emDefined s 0 = false ∧ (learnKey 0 [] 0 s).1 = false) ∧
    (let p : Packet := { num := 1, bytes := zeros 64, live := true };
      let s : State := { up with cis := { up.cis with learning := [p] }, tables := { up.tables with em := [(0, { keyLen := 4 })] } };
      let v : State := { s with cis := { s.cis with learning := [] } };
      s.cis.learning.find? (fun p => p.num == 1) = some p ∧ emDefined v 0 = true ∧ emPoisoned v 0 (zeros 4) = false ∧ listWord v p p.next = 0 ∧
        (learnKey 0 (zeros 4) 0 v).1 = true) ∧
    (let m : CipherMsg := { pkt := { num := 1 }, blocks := 4 }; let r : CipherMsg := { pkt := { num := 2 }, blocks := 4, state := 1, order := 1 };
      let s (l : List CipherMsg) : State := { up with cipher := { up.cipher with msgs := l } };
      (cipherAwake (s [m]) false 0 = true ∧ candidate (unitMsgs (s [m]) false 0) = some m ∧ (unitMsgs (s [m]) false 0).find? (fun m => m.state == 1) = none) ∧
      (∀ k ∈ [0, 1], let m := { m with urgency := k, ctx := 1 }; let t := s [r, m];
        candidate (unitMsgs t false 0) = some m ∧ (unitMsgs t false 0).find? (fun m => m.state == 1) = some r ∧
          (decide (t.time.t < feedEnd t r) && decide (r.urgency < m.urgency) &&
            !(m.state == 0 && decide (8 ≤ ((unitMsgs t false 0).filter fun m => m.state == 2).length))) = decide (k = 1)) ∧
      (s [r]).cipher.msgs.find? (fun m => m.pkt.num == 2 && (m.state == 1 || m.state == 3)) = some r) := by
  decide +kernel

/-- Where the firmware lists a program that does not declare a table, a result that changes it is one that is not declared. -/
theorem wit_EngineRows_declared (prog t : Nat) (h : Config.programTable prog t = false) :
    engineDeclared prog { data := [1], ems := [{ table := t }] } = false := by
  simp [engineDeclared, h]

/-- The device with exact-match table 63 and Sieve table 63 defined, in PRIMING. -/
def tabled : State := { State.reset with
  tables := { up.tables with em := [(63, { keyLen := 4, log2 := 4, entries := [(0, { key := [1, 2, 3, 4], rule := 9 })] })],
                             sieve := [(63, { banks := 1, rows := [(5, { valid := true, rule := 3 }), (1023, { valid := true, rule := 4 })] })],
                             aged := [{}] },
  funcs := Store.upd {} 0 (fun f => { f with emEntries := 64, sieveEntries := 1024 }) State.reset.funcs }

theorem wit_MatchTableCommands :
    (∀ n ∈ [63, 64], let c := pkt infoEmDefine (toLe 1 n ++ toLe 1 64 ++ toLe 2 0 ++ toLe 4 4 ++ toLe 4 0 ++ toLe 4 1 ++ zeros 16);
      readyB infoEmDefine .device c tabled = true ∧ isOk (emDefine c.payload (taken infoEmDefine c tabled)) = decide (n = 63)) ∧
    (let c := pkt infoEmUpdate (toLe 4 63 ++ toLe 4 1 ++ zeros 8 ++ [2] ++ zeros 79); let u := taken infoEmUpdate c tabled; let l := records 80 (arg c 4 4) (c.payload.drop 16);
      readyB infoEmUpdate .device c tabled = true ∧ emDefined u (arg c 0 4) = true ∧ (∀ b ∈ l, fld b 0 1 = 1 ∨ fld b 0 1 = 2) ∧
        (applyRecords (emRecord (arg c 0 4)) 0 l u).1 = 1 ∧ (applyRecords (emRecord (arg c 0 4)) 0 l u).2.1 = none) ∧
    (let c := pkt infoEmLookup (toLe 8 63 ++ zeros 64); let u := taken infoEmLookup c tabled;
      readyB infoEmLookup .device c tabled = true ∧ emDefined u (arg c 0 8) = true ∧ emPoisoned u (arg c 0 8) (zeros 4) = false ∧ emFind (emAt u 63) (zeros 4) = none) ∧
    (let s := updEm 63 (fun t => { t with entries := [(4 * bucketA t [1, 2, 3, 4], { key := [1, 2, 3, 4], rule := 9 })] }) tabled;
      let c := pkt infoEmLookup (toLe 8 63 ++ [1, 2, 3, 4] ++ zeros 60); let u := taken infoEmLookup c s;
      readyB infoEmLookup .device c s = true ∧ emPoisoned u 63 [1, 2, 3, 4] = false ∧ (emFind (emAt u 63) [1, 2, 3, 4]).isSome = true) ∧
    (let c := pkt infoEmAgedRead (toLe 8 0x1000 ++ toLe 8 1024); readyB infoEmAgedRead .device c tabled = true ∧ 1 ≤ arg c 8 8 ∧ arg c 8 8 ≤ 1024) ∧
    (∀ n ∈ [63, 64], let c := pkt infoSieveDefine (toLe 1 n ++ zeros 3 ++ toLe 1 63 ++ toLe 1 1 ++ zeros 26);
      readyB infoSieveDefine .device c tabled = true ∧ isOk (sieveDefine c.payload (taken infoSieveDefine c tabled)) = decide (n = 63)) ∧
    (let c := pkt infoSieveUpdate (toLe 4 63 ++ toLe 4 1 ++ zeros 8 ++ [2] ++ zeros 47); let u := taken infoSieveUpdate c tabled;
      let l := records 48 (arg c 4 4) (c.payload.drop 16); readyB infoSieveUpdate .device c tabled = true ∧ sieveDefined u (arg c 0 4) = true ∧
        (∀ b ∈ l, sieveBad (sieveAt u (arg c 0 4)) b = false) ∧ (applySieve (arg c 0 4) 0 0 l u).1 = 1) ∧
    (let c := pkt infoSieveSearch (toLe 8 63 ++ zeros 24); let u := taken infoSieveSearch c tabled; let t := sieveAt u 63;
      readyB infoSieveSearch .device c tabled = true ∧ sieveDefined u (arg c 0 8) = true ∧ sievePoisoned u t 0 = false ∧ (sieveHits t 0).length = 2 ∧
        sieveHits { t with rows := [] } 0 = []) ∧
    (∀ n ∈ [5, 1023], let c := pkt infoSieveStep (toLe 4 63 ++ toLe 4 n ++ zeros 24); let u := taken infoSieveStep c tabled; let t := sieveAt u 63;
      readyB infoSieveStep .device c tabled = true ∧ sieveDefined u (arg c 0 4) = true ∧ arg c 4 4 < sieveCapacity t ∧ sievePoisoned u t 0 = false ∧
        ((sieveHits t 0).filter fun r => decide (n < r.1)).isEmpty = decide (n = 1023)) := by
  decide +kernel

theorem wit_SweeperAgesEntries :
    let s (e : EmEntry) : State := updEm 63 (fun t => { t with ageMs := 1, entries := [(0, e)] }) tabled
    (∀ e : EmEntry, emDefined (s e) 63 = true ∧ (emAt (s e) 63).ageMs ≠ 0) ∧ poisonedIn (s {}) 9 (emAddr 63 0) 128 = false ∧
    ((Store.get {} 1 (emAt (s {}) 63).entries : EmEntry).key = []) ∧
    (∀ x ∈ [((true, 0), true), ((false, 0), true), ((false, 1), true), ((false, 0), false)],
      let e : EmEntry := { key := [1, 2, 3, 4], hit := x.1.1, idle := x.1.2, static := !x.2 }; Store.get {} 0 (emAt (s e) 63).entries = e ∧ e.key ≠ []) ∧
    (let v : State := { s { key := [1], idle := 1 } with tables := { (s { key := [1], idle := 1 }).tables with aged := List.replicate 1024 {} } };
      1024 ≤ v.tables.aged.length ∧ (s {}).tables.aged.length < 1024) := by
  refine ⟨fun e => ⟨?_, ?_⟩, ?_⟩
  · unfold emDefined; simp [emAt, updEm, Store.upd, Store.get, Store.set, Store.put, tabled]
  · simp [emAt, updEm, Store.upd, Store.get, Store.set, Store.put, tabled]
  · decide +kernel

/-- A COMMIT to an epoch, at an instant. -/
def commitTo (n at_ : Nat) : Cmd := pkt infoCommit (toLe 2 n ++ zeros 2 ++ toLe 4 1000000 ++ toLe 8 at_ ++ zeros 8)

/-- The device as the gateway of an aquifer. -/
def gatewayed : State := { up with aq := { up.aq with group := some 7, index := 0, members := [(0, { present := true })] } }

theorem wit_CommitRows :
    (readyB infoCommit .device (commitTo 0 0) up = true ∧ arg (commitTo 0 0) 0 2 = (taken infoCommit (commitTo 0 0) up).tables.epoch) ∧
    (let c := commitTo 0xFFFF 0; let u := taken infoCommit c up; readyB infoCommit .device c up = true ∧ arg c 0 2 ≠ u.tables.epoch ∧ arg c 4 4 ≤ 1000000 ∧
      u.tables.commit = none ∧ u.tables.loading = false ∧ refReason u.tables.inactive u = none ∧
      refReason u.tables.inactive { u with tables := { u.tables with treeNodes := [(0, { ty := 2, width := 63 })] } } = some (0x21 + 65536 * 0x11)) ∧
    (let s : State := { up with tables := { up.tables with commit := some {} } }; readyB infoCommit .device (commitTo 1 0) s = true ∧
      (taken infoCommit (commitTo 1 0) s).tables.commit.isSome = true) ∧
    (let c := { commitTo 1 0 with hops := [0xFFFF], pathLen := 1 }; let c := sealed infoCommit c; readyB infoCommit (.aquifer 0) c gatewayed = true ∧ arg c 8 8 = 0) ∧
    (let c := { commitTo 1 1000000 with hops := [0xFFFF], pathLen := 1 }; let c := sealed infoCommit c; let u := taken infoCommit c gatewayed;
      readyB infoCommit (.aquifer 0) c gatewayed = true ∧ arg c 8 8 ≠ 0 ∧ arg c 4 4 ≤ 1000000 ∧
      (groupChange (refAt infoCommit c gatewayed) c 0 false 1 1000000 (arg c 8 8) 1 (fun x => if 1 = x.tables.epoch then .ok x else armCommit (refAt infoCommit c gatewayed) 1 1000000 (arg c 8 8) true x) u).2 = none) ∧
    (readyB infoEpochGet .device (pkt infoEpochGet []) up = true ∧ (taken infoEpochGet (pkt infoEpochGet []) up).tables.commit = none) ∧
    (∀ x ∈ [({} : CommitSt), { switched := true, copying := true }], let s : State := { up with tables := { up.tables with commit := some x } };
      readyB infoEpochGet .device (pkt infoEpochGet []) s = true ∧ (taken infoEpochGet (pkt infoEpochGet []) s).tables.commit = some x ∧
        (x.switched = false ∨ x.copying = true)) ∧
    (let x : CommitSt := { switched := true }; let s : State := { up with tables := { up.tables with commit := some x } };
      readyB infoEpochGet .device (pkt infoEpochGet []) s = true ∧ (taken infoEpochGet (pkt infoEpochGet []) s).tables.commit = some x ∧ holdersOf s x.oldEpoch = [] ∧
        s.mode ≠ .shutIn ∧ holdersOf ({ s with cis := { s.cis with engine := [{ num := 1, live := true }] } } : State) x.oldEpoch ≠ []) ∧
    ((({} : CommitSt).switched = false) ∧ ({ group := true } : CommitSt).group = true ∧ ({ copying := true } : CommitSt).copying = true) := by
  decide +kernel

/-! ## The Cistern and the cipher units -/

theorem wit_CisternRows :
    (up.mode ≠ .dry ∧ up.mode ≠ .dormant) ∧
    readyB infoPoolLayout .device (pkt infoPoolLayout (zeros 128)) State.reset = true ∧
    (∀ o ∈ [1026, 1058], let c := pkt infoQuotaSet (toLe 4 o ++ toLe 4 1); readyB infoQuotaSet .device c State.reset = true ∧ 1026 ≤ arg c 0 4 ∧ arg c 0 4 ≤ 1058) ∧
    (let c := pkt infoOwnerQuery (toLe 8 1058); readyB infoOwnerQuery .device c up = true ∧ arg c 0 8 ≤ 1058) ∧
    (let c := pkt infoForfeit (toLe 8 1058); readyB infoForfeit .device c up = true ∧ arg c 0 8 ≤ 1058) ∧
    (let c := pkt infoSiltRead (toLe 2 3840 ++ toLe 2 256 ++ zeros 4 ++ toLe 8 0x1000); readyB infoSiltRead .device c up = true ∧ 1 ≤ arg c 2 2 ∧ arg c 2 2 ≤ 256 ∧
      arg c 0 2 + arg c 2 2 ≤ 4096) ∧
    (let c := pkt infoSiltReclaim (toLe 4 1 ++ toLe 4 3600000); readyB infoSiltReclaim .device c up = true ∧ 1 ≤ arg c 4 4 ∧ arg c 4 4 ≤ 3600000) ∧
    readyB infoPoolStatus .device (pkt infoPoolStatus (toLe 8 0x1000)) up = true ∧
    (let c := pkt infoWmSet (toLe 4 63 ++ toLe 4 0x70000000 ++ toLe 4 0x64000000 ++ zeros 4); readyB infoWmSet .device c up = true ∧ arg c 0 4 ≤ 63 ∧ arg c 4 4 / 2 ^ 28 ≤ 7 ∧
      arg c 8 4 / 2 ^ 24 ≤ 100) ∧
    (let c := pkt infoWmRead (toLe 4 63 ++ toLe 4 1); readyB infoWmRead .device c up = true ∧ arg c 0 4 ≤ 63) := by
  decide +kernel

/-- The device with cipher context 131071 of the anti-replay kind, and its function allowed one. -/
def ciphered (l : List CipherMsg) : State := { up with
  entropyReady := true, cipher := { up.cipher with ctxs := [(131071, { ty := 1, window := 64, txSeq := 4 })], msgs := l }, funcs := Store.upd {} 0 (fun f => { f with cipherCtx := 2 }) up.funcs }

theorem wit_CipherCommands :
    (∀ s ∈ [up, ciphered []], let c := pkt infoCtxLoad (toLe 8 5 ++ [2] ++ zeros 247); let u := taken infoCtxLoad c s; readyB infoCtxLoad .device c s = true ∧
      u.entropyReady = s.entropyReady ∧ (s.entropyReady = true → (ctxAt u (arg c 0 4)).ty = 0 ∧ (ctxAt u (arg c 0 4)).deleting = none ∧
        ctxUsed u (readCtx (slice c.payload 8 96)).fn < (funcOf u (readCtx (slice c.payload 8 96)).fn).cipherCtx)) ∧
    (∀ l ∈ [[], [({ ctx := 131071 } : CipherMsg)]], let c := pkt infoCtxDelete (toLe 8 131071); let u := taken infoCtxDelete c (ciphered l);
      readyB infoCtxDelete .device c (ciphered l) = true ∧ (ctxAt u (arg c 0 8)).ty ≠ 0 ∧ u.cipher.msgs.any (fun m => m.ctx == arg c 0 8) = !l.isEmpty) ∧
    (let c := pkt infoCtxRead (toLe 8 131071 ++ toLe 8 0x1000); readyB infoCtxRead .device c up = true ∧ poisonedIn (taken infoCtxRead c up) 9 (ctxAddr (arg c 0 8)) 256 = false) ∧
    (let c := pkt infoCtxUpdate (toLe 4 131071 ++ toLe 4 5 ++ toLe 8 5 ++ zeros 8 ++ toLe 8 512 ++ zeros 16); let s := ciphered []; let u := taken infoCtxUpdate c s;
      readyB infoCtxUpdate .device c s = true ∧ arg c 0 4 ≤ maxCtx ∧ (ctxAt u (arg c 0 4)).ty = 1 ∧ bit (arg c 4 1) 2 = true ∧ 32 ≤ arg c 24 4 ∧ arg c 24 4 ≤ 512 ∧
        bit (arg c 4 1) 0 = true ∧ (ctxAt u (arg c 0 4)).txSeq < arg c 8 8) ∧
    readyB infoCipherStatus .device (pkt infoCipherStatus (toLe 8 0x1000)) up = true := by
  decide +kernel

/-! ## Rings and Pumps -/

/-- The command names queue pair `q` of PF0, which is device queue pair `q`. -/
def names (c : Cmd) (u : State) (q : Nat) : Bool :=
  match queueOf u c with
  | .ok p => p == (0, q)
  | .error _ => false

theorem names_of {c : Cmd} {u : State} {q : Nat} (h : names c u q = true) : ∃ f n, queueOf u c = .ok (f, n) := by
  unfold names at h
  cases e : queueOf u c with
  | ok p => exact ⟨p.1, p.2, rfl⟩
  | error a => rw [e] at h; cases h

/-- The device with queue pairs `l`, of PF0 unless they say otherwise. -/
def ringed (l : List (Nat × Qp)) : State :=
  { up with rings := { up.rings with qps := l }, fns := Store.set {} 0 { bme := true } up.fns }

theorem wit_RingRows_commands :
    (∀ i ∈ [1, 2], let c := pkt infoQueueCreate (toLe 2 0 ++ toLe 2 i ++ [0, 0, 4, 4] ++ zeros 16 ++ toLe 2 0xFFFF ++ zeros 38); let u := taken infoQueueCreate c up;
      readyB infoQueueCreate .device c up = true ∧ names c u i = true ∧ queueBad u 0 c = false ∧ arg c 2 2 ≠ 0 ∧ qpExists u i = false) ∧
    (∀ x ∈ [(0, 0), (1, 0), (1, 1), (1, 2), (2, 0)], ∀ op ∈ [infoQueueStop, infoQueueDestroy, infoQueueStart],
      let s := ringed (if x.1 = 0 then [] else [(0, { ty := x.2, state := x.1 })]); let c := pkt op (zeros 8); let u := taken op c s;
      readyB op .device c s = true ∧ names c u 0 = true ∧ ownRing u c 0 = false ∧ (qpAt u 0).state = x.1 ∧ (qpAt u 0).ty = x.2) ∧
    (let c := pkt infoQueueQuery (zeros 8 ++ toLe 8 0x1000); readyB infoQueueQuery .device c up = true ∧ names c (taken infoQueueQuery c up) 0 = true) := by
  decide +kernel

/-- A frame of queue pair 3 that waits for a buffer, or whose data is being read into buffer 9. -/
def framed (reading : Bool) : State :=
  let f : TxFrame := { tx := { qp := 3, tag := 5, len := 64 }, reading := reading, waits := !reading, buf := if reading then some 9 else none }
  let s := ringed [(3, { state := 1, frames := [f] })]
  { s with cis := { s.cis with bufs := [{ num := 9 }] } }

theorem wit_RingRows_events :
    (∀ m ∈ [Mode.flowing, .dormant], ∀ ty ∈ [0, 2], let s : State := { ringed [(3, { ty := ty, state := 1, fetching := true })] with mode := m };
      (qpAt s 3).fetching = true ∧
        qpRuns (finishReads (.fetch 3) s) (qpAt s 3) = decide (m = .flowing)) ∧
    (let s := framed true; let q := qpAt s 3; (q.frames.find? (fun (f : TxFrame) => f.reading && f.tx.tag == 5)).any (fun f => f.tx.len == 64) = true ∧
      fnUp s q.fn = true ∧ inService s = true ∧ (takeRead 3 5 s).isSome = true) ∧
    (let s := framed false; qpRuns s (qpAt s 3) = true ∧ (qpAt s 3).ty = 0 ∧ (∃ f ∈ (qpAt s 3).frames, f.waits = true ∧ f.reading = false)) ∧
    (let s := ringed [(3, { state := 1, modAt := some 0, arm := true })]; (qpAt s 3).modAt = some 0 ∧ (qpAt s 3).arm = true) := by
  decide +kernel

/-- A transfer of 64 bytes, from Clay when `clay` says so; with ABORT or without. -/
def transfer (clay abort : Bool) (state : Nat) : PumpCh :=
  { dst := if clay then 0 else 64, count := 64, ctrl := (if clay then 4 else 0) + (if abort then 2 else 0), state := state }

/-- The device with channels `l`. -/
def pumping (l : List (Nat × PumpCh)) : State := { up with rings := { up.rings with chans := l, pcqs := [(0, { log2 := 4 })] } }

theorem wit_PumpRows :
    (∀ x ∈ [(0, 0), (127, 1), (128, 1), (254, 0)], let c := pkt infoPumpAssign (toLe 2 x.1 ++ toLe 1 x.2 ++ zeros 5); let u := taken infoPumpAssign c up;
      readyB infoPumpAssign .device c up = true ∧ arg c 0 2 < 255 ∧ arg c 2 2 ≤ 1 ∧ (pumpAt u (arg c 0 2)).state = 0) ∧
    (∀ x ∈ [(0, 0, 4, 0xFFFF), (31, 1, 16, 2047)],
      let c := pkt infoPcqSet ([BitVec.ofNat 8 x.1, BitVec.ofNat 8 x.2.1, BitVec.ofNat 8 x.2.2.1, 0] ++ toLe 2 x.2.2.2 ++ zeros 2 ++ toLe 8 0x1000 ++ zeros 8); let u := taken infoPcqSet c up;
      readyB infoPcqSet .device c up = true ∧ arg c 0 1 ≤ 31 ∧ arg c 1 1 ≤ 1 ∧ 4 ≤ arg c 2 2 ∧ arg c 2 2 ≤ 16 ∧ (arg c 4 2 = 0xFFFF ∨ arg c 4 2 ≤ 2047) ∧
        arg c 8 8 % 4096 = 0 ∧ (∀ x ∈ u.rings.chans, x.2.state = 0 ∨ chPcq x.2 ≠ arg c 0 1)) ∧
    (∀ n ∈ [0, 64], let c := pkt infoPumpRecover (zeros 8 ++ toLe 8 64 ++ toLe 4 n ++ zeros 12); let u := taken infoPumpRecover c virt;
      let pf := pfOfChan u c.chan
      let ch : PumpCh := { src := BitVec.ofNat 64 (arg c 0 8), dst := BitVec.ofNat 64 (arg c 8 8), count := BitVec.ofNat 32 (arg c 16 4),
                           shape := BitVec.ofNat 32 (arg c 20 4), ctrl := BitVec.ofNat 32 (4 * (arg c 24 1 % 16)) };
      readyB infoPumpRecover .device c virt = true ∧ chBad u pf ch = (if n = 0 then some 0x11 else none) ∧ sidebandCut u c.chan = false) ∧
    readyB infoPumpStatus .device (pkt infoPumpStatus (toLe 8 0x1000)) up = true ∧
    (∀ x ∈ [(4, false), (1, true), (1, false)], let c := transfer false x.2 x.1; let s := pumping [(254, c)];
      inService s = true ∧ (pumpAt s 254).state = x.1 ∧ pcqFree (pcqAt s (chPcq c)) = true ∧ c.ctrl.getLsbD 1 = x.2 ∧
        chBad (updPcq (chPcq c) (fun p => { p with reserved := p.reserved + 1 }) s) (pumpPf 254 c) c = none) ∧
    chBad up 1 { transfer false false 1 with count := 0 } = some 0x11 ∧
    (∀ clay ∈ [false, true], let s := pumping [(254, transfer clay false 2)]; let c := pumpAt s 254;
      c.state = 2 ∧ c.done ≠ c.count.toNat ∧ c.count.toNat ≤ (pumpSource s c (zeros 64)).length ∧ pumpPoisoned s c = false ∧
        ∀ held ∈ [false, true], let s : State := { s with heldOut := if held then [(0, .dest 254, .readData 0)] else [] }; destHeld s 254 = held) := by
  decide +kernel

/-! ## Time and fronthaul -/

/-- The device under a time source, in a time state. -/
def timed (source : Nat) (st : TState) : State :=
  { up with time := { up.time with state := st, cfg := { source := source, ppsOutEn := true } } }

theorem wit_TimeCommands :
    (∀ x ∈ [(3, true), (4, false)], let c := pkt infoTimeConfig (toLe 1 x.1 ++ zeros 47); readyB infoTimeConfig .device c up = true ∧
      timeCfgOk (readTimeCfg c.payload) = x.2) ∧
    readyB infoTimeGet .device (pkt infoTimeGet []) up = true ∧
    (∀ x ∈ [(2, TState.acquiring, 0, 500000000), (2, .locked, 0, -500000000), (1, .acquiring, 1000, 0), (1, .acquiring, 0, 0)],
      let c := pkt infoTimeAdjust (toLe 8 x.1 ++ toLe 8 x.2.2.1 ++ toLe 4 (unsigned 32 x.2.2.2) ++ zeros 4); let u := taken infoTimeAdjust c (timed 1 x.2.1);
      readyB infoTimeAdjust .device c (timed 1 x.2.1) = true ∧ u.time.cfg.source = 1 ∧ -500000000 ≤ signed 32 (arg c 16 4) ∧ signed 32 (arg c 16 4) ≤ 500000000 ∧
        arg c 0 1 = x.1 ∧ u.time.state = x.2.1 ∧ 0 ≤ (u.time.t : Int) + signed 64 (arg c 8 8) * 65536 ∧
          (u.time.t : Int) + signed 64 (arg c 8 8) * 65536 < 2 ^ 80) ∧
    (let c := pkt infoTimePortSet ([15, 2, 2, 63] ++ zeros 28); readyB infoTimePortSet .device c up = true ∧ arg c 0 1 ≤ 15 ∧
      ptpPortOk (readPtpPort c.payload) = true ∧ arg c 0 1 < laneCount (taken infoTimePortSet c up)) ∧
    (∀ n ∈ [1, 16], let c := pkt infoPpsInRead (toLe 8 0x1000 ++ toLe 8 n); readyB infoPpsInRead .device c up = true ∧ 1 ≤ arg c 8 8 ∧ arg c 8 8 ≤ 16) ∧
    (let c := pkt infoSynceSet ([1, 15, 7, 1] ++ zeros 4); readyB infoSynceSet .device c up = true ∧ arg c 0 1 ≤ 1 ∧ arg c 1 1 ≤ 15 ∧ arg c 2 1 ≤ 7 ∧
      arg c 1 1 < laneCount (taken infoSynceSet c up)) := by
  decide +kernel

theorem wit_TimeEvents :
    (let s := timed 2 .locked; timeRuns s = true ∧ s.time.state = .locked ∧ 2 ≤ s.time.cfg.source) ∧
    (let s := timed 2 .holdover; timeRuns s = true ∧ s.time.state = .holdover) ∧
    (let s := timed 2 .locked; s.time.cfg.ppsOutEn = true ∧ modeTalks s = true ∧ s.time.ppsOut = false ∧ unlocked s = false) ∧
    ({ up.time with ppsOut := true } : TimeSt).ppsOut = true ∧
    (∀ b ∈ [false, true], let s : State := { up with time := { up.time with synce := [(1, { enable := true, low := b })] } }; (synceAt s 1).enable = true ∧ (synceAt s 1).low = b) ∧
    (∀ x ∈ [(false, none), (true, none), (true, some 15)], let s : State := { timed 2 .locked with
        ports := [(15, { cfg := { mode := 1 }, up := true, ptp := { role := 1, profile := 2, oneStep := x.1 } })],
        time := { (timed 2 .locked).time with bestPort := x.2 } };
      s.time.cfg.source = 2 ∧ (portAt s 15).ptp.role ≠ 0 ∧ lineUp s 15 = true ∧ (portAt s 15).ptp.oneStep = x.1 ∧ s.time.bestPort = x.2 ∧
        (portAt s 15).ptp.profile = 2) := by
  decide +kernel

/-- A carrier of 106 PRBs at 30 kHz, all of whose symbols are uplink ones or downlink ones. -/
def carrier (d : Nat) : Carrier := { mu := 1, prbs := 106, enable := true, dirs := [d] }

/-- The device with carrier 31, its time LOCKED. -/
def radio (d : Nat) : State := { timed 2 .locked with fh := { up.fh with carriers := [(31, carrier d)] } }

/-- A record of carrier 31. -/
def carrierBytes (mu : Nat) : Bytes := [31, BitVec.ofNat 8 mu] ++ toLe 2 106 ++ toLe 2 1 ++ [1, 0] ++ zeros 8 ++ toLe 4 0xAAAAAAA

theorem wit_FronthaulRows :
    (∀ mu ∈ [3, 4], let c := pkt infoFhCarrierSet (carrierBytes mu); readyB infoFhCarrierSet .device c up = true ∧
      isOk (setCarrier (some (refAt infoFhCarrierSet c up)) c.payload (taken infoFhCarrierSet c up)) = decide (mu = 3)) ∧
    (∀ carrier ∈ [31, 32], let c := pkt infoFhFlowSet (zeros 4 ++ toLe 4 4095 ++ toLe 8 1 ++ (toLe 2 7 ++ [15, BitVec.ofNat 8 carrier, 1, 0, 16, 255] ++ zeros 24));
      let u := taken infoFhFlowSet c up; let l := records 32 (arg c 8 4) (c.payload.drop 16);
      readyB infoFhFlowSet .device c up = true ∧ isOk (writeFlows (arg c 0 2) (arg c 4 4) l u) = decide (carrier = 31) ∧ (∀ b ∈ l, (readFlow b).port < laneCount u)) ∧
    (∀ x ∈ [(0, 4096), (4095, 1)], let c := pkt infoFhFlowStatus (toLe 4 x.1 ++ toLe 2 x.2 ++ zeros 2 ++ toLe 8 0x1000); readyB infoFhFlowStatus .device c up = true ∧
      1 ≤ arg c 4 2 ∧ arg c 4 2 ≤ 4096 ∧ arg c 0 4 + arg c 4 2 ≤ 4096 ∧ bit (arg c 6 1) 0 = false) ∧
    (let c := pkt infoFhGridQuery (toLe 8 31 ++ toLe 8 1000000); let u := taken infoFhGridQuery c (radio 0xAAAAAAA); readyB infoFhGridQuery .device c (radio 0xAAAAAAA) = true ∧
      arg c 0 8 ≤ 31 ∧ (carrierAt u (arg c 0 8)).enable = true) ∧
    (let s : State := { radio 0xAAAAAAA with fh := { (radio 0xAAAAAAA).fh with suspended := [(31, true)] } }; timeRuns s = true ∧ suspended s 31 = true ∧ unlocked s = false) ∧
    (let s : State := { radio 0xAAAAAAA with fh := { (radio 0xAAAAAAA).fh with flows := [(4095, { carrier := 31, enable := true, winB := 1000 })] } };
      timeRuns s = true ∧ (flowAt s 4095).enable = true ∧ (flowAt s 4095).tx = false ∧ carrierRuns s (flowAt s 4095).carrier = true ∧ (nextClose s 4095 (flowAt s 4095)).isSome = true) ∧
    (∀ r ∈ [none, some (refAt infoFhCarrierSet (pkt infoFhCarrierSet (carrierBytes 1)) up)],
      let s : State := { up with fh := { up.fh with pending := [(31, { ref := r, record := carrier 0xAAAAAAA, effAt := 65536 })] } };
      timeRuns s = true ∧ (Store.get ({} : PendCarrier) 31 s.fh.pending).effAt ≠ 0 ∧ (Store.get ({} : PendCarrier) 31 s.fh.pending).ref = r) := by
  decide +kernel

/-! ## The Combiner -/

/-- The device with a carrier of each direction and combiner set `n`, and symbols of it. -/
def combining (n : Nat) (x : CombSet) (l : List SymCtx) : State :=
  { radio (if x.dir = 0 then 0xAAAAAAA else 0x5555555) with comb := { up.comb with sets := [(n, x)], syms := l } }

/-- An enabled set of one antenna and one layer over one PRB. -/
def set1 (dir : Nat) : CombSet := { dir := dir, carrier := 31, enable := true, bank := some { shifts := [0], weights := [(16384, 0)] } }

/-- A command packet that starts with a set's number. -/
def toSet (op : OpInfo) (n : Nat) (p : Bytes) : Cmd := pkt op (toLe 1 n ++ p)

/-- A set record that enables, or not; its PRBs fit the carrier. -/
def setBytes (on : Bool) (layers : Nat) : Bytes :=
  [0, 31, if on then 1 else 0] ++ toLe 2 8 ++ toLe 1 layers ++ [1] ++ zeros 2 ++ toLe 2 106 ++ [16, 0] ++ toLe 2 0 ++ zeros 4 ++ toLe 4 10000 ++ zeros 40

theorem wit_CombinerCommands :
    (∀ on ∈ [false, true], let c := toSet infoCombSetWrite 31 (setBytes on 48); let s := combining 31 {} []; let u := taken infoCombSetWrite c s; let x := readSet c.payload;
      readyB infoCombSetWrite .device c s = true ∧ setBad u x = false ∧ (combSet u 31).enable = false ∧ x.enable = on ∧ isOk (admitSet u x) = true) ∧
    (let c := toSet infoCombSetWrite 31 (setBytes true 64); let s := combining 31 {} []; let u := taken infoCombSetWrite c s; let x := readSet c.payload;
      readyB infoCombSetWrite .device c s = true ∧ setBad u x = false ∧ (combSet u 31).enable = false ∧ x.enable = true ∧ isOk (admitSet u x) = false) ∧
    (∀ on ∈ [false, true], let c := toSet infoCombSetWrite 31 (setBytes on 48); let s := combining 31 (set1 0) []; let u := taken infoCombSetWrite c s; let x := readSet c.payload;
      readyB infoCombSetWrite .device c s = true ∧ setBad u x = false ∧ (combSet u 31).enable = true ∧ (combSet u 31).disabling = none ∧ x.enable = on) ∧
    (∀ role ∈ [3, 4], let c := pkt infoCombCflowWrite (zeros 4 ++ toLe 4 4095 ++ toLe 8 1 ++ (toLe 1 role ++ [31] ++ zeros 22 ++ toLe 2 1 ++ zeros 6));
      let u := taken infoCombCflowWrite c up; readyB infoCombCflowWrite .device c up = true ∧
        isOk (writeCflows (arg c 0 2) (arg c 4 4) (records 32 (arg c 8 4) (c.payload.drop 16)) u) = decide (role = 3)) ∧
    (let s : State := { combining 31 (set1 0) [] with fns := virt.fns, funcs := virt.funcs }; let c := toSet infoCombWeights 31 (zeros 7 ++ toLe 8 0x1000 ++ toLe 4 36 ++ zeros 4);
      let u := taken infoCombWeights c s; let x := combSet u 31; readyB infoCombWeights .device c s = true ∧ x.enable = true ∧ x.armed = none ∧ x.loading = none ∧
        inactiveBusy u 31 x = false ∧ arg c 16 4 = bankBytes x ∧ sidebandCut u c.chan = false) ∧
    (∀ x ∈ [set1 0, { set1 0 with spare := some {} }, { set1 0 with armed := some (refAt infoTimeGet (pkt infoTimeGet []) up) }],
      let c := toSet infoCombSwitch 31 (zeros 15); let s := combining 31 x []; readyB infoCombSwitch .device c s = true ∧ combSet (taken infoCombSwitch c s) 31 = x) ∧
    readyB infoCombStatus .device (toSet infoCombStatus 31 (zeros 7 ++ toLe 8 0x1000)) up = true := by
  decide +kernel

theorem wit_CombinerEvents :
    let r := refAt infoTimeGet (pkt infoTimeGet []) up
    (let s := combining 31 { set1 0 with disabling := some r } []; (combSet s 31).disabling = some r ∧ (∀ y ∈ s.comb.syms, y.set ≠ 31) ∧ timeRuns s = true) ∧
    (let x := { set1 0 with loading := some r, loadLen := 36 }; let s := combining 31 x []; let data : Bytes := [31] ++ zeros 15 ++ [24] ++ zeros 19;
      (combSet s 31).loading = some r ∧ x.loadLen ≤ data.length ∧ x.enable = true ∧ fld data 0 1 = 31 ∧
        (readBank x (spareHalf x) data).shifts.any (fun v => decide (24 < v)) = false ∧ ([] : Bytes).length < x.loadLen) ∧
    (let s := combining 31 { set1 0 with armed := some r } []; combRuns s = true ∧ (combSet s 31).armed = some r) ∧
    (∀ closed ∈ [false, true], let c : SymCtx := { set := 31, tSym := 65536, closed := closed }; let s := combining 31 (set1 0) [c]; let x := combSet s 31;
      combRuns s = true ∧ x.dir = 0 ∧ firstSym s 31 (fun c => c.closed == closed) = some c ∧ (bankOfSlot x c.slotAt).isSome = true ∧
        (bankOfSlot x c.slotAt).all (fun b => (symPoisoned (removeSym 31 c.tSym s) x 31 b).isNone) = true) ∧
    (∀ got ∈ [[], [(0, 0, [])]], let c : SymCtx := { set := 31, tSym := 100000 * 65536, got := got }; let s := combining 31 (set1 1) [c]; let x := combSet s 31;
      combRuns s = true ∧ x.dir = 1 ∧ firstSym s 31 (fun c => !c.closed) = some c ∧ (firstSym s 31 (fun c => !c.closed && dlComplete x c)).isSome = !got.isEmpty ∧
        (bankOfSlot x c.slotAt).all (fun b => (symPoisoned (noteEnded 31 c.tSym s) x 31 b).isNone) = true ∧ (bankOfSlot x c.slotAt).isSome = true) ∧
    (let c : SymCtx := { set := 31, tSym := 65536, closed := true };
      let s : State := { combining 31 (set1 1) [c] with comb := { (combining 31 (set1 1) [c]).comb with cflows := [(0, { role := 3, set := 31, index := 0 })] } }; let x := combSet s 31;
      x.dir = 1 ∧ firstSym s 31 (fun c => c.closed && (dlPending s 31 x c).contains 0) = some c ∧ (bankOfSlot x c.slotAt).isSome = true) := by
  decide +kernel

/-! ## Stitch links and the aquifer -/

/-- The device with port 15 a stitch port at work, in a state of its link. -/
def stitched (u : StitchSt) : State :=
  { up with ports := [(15, { cfg := { mode := 2 }, up := true })], aq := { up.aq with stitch := [(15, u)], cfg := { restTicks := 1 } } }

/-- The same as a member or the gateway of an aquifer whose other member is 63. -/
def joined (gateway : Nat) (route : Option Nat) : State :=
  let s := stitched {}
  { s with aq := { s.aq with group := some 7, index := 0, gateway := gateway, members := [(0, { present := true }), (63, { present := true, route := route })] } }

theorem wit_StitchRows :
    (let s := stitched {}; stitchUp s 15 = true ∧ modeTalks s = true ∧ frameGood [] = false ∧
      (∀ ty ∈ [uPkt, uNull], let d := frameBytes ty 0 0 false false 0 0 (zeros 4); frameGood d = true ∧ (stitchAt s 15).resting = false ∧ bit (fld d 2 2) 13 = false ∧
        (stitchAt (takeAck 15 d s) 15).lost = false ∧ fld d 0 1 % 16 = ty ∧ fld d 0 2 / 16 = (stitchAt (takeAck 15 d s) 15).rxSeq)) ∧
    (∀ n ∈ [7, 8], let s := stitched { retry := [{}], replays := n }; stitchUp s 15 = true ∧ (stitchAt s 15).retry ≠ [] ∧ s.mode ≠ .dormant) ∧
    (let s := stitched {}; let u := stitchAt s 15; stitchUp s 15 = true ∧ inService s = true ∧ s.aq.cfg.restTicks ≠ 0 ∧ u.resting = false ∧ u.restPend = false ∧ u.waiting = []) ∧
    (let s : State := { stitched {} with mode := .dormant }; s.mode = .dormant ∧ (portAt s 15).cfg.mode = 2) ∧
    (let s := stitched { resting := true }; s.mode ≠ .dormant ∧ stitchUp s 15 = true ∧ (stitchAt s 15).resting = true ∧ (stitchAt s 15).listenAt = none) ∧
    (let g : Nat := (stitched {}).aq.cfg.guardUs * 1000 * 65536; ∀ t ∈ [g, g + 1, 4 * g, 4 * g + 1],
      let s : State := { stitched { resting := true, listenAt := some 0 } with time := { up.time with t := t } };
      s.mode ≠ .dormant ∧ stitchUp s 15 = true ∧ (stitchAt s 15).resting = true ∧ (stitchAt s 15).listenAt = some 0 ∧ s.time.t - 0 = t) ∧
    (let s := joined 0 (some 15); inService s = true ∧ s.aq.group.isSome = true ∧ s.aq.gateway = s.aq.index) ∧
    (let x : Change := { waiting := [63] }; ({ up.aq with change := some x } : AqSt).change = some x ∧ x.waiting ≠ []) ∧
    (let s := joined 63 none; s.aq.group.isSome = true ∧ s.aq.gateway ≠ s.aq.index ∧ routeTo s s.aq.gateway = none ∧ (63 ≠ s.aq.index ∧ (memberAt s 63).present = true)) := by
  decide +kernel

theorem wit_AquiferPowerAndCounterCommands_aquifer :
    (∀ n ∈ [1000000, 1000001], let c := pkt infoAqConfig (zeros 20 ++ toLe 4 n ++ zeros 8); readyB infoAqConfig .device c up = true ∧
      aqCfgOk (readAqCfg c.payload) = decide (n = 1000000)) ∧
    (∀ ready ∈ [false, true], let c := pkt infoAqJoin ([15] ++ zeros 7); let s : State := { stitched {} with entropyReady := ready }; let u := taken infoAqJoin c s;
      readyB infoAqJoin .device c s = true ∧ arg c 0 1 ≤ 15 ∧ arg c 1 1 ≤ 1 ∧ (portAt u (arg c 0 1)).cfg.mode = 2 ∧ aqBusy u = false ∧ u.entropyReady = ready ∧
        u.aq.group = none ∧ stitchUp u (arg c 0 1) = true ∧ u.boot.identIncomplete = false) ∧
    (let c := sealed infoAqJoin { pkt infoAqJoin ([15, 1] ++ zeros 6) with hops := [0xFFFF], pathLen := 1 }; let s : State := { joined 0 (some 14) with entropyReady := true };
      let u := taken infoAqJoin c s; readyB infoAqJoin (.aquifer 0) c s = true ∧ arg c 1 1 = 1 ∧ aqBusy u = false ∧ stitchUp u (arg c 0 1) = true) ∧
    (let c := sealed infoAqLeave { pkt infoAqLeave ([63] ++ zeros 7) with hops := [0xFFFF], pathLen := 1 }; let s := joined 0 (some 15); let u := taken infoAqLeave c s;
      readyB infoAqLeave (.aquifer 0) c s = true ∧ arg c 0 8 ≤ 63 ∧ u.aq.group.isSome = true ∧ aqBusy u = false ∧ (ownKeys u).contains 63 = false ∧ (memberAt u 63).present = true ∧
        routeTo u 63 = some 15) ∧
    (let c := pkt infoAqLeave (zeros 8); let s := joined 63 (some 15); let u := taken infoAqLeave c s;
      readyB infoAqLeave .device c s = true ∧ u.aq.group.isSome = true ∧ aqBusy u = false ∧ u.aq.gateway ≠ u.aq.index ∧ routeTo u u.aq.gateway = some 15) ∧
    (let c := pkt infoAqStatus (toLe 8 0x1000 ++ toLe 8 64); let s := joined 0 (some 15); readyB infoAqStatus .device c s = true ∧
      32 * (levelKeys (taken infoAqStatus c s) 0).length = arg c 8 8) ∧
    (let c := pkt infoAqCertRead (toLe 8 0x1000 ++ toLe 8 4096); let s := joined 0 (some 15); readyB infoAqCertRead .device c s = true ∧
      (levelAt (taken infoAqCertRead c s) 0).isSome = true) := by
  decide +kernel

/-- The head of the payload of a POWER_COST_SET in range; zeros follow it. -/
def costHead : Bytes := zeros 8 ++ [200, 0, 1, 0, 1, 0] ++ toLe 2 10 ++ toLe 2 1 ++ toLe 2 1 ++ toLe 2 1

theorem costBytes_fld (o n : Nat) (h : 22 ≤ o) (hn : o + n ≤ 2112) : fld (costHead ++ zeros 2090) o n = le (zeros n) := by
  have hl : costHead.length = 22 := by decide
  unfold fld slice zeros
  rw [List.drop_append, List.drop_eq_nil_of_le (by omega), hl, List.nil_append, List.drop_replicate, List.take_replicate, Nat.min_eq_left (by omega)]

theorem costBad_costBytes : costBad (readCost (costHead ++ zeros 2090)) = false := by
  have h : ((List.range 256).map fun p => (fld (costHead ++ zeros 2090) (64 + 8 * p) 2, fld (costHead ++ zeros 2090) (66 + 8 * p) 1)) =
      List.replicate 256 (0, 0) := by
    rw [List.eq_replicate_iff]
    refine ⟨by simp, fun x hx => ?_⟩
    obtain ⟨p, hp, rfl⟩ := List.mem_map.mp hx
    have := List.mem_range.mp hp
    rw [costBytes_fld _ _ (by omega) (by omega), costBytes_fld _ _ (by omega) (by omega)]
    rfl
  unfold readCost
  rw [h]
  decide +kernel

theorem wit_AquiferPowerAndCounterCommands_cost : let p := costHead ++ zeros 2090
    readyB infoPowerCostSet .device (pkt infoPowerCostSet p) up = true ∧ costBad (readCost (pkt infoPowerCostSet p).payload) = false :=
  ⟨readyB_of_readyP (by decide +kernel), costBad_costBytes⟩

theorem wit_AquiferPowerAndCounterCommands_others :
    (∀ n ∈ [150000, 150001], let c := pkt infoPowerPolicy (toLe 4 n ++ toLe 4 150000 ++ zeros 8 ++ List.replicate 14 0xF0 ++ zeros 34); let u := taken infoPowerPolicy c up;
      readyB infoPowerPolicy .device c up = true ∧ policyBad (readPolicy c.payload) = decide (n = 150001) ∧ (n = 150000 → clips u (readPolicy c.payload) = [])) ∧
    (let c := pkt infoPowerPlanSet ([31, 12, 12] ++ zeros 5); readyB infoPowerPlanSet .device c up = true ∧ arg c 0 1 ≤ 31 ∧ arg c 1 1 ≤ 12 ∧ arg c 2 1 ≤ 12) ∧
    readyB infoPowerStatus .device (pkt infoPowerStatus (toLe 8 0x1000)) up = true ∧
    readyB infoPowerTelemetry .device (pkt infoPowerTelemetry (toLe 8 0x1000)) up = true ∧
    (let c := pkt infoPowerVfRead (toLe 8 13 ++ toLe 8 0x1000); readyB infoPowerVfRead .device c up = true ∧ arg c 0 1 ≤ 13) ∧
    (let c := pkt infoCountersRead (toLe 2 65280 ++ toLe 2 256 ++ zeros 4 ++ toLe 8 0x1000); readyB infoCountersRead .device c up = true ∧ 1 ≤ arg c 2 2 ∧ arg c 2 2 ≤ 256 ∧
      arg c 0 2 + arg c 2 2 ≤ 65536 ∧ onVfRing c.chan = false) ∧
    (let c := pkt infoCntGrant (toLe 2 1025 ++ [62, 2] ++ zeros 4 ++ toLe 2 0x07FF ++ toLe 2 0xFFFF); readyB infoCntGrant .device c up = true ∧ arg c 0 2 ≤ 1025 ∧
      1 ≤ arg c 3 1 ∧ arg c 2 1 + arg c 3 1 ≤ 64 ∧ ∀ k ∈ (List.range (arg c 3 1)).map fun i => arg c (8 + 2 * i) 2, k ≤ 0x07FF ∨ k = 0xFFFF) ∧
    (let c := pkt infoMonConfig (toLe 2 255 ++ [6, 32] ++ toLe 2 4 ++ zeros 26); readyB infoMonConfig .device c up = true ∧ arg c 0 2 ≤ 255 ∧ arg c 2 1 ≤ 6 ∧ arg c 3 1 ≤ 32 ∧
      monIndexOk (arg c 2 1) (arg c 4 2) = true) ∧
    (∀ clear ∈ [0, 1], let c := pkt infoMonRead (toLe 2 0 ++ toLe 2 256 ++ toLe 4 clear ++ toLe 8 0x1000); readyB infoMonRead .device c up = true ∧ 1 ≤ arg c 2 2 ∧
      arg c 0 2 + arg c 2 2 ≤ 256 ∧ bit (arg c 4 1) 0 = decide (clear = 1)) ∧
    (let c := pkt infoCntCtxRead (toLe 4 (maxCtx - 255) ++ toLe 4 256 ++ toLe 8 0x1000); readyB infoCntCtxRead .device c up = true ∧ hasCipher (taken infoCntCtxRead c up) = true ∧
      1 ≤ arg c 4 2 ∧ arg c 4 2 ≤ 256 ∧ arg c 0 4 + arg c 4 2 ≤ maxCtx + 1) := by
  decide +kernel

/-! ## Power gates, points and samples; memory protection -/

/-- The device with carrier 31 of uplink slots enabled. -/
def gridded : State := { up with fh := { up.fh with carriers := [(31, { mu := 1, prbs := 106, enable := true, dirs := [0xAAAAAAA] })] } }

theorem wit_GateSampleAndFaultRows :
    (pumpRuns up = true ∧ 95 / 8 < wellCount up ∧ up.power.engGated.getLsbD 95 = false ∧ isWaking up wkEngine 95 = false ∧ packetsAt up 11 < (enginesAwake up 11).length) ∧
    (let s : State := { up with power := { up.power with engGated := BitVec.allOnes 96 } };
      11 < wellCount s ∧ wellAwake s 11 = true ∧ isWaking s wkWell 11 = false ∧ enginesAwake s 11 = [] ∧ packetsAt s 11 = 0 ∧ bit (planWells s) 11 = false) ∧
    (let s : State := { up with power := { up.power with wellCg := 0x800 } };
      s.power.wellCg.getLsbD 11 = true ∧ isWaking s wkWell 11 = false ∧ (wellFloor s).getLsbD 11 = false ∧ bit (planWells s) 11 = false) ∧
    (let s : State := { up with cipher := { up.cipher with aesAwake := 0xFFF, strAwake := 0xF } };
      hasCipher s = true ∧ cipherAwake s true 3 = true ∧ isWaking s wkStream 3 = false ∧ unitMsgs s true 3 = [] ∧
        cipherAwake s false 11 = true ∧ isWaking s wkAes 11 = false ∧ unitMsgs s false 11 = [] ∧ max (aesFloor s) (planAes s) < popcount s.cipher.aesAwake.toNat 12) ∧
    (1 ≤ 3 ∧ commandWork up = false) ∧
    (hasCombiner up = true ∧ up.comb.awake.getLsbD 15 = true ∧ up.comb.syms = [] ∧ max up.power.policy.combFloor (groupsDue up) < groupsAwake up) ∧
    (isWaking ({ up with power := { up.power with waking := [(wkWell, 11, 0)] } } : State) wkWell 11 = true) ∧
    (let s : State := { up with power := { up.power with pointTo := [(13, 1)] } }; Store.get 0 13 s.power.pointTo ≠ 0) ∧
    (let k := carrierAt gridded 31; k.enable = true ∧ k.dirs ≠ [] ∧
      (List.range (k.dirs.length + 20)).find? (fun (i : Nat) => slotHolds k (slotAtTime k (gridded.time.t : Int) + (i : Int)) true) = some 0) ∧
    (up.mode ≠ .dry ∧ (let v : State := { up with power := { up.power with sensors := [100 * 16 - 1] } }; hottest v < 100 * 16) ∧ up.power.clamp = false ∧ up.power.shed = false ∧
      ∀ x ∈ [(105 * 16 : Int), 110 * 16 - 1], let v : State := { up with power := { up.power with sensors := [x] } }; 105 * 16 ≤ hottest v ∧ hottest v < 110 * 16) ∧
    (up.power.cap = false ∧ ∀ mw ∈ [150000, 150001], let pkgs := (([mw].take 8).sum :: up.power.pkgs).take 4;
      decide (pkgs.sum ≤ up.power.policy.capMw * pkgs.length) = decide (mw = 150000)) ∧
    (memPresent up 1 = true ∧ memPresent up 9 = true ∧ (Store.get [] 9 up.fault.poison).contains 5 = false ∧
      (let s : State := { up with fault := { up.fault with poison := [(9, [5])] } }; (Store.get [] 9 s.fault.poison).contains 5 = true)) ∧
    (({ up with mode := .dry } : State).mode = .dry ∧ 23 ≤ 23 ∧ 7 ≤ 7) := by
  decide +kernel

end Sys2Proof.Tests
end

section
/-! SUPPORT. Absent units (R4): what check 4 of R45 says of a command that reaches one, and the obligation on it. -/

namespace Sys2Proof.Machine

open Sys2Proof

theorem SamePlace.classAbsent {s t : State} (h : SamePlace s t) (op : OpInfo) : Machine.classAbsent op t = Machine.classAbsent op s := by
  unfold Machine.classAbsent capUnits
  rw [h.fuses]

/-- The presence of the unit and of the opcode's class is looked at before anything else (R4, R45). -/
theorem checks_of_absent {op : OpInfo} {t : Target} {s : State} (h : t = .noUnit ∨ classAbsent op s = true) (c : Cmd) :
    checks op t c s = some (err stNoUnit 0) := by
  unfold checks
  rcases h with rfl | h
  · exact if_pos rfl
  · simp only [h, if_true, ite_self]

/-- Settles O14: the presence check decides before the row's body could run, and a refused command leaves the state it was taken in. -/
theorem absentUnitAnswersNoUnit : Obligations.AbsentUnitAnswersNoUnit := by
  intro i op c s hrow harr hreach habsent
  obtain ⟨body, hbody⟩ := row_runs hrow
  have hplace := samePlace_taken op c s
  obtain ⟨hhere, hchecks⟩ : (targetOf s c ≠ .badPath ∧ ∀ m r, targetOf s c ≠ .member m r) ∧
      checks op (targetOf s c) c (taken op c s) = some (err stNoUnit 0) := by
    rcases habsent with hunit | ⟨hclass, hpath, hmember⟩
    · exact ⟨by simp [hunit], checks_of_absent (.inl hunit) c⟩
    · exact ⟨⟨hpath, hmember⟩, checks_of_absent (.inr (hplace.classAbsent op ▸ hclass)) c⟩
  rw [hbody]
  exact refused_run harr hreach hhere hchecks body

end Sys2Proof.Machine
end

section
/-! SUPPORT. Nothing is left due between commands (R31, R59, R400), and what a wake event in DORMANT does (R31, R109, R110), with the obligations
on them. -/

namespace Sys2Proof.Machine

open Sys2Proof

/-! ## Nothing left due -/

/-- A nanosecond makes nothing due: it moves only the clocks. -/
theorem nothingDue_tick {s : State} (h : NothingDue s) : NothingDue (tick s) := by
  rw [tick_frame]
  exact h

/-- Settles O4: a command ends in `settle`, which carries out what is due whatever the command left, and an idle step only moves the clocks. -/
theorem nothingLeftDue : Obligations.NothingLeftDue := by
  intro s t hs hstep
  rcases step_cases hstep with ⟨u, rfl⟩ | ⟨-, rfl⟩
  · exact nothingDue_settle u
  · exact nothingDue_tick hs

/-! ## Wake events in DORMANT -/

/-- In DORMANT an event is latched, and starts the wake when it is enabled and none is under way. -/
theorem latchWake_dormant (k : Nat) {s : State} (h : s.mode = .dormant) :
    latchWake k s = if wakeEnabled s k && !s.wh.waking
      then { s with wh := { s.wh with latched := s.wh.latched ||| (1#8 <<< k), waking := true, first := k } }
      else { s with wh := { s.wh with latched := s.wh.latched ||| (1#8 <<< k) } } := by
  unfold latchWake
  exact if_pos h

theorem latchWake_latched (k : Nat) {s : State} (h : s.mode = .dormant) :
    (latchWake k s).wh.latched = s.wh.latched ||| (1#8 <<< k) := by
  rw [latchWake_dormant k h]
  split <;> rfl

theorem latchWake_waking (k : Nat) {s : State} (h : s.mode = .dormant) :
    (latchWake k s).wh.waking = (s.wh.waking || wakeEnabled s k) := by
  rw [latchWake_dormant k h]
  cases hwaking : s.wh.waking with
  | true => simp [hwaking]
  | false => cases wakeEnabled s k <;> simp [hwaking]

theorem latchWake_first (k : Nat) {s : State} (h : s.mode = .dormant) :
    (latchWake k s).wh.first = if wakeEnabled s k && !s.wh.waking then k else s.wh.first := by
  rw [latchWake_dormant k h]
  exact apply_ite (fun u : State => u.wh.first) _ _ _

/-- Settles O29: the latch gains the event's bit and keeps the others, and only an enabled event that finds no wake under way starts one. -/
theorem wakeEventsLatch : Obligations.WakeEventsLatch := by
  intro k s hk hm
  rw [latchWake_latched k hm, latchWake_waking k hm, latchWake_first k hm]
  refine ⟨?_, fun j hj => ?_, rfl, fun hw => ?_, fun hw he => ?_, (outward_latchWake k s).units⟩
  · simp [hk]
  · simp [hj]
  · simp [hw]
  · simp [hw, he]

end Sys2Proof.Machine
end

section
/-! SUPPORT. The common core at a unit (R16, R17, R18, R57 to R60): one rule per row of what it does when its checks pass, and the obligations on
them. -/

namespace Sys2Proof.Machine

open Sys2Proof

variable {t : Target} {c : Cmd} {s : State}

/-! ## Rows that only read -/

@[simp] theorem taken_mode (op : OpInfo) (c : Cmd) (s : State) : (taken op c s).mode = s.mode := (answers_taken op c s).units.mode

/-- A reading row whose checks pass answers with what it reads, in the state in which it is taken. -/
theorem ready_read {op : OpInfo} (h : Ready op t c s) (f : Target → Cmd → State → Answer) :
    done (runCommand op (readBody f) c s) = answered op c s (f t c (taken op c s)) (taken op c s) :=
  ready_run h (readBody f)

/-- A row that asks the members of an aquifer for their modes is no row of that device alone when it is addressed to one (R17). -/
theorem Ready.ne_aquifer {op : OpInfo} (h : Ready op t c s) (ha : asksModes op.code = true) (l : Nat) : t ≠ .aquifer l := by
  rintro rfl
  have := h.alone
  rw [ha] at this
  simp [Target.isAquifer] at this

theorem identify_ready (h : Ready infoIdentify t c s) : exec (.identify c) s = answered infoIdentify c s
    (if arg c 0 8 % 64 ≠ 0 then err stBadLength 0
      else okOut Config.serial.toNat (stratumOf t + 256 * indexOf (taken infoIdentify c s) t + 2 ^ 24 * modeField (taken infoIdentify c s) t)
        (arg c 0 8) (statusRecord (taken infoIdentify c s) t))
    (taken infoIdentify c s) :=
  ready_read h _

theorem capability_ready (h : Ready infoCapability t c s) : exec (.capability c) s = answered infoCapability c s
    (ok (capField (taken infoCapability c s) t) (childrenOf (taken infoCapability c s) t)) (taken infoCapability c s) :=
  ready_read h _

theorem modeGet_ready (h : Ready infoModeGet t c s) :
    exec (.modeGet c) s = answered infoModeGet c s (ok (devMode (taken infoModeGet c s)) 0) (taken infoModeGet c s) := by
  have hrun : exec (.modeGet c) s = _ := ready_read h _
  rw [hrun]
  cases t with
  | aquifer l => exact absurd rfl (h.ne_aquifer rfl l)
  | _ => rfl

theorem echo_ready (h : Ready infoEcho t c s) : exec (.echo c) s = answered infoEcho c s
    (if arg c 0 8 = 0 then ok (nowNs (taken infoEcho c s)) 0
      else okOut (nowNs (taken infoEcho c s)) ((c.payload.take c.payloadLen).drop 8).length (arg c 0 8) ((c.payload.take c.payloadLen).drop 8))
    (taken infoEcho c s) :=
  ready_read h _

theorem statusOf_ready (h : Ready infoStatusOf t c s) : exec (.statusOf c) s = answered infoStatusOf c s
    (statusOf (chanSt (taken infoStatusOf c s) (rootChan (taken infoStatusOf c s) 70 c.chan)) (BitVec.ofNat 32 (arg c 0 4))) (taken infoStatusOf c s) :=
  ready_read h _

/-! ## The aquifer's mode -/

/-- With no other member the aquifer has the mode of its gateway (R17). -/
theorem aquiferMode_alone {l : Nat} (h : otherMembers s l = []) : aquiferMode s l = s.mode.code := by
  simp [aquiferMode, h]

/-- With no other member there is nobody to ask, and MODE_GET's own answer is the aquifer's. -/
theorem carryAll_alone (op : OpInfo) (c : Cmd) {r : CmdRef} {l : Nat} {own : Answer} (h : otherMembers s l = []) (hr : r.op = 0x0103) :
    carryAll op c r l own s = (s, some (ok (s.mode.code * 17) 0)) := by
  simp [carryAll, h, groupReply, hr, asksModes, modesAnswer, aquiferMode_alone h]

/-- A command that has been carried nowhere, and whose answer has no output, is answered as any other. -/
theorem gathered_answered {op : OpInfo} {a : Answer} (u : State) (h : a.out = []) :
    .next (settle (gathered (refAt op c s) (u, some a))) = answered op c s a u := by
  simp [answered, back_of_noOutput h, gathered]

/-- MODE_GET at an aquifer (R17). -/
theorem modeGet_aquifer {l : Nat} (h : Arrives infoModeGet c s) (hr : Reaches c s) (ht : targetOf s c = .aquifer l)
    (hc : checks infoModeGet (.aquifer l) c (taken infoModeGet c s) = none) :
    exec (.modeGet c) s = .next (settle (gathered (refAt infoModeGet c s) (carryAll { code := 0x0103 } { c with payload := [], payloadLen := 0 }
      (refAt infoModeGet c s) l (ok (aquiferMode (taken infoModeGet c s) l * 17) 0) (taken infoModeGet c s)))) :=
  asked_run h hr ht rfl hc _ rfl

/-- IDENTIFY at an aquifer (R17, R58), its record's place aligned. -/
theorem identify_aquifer {l : Nat} (h : Arrives infoIdentify c s) (hr : Reaches c s) (ht : targetOf s c = .aquifer l) (ha : arg c 0 8 % 64 = 0)
    (hc : checks infoIdentify (.aquifer l) c (taken infoIdentify c s) = none) : let u := taken infoIdentify c s
    exec (.identify c) s = .next (settle (gathered (refAt infoIdentify c s) (carryAll { code := 0x0103 } { c with payload := [], payloadLen := 0 }
      (refAt infoIdentify c s) l (okOut Config.serial.toNat (stratumOf (.aquifer l) + 256 * indexOf u (.aquifer l) + 2 ^ 24 * modeField u (.aquifer l))
        (arg c 0 8) (statusRecord u (.aquifer l))) u))) := by
  have hne : ¬ arg c 0 8 % 64 ≠ 0 := not_not_intro ha
  have hrun : exec (.identify c) s = _ := asked_run h hr ht rfl hc _ (congrArg Answer.status (if_neg hne))
  rw [if_neg hne] at hrun
  exact hrun

/-! ## DEV_MODE -/

/-- MODE, the low field of DEV_MODE, is the mode's code (R20). -/
theorem devMode_mod_eight (s : State) : devMode s % 8 = s.mode.code := by
  have hcode : s.mode.code < 8 := by cases s.mode <;> decide
  unfold devMode
  split
  · next h => rw [h]; rfl
  · dsimp only; omega

/-! ## MODE_SET -/

/-- A well or an engine does not execute MODE_SET (R16). -/
theorem modeSet_inside (ht : (∃ w, t = .well w) ∨ ∃ e, t = .engine e) (h : Ready infoModeSet t c s) :
    exec (.modeSet c) s = answered infoModeSet c s (err stDenied 0) (taken infoModeSet c s) := by
  rcases ht with ⟨w, rfl⟩ | ⟨e, rfl⟩ <;> exact ready_run h _

/-- A device makes its own change (R22). -/
theorem modeSet_device (h : Ready infoModeSet .device c s) :
    exec (.modeSet c) s = ends infoModeSet c s (modeSetHere (refAt infoModeSet c s) c (taken infoModeSet c s)) :=
  ready_run h _

section
variable {r : CmdRef} (hopen : s.mode ≠ .shutIn)
include hopen

theorem modeSetHere_busy (h : s.transit.isSome = true ∨ s.armedMode.isSome = true) : modeSetHere r c s = (s, some (err stBusy 0)) := by
  simp only [modeSetHere, if_neg hopen, if_pos h]

variable (htransit : s.transit = none) (harmed : s.armedMode = none)
include htransit harmed

theorem modeSetHere_same (hm : modeOf (arg c 0 1 % 8) = some s.mode) : modeSetHere r c s = (s, some (ok s.mode.code 0)) := by
  simp [modeSetHere, hopen, htransit, harmed, hm]

theorem modeSetHere_begins {m : Mode} (hm : modeOf (arg c 0 1 % 8) = some m) (hne : m ≠ s.mode) (hchange : modeChange s m = .ok ()) :
    modeSetHere r c s = (if nowNs s < arg c 8 8 then { s with armedMode := some { ref := some r, target := m, atNs := arg c 8 8 } }
      else beginMode (some r) m 1 s, none) := by
  simp only [modeSetHere, hopen, htransit, harmed, hm, hne, hchange, if_false, Option.isSome_none, Bool.false_eq_true, or_self]
  split <;> rfl

theorem modeSetHere_refused {m : Mode} {a : Answer} (hm : modeOf (arg c 0 1 % 8) = some m) (hne : m ≠ s.mode)
    (hchange : modeChange s m = .error a) : modeSetHere r c s = (s, some a) := by
  simp [modeSetHere, hopen, htransit, harmed, hm, hne, hchange]

end

/-! ## RESET_UNIT -/

/-- RESET_UNIT does at a unit what the reset of that unit does (R18, R59). -/
theorem resetUnit_ready (straps : Straps) (h : Ready infoResetUnit t c s) :
    exec (.resetUnit c straps) s = ends infoResetUnit c s (resetBody straps (refAt infoResetUnit c s) t c (taken infoResetUnit c s)) :=
  ready_run h _

/-- Without PRIV no device and no aquifer resets (R18). -/
theorem resetBody_denied (straps : Straps) (r : CmdRef) (ht : t = .device ∨ ∃ l, t = .aquifer l) (hp : hasPriv s c.chan = false) :
    resetBody straps r t c s = (s, some (err stDenied 0)) := by
  rcases ht with rfl | ⟨l, rfl⟩ <;> simp [resetBody, hp]

/-- With PRIV a device's reset is due once the reply has gone out (R59). -/
theorem resetBody_due (straps : Straps) (r : CmdRef) (hp : hasPriv s c.chan = true) :
    resetBody straps r .device c s = ({ s with boot := { s.boot with resetDue := some straps } }, some (ok 0 0)) := by
  simp [resetBody, hp]

end Sys2Proof.Machine
end

section
/-! SUPPORT. The obligations on the common core. -/

namespace Sys2Proof.Machine

open Sys2Proof

/-- Settles O25, row by row; a gateway alone in its aquifer has nobody to ask. -/
theorem coreReadsAnswer : Obligations.CoreReadsAnswer := by
  intro t c s
  refine ⟨fun h haligned => ?_, fun h hodd => ?_, capability_ready, modeGet_ready, fun l harr hreach ht hc => ⟨?_, fun halone => ?_⟩,
    fun l harr hreach ht haligned hc => identify_aquifer harr hreach ht haligned hc, echo_ready, statusOf_ready⟩
  · rw [identify_ready h, if_neg (not_not_intro haligned)]
  · rw [identify_ready h, if_pos hodd]
    rfl
  · exact modeGet_aquifer harr hreach ht hc
  · rw [modeGet_aquifer harr hreach ht hc, carryAll_alone _ _ halone rfl, gathered_answered _ rfl, taken_mode]

/-- Settles O26: the answer at a well or an engine is the device's, and MODE_SET there is refused by its body. -/
theorem wellsHaveNoMode : Obligations.WellsHaveNoMode := by
  intro t c s ht
  refine ⟨fun h => ⟨modeGet_ready h, ?_⟩, fun h => modeSet_inside ht h⟩
  rw [devMode_mod_eight, taken_mode]

/-- Settles O27, one case per outcome of MODE_SET at a device out of SHUT-IN. -/
theorem modeSetAtADevice : Obligations.ModeSetAtADevice := by
  intro c s h hshut
  have hopen : (taken infoModeSet c s).mode ≠ .shutIn := by rwa [taken_mode]
  rw [modeSet_device h, ← taken_mode infoModeSet c s]
  refine ⟨fun hbusy => ?_, fun htransit harmed hm => ?_, fun m htransit harmed hm hne hchange => ?_, fun m a htransit harmed hm hne hchange => ?_⟩
  · rw [modeSetHere_busy hopen hbusy]
    rfl
  · rw [modeSetHere_same hopen htransit harmed hm]
    rfl
  · rw [modeSetHere_begins hopen htransit harmed hm hne hchange]
    rfl
  · rw [modeSetHere_refused hopen htransit harmed hm hne hchange]
    rfl

/-- Settles O30, one case per unit and right. -/
theorem resetUnitScopes : Obligations.ResetUnitScopes := by
  intro t c straps s h
  rw [resetUnit_ready straps h]
  refine ⟨?_, ?_, fun ht hp => ?_, fun l ht hp => ?_, ?_⟩
  · rintro w rfl
    rfl
  · rintro e rfl
    rfl
  · rw [resetBody_denied straps _ (.inl ht) hp]
    rfl
  · rw [resetBody_denied straps _ (.inr ⟨l, ht⟩) hp]
    rfl
  · rintro rfl hp
    rw [resetBody_due straps _ hp]
    rfl

end Sys2Proof.Machine
end

section
/-! SUPPORT. Command packets on a channel of their own (R36 to R46): the CRC, the sequence window, and the ways a packet that the device reads can
go, with the obligations on them. -/

namespace Sys2Proof.Machine

open Sys2Proof

variable {i : Instr} {op : OpInfo} {c : Cmd} {s : State}

/-! ## The CRC of a packet (R38, R39) -/

@[simp] theorem toLe_length (n v : Nat) : (toLe n v).length = n := by
  induction n generalizing v with
  | zero => rfl
  | succ n ih => simp [toLe, ih]

theorem headerBytes_length (op : Nat) (c : Cmd) : (headerBytes op c).length = 60 := by
  have hhops : (((List.range 7).map fun i => toLe 2 (c.hops.getD i 0)).flatten).length = 14 := by
    simp [List.length_flatten, List.map_map, Function.comp_def]
  simp only [headerBytes, List.length_append, toLe_length, hhops]

/-- A payload that is as long as it says is covered whole. -/
theorem cmdCrc_whole (op : Nat) {c : Cmd} (h : c.payload.length = c.payloadLen) : cmdCrc op c = crc32c (headerBytes op c ++ c.payload) :=
  congrArg (fun b => crc32c (headerBytes op c ++ b)) (List.take_of_length_le (Nat.le_of_eq h))

theorem cmdGood_iff (op : Nat) (c : Cmd) : cmdGood op c = true ↔
    c.bad = false ∧ c.payload.length = c.payloadLen ∧ crc32c (headerBytes op c ++ c.payload) = c.crc.toNat := by
  simp only [cmdGood, Bool.and_eq_true, Bool.not_eq_true', decide_eq_true_eq, and_assoc]
  exact and_congr_right fun _ => and_congr_right fun hlen => Eq.congr_left (cmdCrc_whole op hlen)

/-- A step of the CRC shifts one bit out, and adds the polynomial when it was 1. -/
theorem crcBit_eq (poly x : Nat) : crcBit poly x = Nat.xor (x / 2) (x % 2 * poly) := by
  unfold crcBit
  rcases Nat.mod_two_eq_zero_or_one x with h | h
  · simp only [h, zero_ne_one, if_false, zero_mul]
    exact (Nat.xor_zero _).symm
  · simp only [h, if_true, one_mul]

/-- Settles O8: the CRC is written out bit by bit, and a whole payload is covered whole. -/
theorem crcOfACommand : Obligations.CrcOfACommand :=
  ⟨by decide +kernel, fun _ => rfl, fun _ _ => rfl, crcBit_eq _, fun op c => ⟨headerBytes_length op c, cmdGood_iff op c⟩⟩

/-! ## The sequence window (R46) -/

section
variable {st : ChanSt} {seq h : Word}

theorem window_unused (hlast : st.last = none) : window st seq = none := by
  simp [window, hlast]

variable (hlast : st.last = some h)
include hlast

theorem window_new (hd : 0x80000000 ≤ (h - seq).toNat) : window st seq = none := by
  simp only [window, hlast, if_pos hd]

theorem window_evicted (hlo : 64 ≤ (h - seq).toNat) (hhi : (h - seq).toNat < 0x80000000) :
    window st seq = some { status := stDuplicate, detail := 0xFE } := by
  simp only [window, hlast, if_neg (Nat.not_le.mpr hhi), if_neg (Nat.not_lt.mpr hlo)]

variable (hd : (h - seq).toNat < 64)
include hd

theorem window_cached {a : Answer} (hc : st.cache.find? (fun q => decide (q.1 = seq)) = some (seq, a)) :
    window st seq = some { status := stDuplicate, detail := a.status, r0 := a.r0, r1 := a.r1 } := by
  have hold : ¬ 0x80000000 ≤ (h - seq).toNat := by omega
  simp only [window, hlast, if_neg hold, if_pos hd, hc]

theorem window_uncached (hc : st.cache.find? (fun q => decide (q.1 = seq)) = none) :
    window st seq = some { status := stDuplicate, detail := if st.running.any (fun q => decide (q.ref.seq = seq)) then 0xFF else 0xFE } := by
  have hold : ¬ 0x80000000 ≤ (h - seq).toNat := by omega
  simp only [window, hlast, if_neg hold, if_pos hd, hc]
  split <;> rfl

end

/-- The window answers nothing but DUPLICATE. -/
theorem window_status {st : ChanSt} {seq : Word} {a : Answer} (h : window st seq = some a) : a.status = stDuplicate := by
  unfold window at h
  split at h
  · cases h
  · dsimp only at h
    split at h
    · cases h
    · split at h
      · split at h
        · cases h; rfl
        · split at h <;> (cases h; rfl)
      · cases h; rfl

/-- Settles O11, one case per range of the distance. -/
theorem sequenceWindow : Obligations.SequenceWindow := by
  intro st seq
  refine ⟨window_unused, fun h hlast => ⟨window_new hlast, fun hd a hc => window_cached hlast hd hc, window_uncached hlast, window_evicted hlast⟩⟩

/-! ## The ways of a packet that the device reads (R36, R37, R40, R46) -/

/-- Whatever all bodies make of a packet is what its row makes of it. -/
theorem row_settles {u : State} (hrow : rowOf i = some (op, c)) (h : ∀ body, runCommand op body c s = u) : exec i s = .next (settle u) := by
  obtain ⟨body, hbody⟩ := row_runs hrow
  rw [hbody, h body, done]

/-- A packet on a channel of its own that starts no accepted command is looked at when the device reads the channel. -/
theorem runCommand_own (hown : ∀ e, c.chan ≠ .fwd e) (hstart : startsNow op c s = false) (body : Body) :
    runCommand op body c s = if readable s c.chan then takeCommand op body c s else s := by
  unfold runCommand
  split
  · next e he => exact absurd he (hown e)
  · cases hread : readable s c.chan <;> simp [hstart]

/-- A SEQ that no command of the channel still waits to start under starts none. -/
theorem startsNow_eq_false (h : ∀ q ∈ (chanSt s c.chan).running, q.ref.seq = c.seq → q.stage ≠ 0) : startsNow op c s = false := by
  unfold startsNow
  refine Bool.and_eq_false_imp.mpr fun hany => absurd hany ?_
  simp only [List.any_eq_true, Bool.and_eq_true, decide_eq_true_eq, beq_iff_eq, not_exists, not_and]
  exact fun q hq ⟨⟨hseq, hstage⟩, _⟩ => absurd hstage (h q hq hseq)

theorem takeCommand_noCredit (h : replyCredits s c.chan 0 = 0) (body : Body) : takeCommand op body c s = s := by
  simp only [takeCommand, if_pos h]

section
variable (hcredit : replyCredits s c.chan 0 ≠ 0)
include hcredit

theorem takeCommand_bad (hbad : cmdGood op.code c = false) (body : Body) : takeCommand op body c s = badCheck c.chan c.seq s := by
  simp only [takeCommand, if_neg hcredit, hbad, Bool.not_false, if_true]

variable (hgood : cmdGood op.code c = true)
include hgood

theorem takeCommand_duplicate {a : Answer} (hw : window (chanSt s c.chan) c.seq = some a) (body : Body) :
    takeCommand op body c s = deliverReply (refAt op c s) a (reportAccepted c.chan c.seq s) := by
  simp only [takeCommand, if_neg hcredit, hgood, Bool.not_true, Bool.false_eq_true, if_false, hw]

theorem takeCommand_held (hw : window (chanSt s c.chan) c.seq = none)
    (hheld : heldOff (chanSt (taken op c s) c.chan) (opClass op.code) (unitCode (targetOf s c)) c.fence c.seq = true) (body : Body) :
    takeCommand op body c s = taken op c s := by
  simp only [takeCommand, if_neg hcredit, hgood, Bool.not_true, Bool.false_eq_true, if_false, hw]
  exact if_pos hheld

end

/-! ## A packet whose CRC fails (R40) -/

theorem counterOf_count (n : Nat) {s : State} (h : s.mode ≠ .dry) : counterOf (count n s) n = counterOf s n + 1 := by
  unfold counterOf count countBy
  rw [if_neg h]
  exact store_get_upd_same (0 : BitVec 64) n (· + 1) s.counters

/-- The sideband transport has no error path: the failure is counted, and no more. -/
theorem badCheck_sideband (seq : Word) (s : State) : badCheck .sideband seq s = count (cDev 0) s := rfl

/-- Settles O9: a failed CRC decides before the window is asked. -/
theorem badCrcIsNotExecuted : Obligations.BadCrcIsNotExecuted := by
  intro i op c s hrow hown hread hcredit hstart hbad
  have hout := outward_badCheck c.chan c.seq s
  refine ⟨row_settles hrow fun body => ?_, hout.chans, hout.units, fun hside hdry => ?_⟩
  · rw [runCommand_own hown hstart, if_pos hread, takeCommand_bad hcredit hbad]
  · rw [hside, badCheck_sideband, counterOf_count _ hdry]

/-- Settles O10: the window's answer is delivered, and the body does not run. -/
theorem duplicateIsNotExecuted : Obligations.DuplicateIsNotExecuted := by
  intro i op c s a hrow hown hread hcredit hgood hw hstages
  refine ⟨window_status hw, row_settles hrow fun body => ?_⟩
  rw [runCommand_own hown (startsNow_eq_false hstages), if_pos hread, takeCommand_duplicate hcredit hgood hw]

/-! ## Acceptance order (R36, R37) -/

/-- A command whose SEQ runs nowhere on its channel is recorded behind all that run there. -/
theorem running_taken_append (op : OpInfo) (hnew : ∀ p ∈ (chanSt s c.chan).running, p.ref.seq ≠ c.seq) :
    (chanSt (taken op c s) c.chan).running = (chanSt s c.chan).running ++
      [{ ref := refAt op c s, stage := 0, since := s.time.t, timeoutUs := timeoutOf c, held := some c }] := by
  have hchans : (taken op c s).chans = (accept (refAt op c s) c s).chans := (outward_reportAccepted _ _ _).chans
  have hkeep : (chanSt s c.chan).running.filter (fun q => !(decide (q.ref.seq = c.seq))) = (chanSt s c.chan).running :=
    List.filter_eq_self.mpr fun p hp => by simp [hnew p hp]
  calc (chanSt (taken op c s) c.chan).running
      = (chanSt (accept (refAt op c s) c s) c.chan).running := by rw [chanSt, hchans, chanSt]
    _ = (chanSt s c.chan).running.filter (fun q => !(decide (q.ref.seq = c.seq))) ++
          [{ ref := refAt op c s, stage := 0, since := s.time.t, timeoutUs := timeoutOf c, held := some c }] := by
        rw [chanSt, accept_chans, ← chanSt]
        exact congrArg ChanSt.running (chanSt_updChan c.chan _ s)
    _ = _ := by rw [hkeep]

/-- One command ahead of a SEQ is enough to hold it off: one not started, one of its class and unit, or any under FENCE. -/
theorem heldOff_of_ahead {st : ChanSt} {l r : List Running} {q : Running} {cls unit : Nat} {fence : Bool} {seq : Word} (hst : st.running = l ++ r)
    (hl : ∀ p ∈ l, p.ref.seq ≠ seq) (hq : q ∈ l) (hwhy : fence = true ∨ q.stage = 0 ∨ (opClass q.ref.op = cls ∧ q.ref.unit = unit)) :
    heldOff st cls unit fence seq = true := by
  have hmem : q ∈ st.running.takeWhile fun p => !(decide (p.ref.seq = seq)) := by
    rw [hst, List.takeWhile_append_of_pos fun p hp => by simp [hl p hp]]
    exact List.mem_append_left _ hq
  refine List.any_eq_true.mpr ⟨q, hmem, ?_⟩
  rcases hwhy with h | h | ⟨hclass, hunit⟩
  · simp [h]
  · simp [h]
  · simp [hclass, hunit]

/-- Settles O12: without a credit the packet stays, and behind a command that holds it off it is recorded and no more. -/
theorem startsInAcceptanceOrder : Obligations.StartsInAcceptanceOrder := by
  refine ⟨fun i op c s hrow hown hstart hcredit => row_settles hrow fun body => ?_, fun i op c s q hrow hown hread hcredit hgood hw hnew hq hwhy => ?_⟩
  · rw [runCommand_own hown hstart, takeCommand_noCredit hcredit, ite_self]
  · have hrunning := running_taken_append op hnew
    have hstart : startsNow op c s = false := startsNow_eq_false fun p hp hseq => absurd hseq (hnew p hp)
    refine ⟨row_settles hrow fun body => ?_, (answers_taken op c s).units, by rw [hrunning]; simp⟩
    rw [runCommand_own hown hstart, if_pos hread, takeCommand_held hcredit hgood hw (heldOff_of_ahead hrunning hnew hq hwhy)]

end Sys2Proof.Machine
end

section
/-! SUPPORT. The checks of R45 in their order, and the rights of a channel (R35, R69, R70), with the obligations on them. -/

namespace Sys2Proof.Machine

open Sys2Proof

variable {op : OpInfo} {c : Cmd} {s : State}

/-! ## What each check answers once those before it have passed -/

/-- Every row of the table is an opcode that exists. -/
theorem rowOf_known {i : Instr} (h : rowOf i = some (op, c)) : op.known = true := by
  cases i <;> cases h <;> rfl

section
variable (hclass : classAbsent op s = false) (hknown : op.known = true)
include hclass hknown

/-- At a device that has the units of the opcode's class the length is the first of the checks that can fail. -/
theorem checks_badLength (hlen : op.len c = false ∨ (c.inl = true ∧ 4096 < c.payloadLen) ∨ 65536 < c.payloadLen) :
    checks op .device c s = some (err stBadLength 0) := by
  have hbad : ((c.inl && decide (4096 < c.payloadLen)) || decide (65536 < c.payloadLen) || !op.len c) = true := by
    rcases hlen with h | ⟨hinl, h⟩ | h
    · simp [h]
    · simp [hinl, h]
    · simp [h]
  simp only [checks, hclass, hknown, hbad, Target.isAquifer, reduceCtorEq, if_false, Bool.false_eq_true, Bool.false_and, bne_self_eq_false,
    Bool.and_false, Bool.not_true, if_true]

variable (hlen : op.len c = true) (hshort : c.payloadLen ≤ 4096)
include hlen hshort

/-- A packet of the right length, within 4,096 bytes, comes to the checks of its channel and of the mode. -/
theorem checks_of_length : checks op .device c s =
    if onVfRing c.chan && !vfAllowed op c then some (err stDenied 4)
    else if op.noPath && c.pathLen != 0 then some (err stBadPath 0)
    else if op.priv && !hasPriv s c.chan then some (err stDenied 3)
    else if openRefused op c.chan then some (err stDenied 0)
    else if !op.modes.contains s.mode then some (err stState (op.modeDetail c))
    else if op.gated && s.transit.any (·.gate) then some (err stBusy 0)
    else none := by
  have hgood : ((c.inl && decide (4096 < c.payloadLen)) || decide (65536 < c.payloadLen) || !op.len c) = false := by
    simp [hlen, Nat.not_lt.mpr hshort, Nat.not_lt.mpr (hshort.trans (by decide : 4096 ≤ 65536))]
  simp only [checks, hclass, hknown, hgood, Target.isAquifer, reduceCtorEq, if_false, Bool.false_eq_true, Bool.false_and, bne_self_eq_false,
    Bool.and_false, Bool.not_true]

theorem checks_vfRing (hring : onVfRing c.chan = true) (hvf : op.vf = false) : checks op .device c s = some (err stDenied 4) := by
  rw [checks_of_length hclass hknown hlen hshort]
  simp [hring, vfAllowed, hvf]

/-- On the sideband transport, which has PRIV and is neither a ring nor an open channel, the mode is the next to decide. -/
theorem checks_sideband (hside : c.chan = .sideband) (hpath : c.pathLen = 0) : checks op .device c s =
    if !op.modes.contains s.mode then some (err stState (op.modeDetail c))
    else if op.gated && s.transit.any (·.gate) then some (err stBusy 0)
    else none := by
  have hpriv : hasPriv s .sideband = true := rfl
  rw [checks_of_length hclass hknown hlen hshort, hside]
  simp only [onVfRing, openRefused, hpriv, hpath, Bool.false_and, Bool.not_true, Bool.and_false, bne_self_eq_false, Bool.false_eq_true, if_false]

end

/-- A packet whose path leads nowhere is answered at the unit that reads it, with nothing executed (R52). -/
theorem badPath_run (h : Arrives op c s) (hr : Reaches c s) (ht : targetOf s c = .badPath) (body : Body) :
    done (runCommand op body c s) = answered op c s (err stBadPath 0) (taken op c s) := by
  obtain ⟨htime, hentries⟩ := hr
  have hleft : (timeLeft (movesOf s c) (timeoutOf c * 1000)).isNone = false := by
    rw [Option.isNone_eq_false_iff, Option.isSome_iff_ne_none]
    exact htime
  have hroom : ¬ (0 < movesOf s c ∧ 256 < (s.fwd.filter fun x => !x.timedOut).length + movesOf s c) := by
    rcases hentries with e | e <;> omega
  have hplace := samePlace_taken op c s
  rw [arrives_run h]
  simp only [execute, hplace.movesOf, hplace.fwd, remaining_taken h, hleft, Bool.false_eq_true, if_false, if_neg hroom, ht, answered,
    back_of_noOutput (show (err stBadPath 0).out = [] from rfl), done]

/-- Taking a command of the sideband transport, which is told nothing, overtakes no change of mode. -/
theorem taken_transit_sideband (op : OpInfo) (s : State) (hside : c.chan = .sideband) : (taken op c s).transit = s.transit := by
  unfold taken
  rw [hside]
  rfl

/-- Settles O13: the path and the unit first, then the checks of R45 one after the other. -/
theorem checksInOrder : Obligations.ChecksInOrder := by
  intro i op c s hrow harr hreach
  obtain ⟨body, hbody⟩ := row_runs hrow
  have hknown := rowOf_known hrow
  have hplace := (samePlace_taken op c s).classAbsent op
  refine ⟨fun ht => ?_, fun ht => ?_, fun ht => ?_⟩
  · rw [hbody]
    exact badPath_run harr hreach ht body
  · rw [hbody]
    exact refused_run harr hreach ⟨by simp [ht], by simp [ht]⟩ (checks_of_absent (.inl ht) c) body
  have refuse {a : Answer} (hc : checks op .device c (taken op c s) = some a) : exec i s = answered op c s a (taken op c s) := by
    rw [hbody]
    exact refused_run harr hreach ⟨by simp [ht], by simp [ht]⟩ (ht ▸ hc) body
  refine ⟨fun hclass => refuse (checks_of_absent (.inr (hplace.trans hclass)) c), fun hclass => ?_⟩
  have hhere := hplace.trans hclass
  refine ⟨fun hlen => refuse (checks_badLength hhere hknown hlen), fun hlen hshort hpath => ⟨fun hring hvf => ?_, fun hside hmode => ?_,
    fun hside hmode hgated hgate => ?_⟩⟩
  · exact refuse (checks_vfRing hhere hknown hlen hshort hring hvf)
  · refine refuse ?_
    rw [checks_sideband hhere hknown hlen hshort hside hpath, taken_mode, hmode]
    rfl
  · refine refuse ?_
    rw [checks_sideband hhere hknown hlen hshort hside hpath, taken_mode, hmode, taken_transit_sideband op s hside, hgated, hgate]
    rfl

/-! ## Rights (R35, R69, R70) -/

/-- The channel by which the outermost FORWARD came is read from the forwarding entries. -/
theorem rootChan_congr {t : State} (hfwd : t.fwd = s.fwd) (n : Nat) (ch : Chan) : rootChan t n ch = rootChan s n ch := by
  induction n generalizing ch with
  | zero => cases ch <;> rfl
  | succ n ih => cases ch <;> simp only [rootChan, hfwd, ih]

theorem hasPriv_congr {t : State} (hfwd : t.fwd = s.fwd) (htab : t.chanTab = s.chanTab) (ch : Chan) : hasPriv t ch = hasPriv s ch := by
  unfold hasPriv chanEntry
  rw [rootChan_congr hfwd, htab]

/-- A command whose checks pass has its rights. -/
theorem rights_of_checks {t : Target} (h : checks op t c s = none) :
    (op.priv = true → hasPriv s c.chan = true) ∧ openRefused op c.chan = false ∧ op.modes.contains s.mode = true := by
  simp only [checks, ite_eq_iff, reduceCtorEq, and_false, false_or] at h
  obtain ⟨-, -, -, -, -, -, -, -, hpriv, hopen, hmode, -⟩ := h
  refine ⟨fun hp => ?_, by simpa using hopen, by simpa using hmode⟩
  simpa [hp] using hpriv

/-- Settles O18: in no state that differs only in what a reply changes do the checks pass, so the body never runs. -/
theorem noRightNoEffect : Obligations.NoRightNoEffect := by
  intro i op c s t hrow hright hquiet hexec
  obtain ⟨body, hbody⟩ := row_runs hrow
  have hrefused : ∀ u x, Kept s u → u.fwd = s.fwd → checks op x c u ≠ none := by
    intro u x hkept hfwd hpass
    obtain ⟨hpriv, hopen, hmode⟩ := rights_of_checks hpass
    rw [hasPriv_congr hfwd hkept.units.chanTab] at hpriv
    rw [hkept.units.mode] at hmode
    rcases hright with ⟨hneeds, hlacks⟩ | hwrong | hclosed
    · exact absurd (hpriv hneeds) (by simp [hlacks])
    · exact absurd hmode (by rw [hwrong]; decide)
    · exact absurd hclosed (by simp [hopen])
  exact sameUnits_done (kept_runCommand (.inr hrefused)) hquiet (hbody s ▸ hexec)

end Sys2Proof.Machine
end

section
/-! SUPPORT. Forwarding, channel binding and time-outs (R49 to R56, R72), and mailboxes (R62 to R74), with the obligations on them. -/

namespace Sys2Proof.Machine

open Sys2Proof

variable {t : Target} {c : Cmd} {s : State}

/-! ## FORWARD (R56) -/

/-- FORWARD issues its inner command at a forwarding entry and runs on, or answers when there is none to be had. -/
def forwardBody (fuel : Nat) : Body := fun r t c s =>
  match innerEntry r t c.payload s with
  | .error a => (s, some a)
  | .ok (n, s) => (runInner (forwardN fuel) n c.payload s, none)

theorem exec_forward (c : Cmd) (s : State) : exec (.forward c) s = done (runCommand forwardInfo (forwardBody 65) c s) := rfl

theorem forward_issued (h : Ready forwardInfo t c s) {n : Nat} {v : State}
    (hentry : innerEntry (refAt forwardInfo c s) t c.payload (taken forwardInfo c s) = .ok (n, v)) :
    exec (.forward c) s = runsOn forwardInfo c s (runInner (forwardN 65) n c.payload v) := by
  rw [exec_forward, ready_run h, forwardBody, hentry]
  rfl

theorem forward_refused (h : Ready forwardInfo t c s) {a : Answer}
    (hentry : innerEntry (refAt forwardInfo c s) t c.payload (taken forwardInfo c s) = .error a) :
    exec (.forward c) s = answered forwardInfo c s a (taken forwardInfo c s) := by
  rw [exec_forward, ready_run h, forwardBody, hentry]
  rfl

/-! ## CHANNEL_BIND (R72, R73) -/

/-- The entry of a channel that may be bound replaces the channel's own, and the channel starts afresh. -/
theorem channelBind_binds (h : Ready infoChannelBind t c s) {u : State} (hu : taken infoChannelBind c s = u) {e : ChanEntry}
    (he : readEntry (slice c.payload 16 16) = e) (hserved : u.served = false) (hlo : 1030 ≤ arg c 0 8) (hhi : arg c 0 8 ≤ 4095) (hvalid : e.valid = true)
    (hboxLo : 2056 ≤ e.box) (hboxHi : e.box ≤ 2071) (hA : masterOk u e.masterA = true) (hB : masterOk u e.masterB = true) :
    exec (.channelBind c) s = answered infoChannelBind c s (ok 0 0)
      { resetChan (.mailbox (arg c 0 8)) u with chanTab := Store.set {} (arg c 0 8) e (resetChan (.mailbox (arg c 0 8)) u).chanTab } := by
  have hown : ¬ arg c 0 8 ≤ 1029 := by omega
  have hfields : ¬ (4095 < arg c 0 8 ∨ (e.valid ∧ (e.box < 2056 ∨ 2071 < e.box ∨ !masterOk u e.masterA ∨ !masterOk u e.masterB))) := by
    simp only [hA, hB, Bool.not_true, Bool.false_eq_true, or_false]
    omega
  have hrun : exec (.channelBind c) s = _ := ready_run h _
  rw [hrun, hu]
  simp only [answer, he, hserved, Bool.false_eq_true, if_false, if_neg hown, if_neg hfields, if_pos hvalid]
  rfl

/-! ## Replies and time-outs (R49 to R51, R54) -/

theorem forwardedReply_arrives {e : Nat} {x : FwdEntry} (r : Reply) (hentry : s.fwd.find? (fun (y : FwdEntry) => y.num == e) = some x) :
    exec (.forwardedReply e r) s = .next (settle
      (replyArrives x { status := r.status, detail := r.detail, r0 := r.r0, r1 := r.r1, out := r.out.take 4096 } s)) := by
  show execForwardedReply e r s = _
  simp only [execForwardedReply, hentry]
  rfl

theorem commandTimeout_sideband {seq : Word} {q : Running} (hruns : timeRuns s = true)
    (hq : (chanSt s .sideband).running.find? (fun q => decide (q.ref.seq = seq)) = some q) :
    exec (.commandTimeout .sideband seq) s = .next (settle (timeOut q.ref q.stage (advanceTo (q.since + q.timeoutUs * 65536000) s))) := by
  show execCommandTimeout .sideband seq s = _
  delta execCommandTimeout
  simp only [hruns, Bool.not_true, Bool.false_eq_true, if_false, hq, done]

/-- Settles O31, row by row. -/
theorem forwardingAndBinding : Obligations.ForwardingAndBinding := by
  intro t c s
  exact ⟨fun h => ⟨fun n v => forward_issued h, fun a => forward_refused h⟩, channelBind_binds (hu := rfl) (he := rfl),
    fun e x r hentry => forwardedReply_arrives r hentry, fun seq q hruns hq => commandTimeout_sideband hruns hq⟩

/-! ## A late reply (R51) -/

/-- An answer that is no INTERNAL is counted against its unit and nowhere else. -/
theorem countAnswer_frame (unit : Nat) {status : Nat} (h : status ≠ stInternal) (s : State) :
    ∃ failed, countAnswer unit status s = { s with cmdFailed := failed } := by
  unfold countAnswer
  dsimp only
  rw [if_neg h]
  split
  · exact ⟨s.cmdFailed, rfl⟩
  · exact ⟨_, rfl⟩

theorem chanFn_congr {t : State} (hfwd : t.fwd = s.fwd) (hboxes : t.boxes = s.boxes) (htab : t.chanTab = s.chanTab) (ch : Chan) :
    chanFn t ch = chanFn s ch := by
  unfold chanFn boxAt chanEntry
  rw [rootChan_congr hfwd, hboxes, htab]

/-- The answer of an inner command whose FORWARD has timed out: the entry goes, and the function that waited for it counts (R51). -/
theorem replyN_timedOut (n : Nat) {r : CmdRef} {a : Answer} {e : Nat} {x : FwdEntry} {f : Nat} (hchan : r.chan = .fwd e)
    (hentry : s.fwd.find? (fun x => x.num == e) = some x) (hlate : x.timedOut = true)
    (hfn : chanFn { s with fwd := s.fwd.filter fun y => y.num != e } x.origin.chan = some f) (hstatus : a.status ≠ stInternal) :
    ∃ failed, replyN (n + 1) r a s = count (cFn f 9) { s with fwd := s.fwd.filter fun y => y.num != e, cmdFailed := failed } := by
  obtain ⟨failed, hcount⟩ := countAnswer_frame r.unit hstatus { s with fwd := s.fwd.filter fun y => y.num != e }
  have hfn' : chanFn { s with fwd := s.fwd.filter fun y => y.num != e, cmdFailed := failed } x.origin.chan = some f := by
    refine (chanFn_congr ?_ ?_ ?_ _).trans hfn <;> rfl
  refine ⟨failed, ?_⟩
  simp only [replyN, hchan, hentry, hlate, if_true, hcount, hfn']

/-- Settles O32: what is left of a late reply is a count, which reaches no unit. -/
theorem lateReplyIsDiscarded : Obligations.LateReplyIsDiscarded := by
  intro r a e x f s hchan hentry hlate hfn hdry hstatus
  have hunits : SameUnits s (reply r a s) := (answers_reply r a s).units
  obtain ⟨failed, hreply⟩ := replyN_timedOut 69 hchan hentry hlate hfn hstatus
  rw [← reply] at hreply
  have hcounts : reply r a s = { s with fwd := s.fwd.filter fun y => y.num != e, cmdFailed := failed, counters := (reply r a s).counters } := by
    rw [hreply, count, countBy, if_neg hdry]
  refine ⟨by rw [hcounts], by rw [hcounts], by rw [hcounts], hunits, ?_⟩
  rw [hreply]
  exact counterOf_count _ hdry

/-! ## The mailbox rows (R65, R66) -/

/-- A posted write of a function that reaches the registers does what the register does. -/
theorem onHostWrite_up {fn : Nat} (h : HostUp fn s) (k : State → State) : onHostWrite fn k s = k s := by
  obtain ⟨hdry, hdormant, hfrozen, hlive⟩ := h
  simp only [onHostWrite, if_neg hdry, hfrozen, if_neg hdormant, hlive, Bool.not_true, Bool.false_eq_true, if_false]

theorem mboxTimeout_pending {b : Nat} (hdry : s.mode ≠ .dry) (hpending : (boxAt s b).status.getLsbD 0 = true) (htmo : (boxAt s b).tmo ≠ 0) :
    exec (.mboxTimeout b) s = .next (settle (updBox b
      (fun m => { m with status := (m.status &&& ~~~1#32) ||| 8#32, kind := 0, tmoSeq := some (noticeSeq m) }) s)) := by
  have hdue : ¬ (s.mode = .dry ∨ !(boxAt s b).status.getLsbD 0 ∨ (boxAt s b).tmo = 0) := by
    rintro (h | h | h)
    · exact hdry h
    · rw [hpending] at h
      exact absurd h (by decide)
    · exact htmo h
  show execMboxTimeout b s = _
  simp only [execMboxTimeout, if_neg hdue]
  rfl

/-- Settles O33, row by row. -/
theorem mailboxRows : Obligations.MailboxRows := by
  intro fn b value s
  refine ⟨fun hup => ⟨?_, ?_⟩, mboxTimeout_pending⟩
  · show done (onHostWrite fn (ringBox fn b value) s) = _
    rw [onHostWrite_up hup, done]
  · show done (onHostWrite fn (ackWrite fn b value) s) = _
    rw [onHostWrite_up hup, done]

/-! ## Ringing a box (R65, R70, R74) -/

section
variable {fn b : Nat} {value : Word} (hb : b ≤ 2071)
include hb

theorem ringBox_hidden (hview : boxView s fn b = none) :
    ringBox fn b value s = if strangerTo s fn b then denyStranger b (refuseRing b 4 s) else badAccess s := by
  simp only [ringBox, if_neg (Nat.not_lt.mpr hb), hview]

variable {send : Bool} (hview : boxView s fn b = some send)
include hview

/-- A ring at a box that the writer's windows show is refused at the first check that fails, or sets PENDING. -/
theorem ringBox_shown : ringBox fn b value s =
    if (boxAt s b).status.getLsbD 0 then refuseRing b 1 s
    else if 1 < value.toNat % 4 then refuseRing b 2 s
    else if (boxAt s b).notice.toNat % 65536 = 0 then refuseRing b 3 s
    else if !send then refuseRing b 4 s
    else if value.toNat % 4 = 1 ∧ !boxCommands s fn b then count (cDev 2) (refuseRing b 4 s)
    else ringReceiver b (updBox b
      (fun m => { m with status := m.status ||| 1#32, kind := value.toNat % 4, ringer := BitVec.ofNat 32 (ridOf s fn), tmoSeq := none }) s) := by
  simp only [ringBox, if_neg (Nat.not_lt.mpr hb), hview]

theorem ringBox_pending (hpending : (boxAt s b).status.getLsbD 0 = true) : ringBox fn b value s = refuseRing b 1 s := by
  rw [ringBox_shown hb hview, if_pos hpending]

variable (hidle : (boxAt s b).status.getLsbD 0 = false)
include hidle

theorem ringBox_badKind (hkind : 2 ≤ value.toNat % 4) : ringBox fn b value s = refuseRing b 2 s := by
  rw [ringBox_shown hb hview, if_neg (ne_true_of_eq_false hidle), if_pos (by omega)]

theorem ringBox_empty (hkind : value.toNat % 4 < 2) (hlen : (boxAt s b).notice.toNat % 65536 = 0) : ringBox fn b value s = refuseRing b 3 s := by
  rw [ringBox_shown hb hview, if_neg (ne_true_of_eq_false hidle), if_neg (by omega), if_pos hlen]

variable (hlen : (boxAt s b).notice.toNat % 65536 ≠ 0)
include hlen

theorem ringBox_notSender (hkind : value.toNat % 4 < 2) (hsend : send = false) : ringBox fn b value s = refuseRing b 4 s := by
  rw [ringBox_shown hb hview, if_neg (ne_true_of_eq_false hidle), if_neg (by omega), if_neg hlen, if_pos (by simp [hsend])]

variable (hsend : send = true)
include hsend

theorem ringBox_noCommands (hkind : value.toNat % 4 = 1) (hcmds : boxCommands s fn b = false) :
    ringBox fn b value s = count (cDev 2) (refuseRing b 4 s) := by
  rw [ringBox_shown hb hview, if_neg (ne_true_of_eq_false hidle), if_neg (by omega), if_neg hlen, if_neg (by simp [hsend]),
    if_pos ⟨hkind, by simp [hcmds]⟩]

theorem ringBox_rings (hkind : value.toNat % 4 < 2) (hcmds : value.toNat % 4 = 1 → boxCommands s fn b = true) :
    ringBox fn b value s = ringReceiver b (updBox b
      (fun m => { m with status := m.status ||| 1#32, kind := value.toNat % 4, ringer := BitVec.ofNat 32 (ridOf s fn), tmoSeq := none }) s) := by
  have htakes : ¬ (value.toNat % 4 = 1 ∧ (!boxCommands s fn b) = true) := fun ⟨hone, hnot⟩ => by simp [hcmds hone] at hnot
  rw [ringBox_shown hb hview, if_neg (ne_true_of_eq_false hidle), if_neg (by omega), if_neg hlen, if_neg (by simp [hsend]), if_neg htakes]

end

/-- Settles O34, one case per refusal of R65 in their order. -/
theorem mailboxRing : Obligations.MailboxRing := by
  intro fn b value s hb
  refine ⟨fun hview => ⟨fun hstranger => ?_, fun hstranger => ?_⟩, fun send hview => ⟨ringBox_pending hb hview, fun hidle => ?_⟩⟩
  · rw [ringBox_hidden hb hview, if_pos hstranger]
  · rw [ringBox_hidden hb hview, if_neg (ne_true_of_eq_false hstranger)]
  · refine ⟨ringBox_badKind hb hview hidle, ringBox_empty hb hview hidle, fun hkind hlen => ringBox_notSender hb hview hidle hlen hkind,
      fun hkind hlen hsend => ringBox_noCommands hb hview hidle hlen hsend hkind, fun k hk hkind hcmds hlen hsend => ?_⟩
    subst hkind
    exact ringBox_rings hb hview hidle hlen hsend hk hcmds

end Sys2Proof.Machine
end

section
/-! SUPPORT. Completions of the endpoint's own reads, and address translation (R116, R129 to R132), with the obligation on them. -/

namespace Sys2Proof.Machine

open Sys2Proof

variable {s : State}

/-! ## Device-issued reads (R50, R51, R116) -/

/-- What a completion leaves of the read it belongs to: the last one ends it, and its latency is sampled; any other moves it on. -/
def tagAfter (tag : Nat) (t : ReadTag) (data : Bytes) (last : Bool) (s : State) : State :=
  if last then sample 5 (pfOf t.fn) ((nowNs s : Int) - t.born) (freeTags (fun x => x.num == tag) s)
  else { s with rings := { s.rings with tags := mapWhere (fun x => x.num == tag) (fun x => { x with off := x.off + data.length }) s.rings.tags } }

section
variable {tag : Nat} {t : ReadTag} (htag : tagOf s tag = some t) (data : Bytes) (last : Bool)
include htag

theorem readCompletion_toPump {ch : Nat} (huse : t.use = .pump ch) :
    exec (.readCompletion tag data last 0) s = .next (settle (pumpData ch t data (tagAfter tag t data last s))) := by
  show execReadCompletion tag data last 0 s = _
  simp only [execReadCompletion, htag, if_true, huse]
  rfl

/-- Good data that no Pump channel waits for goes with its own row. -/
theorem readCompletion_elsewhere (huse : ∀ ch, t.use ≠ .pump ch) :
    exec (.readCompletion tag data last 0) s = .next (settle (tagAfter tag t data last s)) := by
  show execReadCompletion tag data last 0 s = _
  simp only [execReadCompletion, htag, if_true]
  cases hu : t.use with
  | pump ch => exact absurd hu (huse ch)
  | _ => rfl

theorem readCompletion_poisoned : exec (.readCompletion tag data last 1) s =
    .next (settle (failRead t.use qPoisoned 0 (logAdvisory t.fn 12 (tagAfter tag t data last s)))) := by
  show execReadCompletion tag data last 1 s = _
  simp only [execReadCompletion, htag, one_ne_zero, if_false, if_true]
  rfl

theorem readCompletion_refused :
    exec (.readCompletion tag data last 2) s = .next (settle (failRead t.use qDmaFault 3 (tagAfter tag t data last s))) := by
  show execReadCompletion tag data last 2 s = _
  simp only [execReadCompletion, htag, OfNat.ofNat_ne_zero, OfNat.ofNat_ne_one, if_false]
  rfl

theorem readTimeout_fails : exec (.readTimeout tag) s =
    .next (settle (failRead t.use qDmaFault 1 (timeOutReads (fun x => x.num == tag) (advanceNs (t.born + ctoNs s t.fn) s)))) := by
  show execReadTimeout tag s = _
  simp only [execReadTimeout, htag]
  rfl

end

/-- A completion of a read that is TIMED_OUT counts, and the last one ends the record of it (R51). -/
theorem readCompletion_late {tag f : Nat} (htag : tagOf s tag = none) (hlate : s.rings.lateReads.find? (fun x => x.1 == tag) = some (tag, f))
    (data : Bytes) (last : Bool) (bad : Nat) : exec (.readCompletion tag data last bad) s = .next (settle (count (cFn f 9)
      (if last then { s with rings := { s.rings with lateReads := s.rings.lateReads.filter fun x => x.1 != tag } } else s))) := by
  show execReadCompletion tag data last bad s = _
  simp only [execReadCompletion, htag, hlate]
  rfl

/-! ## Address translation (R129 to R131) -/

section
variable {req : Nat} {r : AtsReq} (hreq : s.atsReqs.find? (fun r => r.num == req) = some r)
include hreq

/-- A completion of a request that an Invalidate Request has overtaken translates nothing: its accesses miss again. -/
theorem translationCompletion_stale (hstale : r.stale = true) (ok : Bool) (e : AtsReply) : exec (.translationCompletion req ok e) s =
    .next (settle (reissueHeld r.holds { s with atsReqs := s.atsReqs.filter fun x => x.num != req })) := by
  show execTranslationCompletion req ok e s = _
  simp only [execTranslationCompletion, hreq, hstale, if_true]
  rfl

variable (hfresh : r.stale = false)
include hfresh

theorem translationCompletion_grants {e : AtsReply} (hright : (if r.write then e.wr else e.rd) = true) (hlo : 4096 ≤ e.size) (hhi : e.size ≤ 2 ^ 30) :
    exec (.translationCompletion req true e) s = .next (settle (reissueHeld r.holds (cacheTranslation
      { fn := r.fn, base := r.addr / e.size * e.size, size := e.size, target := e.target / e.size * e.size, rd := e.rd, wr := e.wr }
      { s with atsReqs := s.atsReqs.filter fun x => x.num != req }))) := by
  show execTranslationCompletion req true e s = _
  simp only [execTranslationCompletion, hreq, hfresh, hright, hlo, hhi, decide_true, Bool.and_true, Bool.false_eq_true, if_false, if_true]
  rfl

theorem translationCompletion_refuses (e : AtsReply) : exec (.translationCompletion req false e) s =
    .next (settle (refuseFirst r.holds (count (cDev 5) { s with atsReqs := s.atsReqs.filter fun x => x.num != req }))) := by
  show execTranslationCompletion req false e s = _
  simp only [execTranslationCompletion, hreq, hfresh, Bool.false_and, Bool.false_eq_true, if_false]
  rfl

end

/-! What becomes of the first access that a refused translation held (R130, R301). -/

theorem refuseFirst_read {tag : Nat} {t : ReadTag} (htag : tagOf s tag = some t) (k : WKind) (f a n : Nat) (rest : List (WKind × Out)) :
    refuseFirst ((k, .hostRead f tag a n) :: rest) s = reissueHeld rest (failRead t.use qDmaFault 2 (freeTags (fun x => x.num == tag) s)) := by
  simp only [refuseFirst, htag]

theorem refuseFirst_rx (f a : Nat) (d : Bytes) (ro bad : Bool) (rest : List (WKind × Out)) (s : State) :
    refuseFirst ((.rx, .hostWrite f a d ro bad) :: rest) s = reissueHeld (faultCqe rest) (count (cFn f 19) s) := rfl

theorem refuseFirst_dest (ch f a : Nat) (d : Bytes) (ro bad : Bool) (rest : List (WKind × Out)) (s : State) :
    refuseFirst ((.dest ch, .hostWrite f a d ro bad) :: rest) s =
      failPump ch qDmaFault 2 (reissueHeld (rest.filter fun x => x.1 != .dest ch) s) := rfl

/-! ## Invalidation (R131, R132) -/

/-- An Invalidate Request takes the function's translations in its range away, overtakes its requests there, and waits for reads. -/
theorem invalidateRequest_invalidates {fn : Nat} (hanswers : answersCfg s fn = true) (hdry : s.mode ≠ .dry) (itag base size : Nat) :
    ∃ waits, exec (.invalidateRequest itag fn base size) s = .next (settle { s with
      atc := s.atc.filter fun e => !(e.fn == fn && overlaps e.base e.size base size)
      atsReqs := mapWhere (fun r => r.fn == fn && overlaps r.addr 1 base size) (fun r => { r with stale := true }) s.atsReqs
      invReqs := s.invReqs ++ [{ itag := itag, fn := fn, base := base, size := size, waits := waits }] }) := by
  have hhere : ¬ ((!answersCfg s fn) = true ∨ s.mode = .dry) := by simp [hanswers, hdry]
  have hexec : exec (.invalidateRequest itag fn base size) s = execInvalidateRequest itag fn base size s := rfl
  simp only [hexec, execInvalidateRequest, if_neg hhere]
  exact ⟨_, rfl⟩

/-- Every request of the function in the range is stale afterwards. -/
theorem stale_of_mem_mapWhere {fn base size : Nat} {l : List AtsReq} {r : AtsReq}
    (hr : r ∈ mapWhere (fun r => r.fn == fn && overlaps r.addr 1 base size) (fun r => { r with stale := true }) l) (hfn : r.fn = fn)
    (hover : overlaps r.addr 1 base size = true) : r.stale = true := by
  obtain ⟨x, -, rfl⟩ := List.mem_map.mp hr
  by_cases hx : (x.fn == fn && overlaps x.addr 1 base size) = true
  · simp only [hx, if_true]
  · rw [if_neg hx] at hfn hover
    exact absurd (by simp [hfn, hover]) hx

theorem invalidateCompletion_sent {itag fn : Nat} {r : InvReq} (hreq : s.invReqs.find? (fun (r : InvReq) => r.itag == itag && r.fn == fn) = some r)
    (hfrozen : frozen s fn = false) (hdone : ∀ t ∈ s.rings.tags, r.waits.contains t.num = false) :
    exec (.invalidateCompletion itag fn) s =
      .next (settle (emit (.invCompletion fn itag) { s with invReqs := s.invReqs.filter fun x => !decide (x = r) })) := by
  have hgoes : ¬ (frozen s fn = true ∨ (s.rings.tags.any fun t => r.waits.contains t.num) = true) := by
    rintro (h | h)
    · simp [hfrozen] at h
    · obtain ⟨t, ht, hwaits⟩ := List.any_eq_true.mp h
      exact Bool.false_ne_true ((hdone t ht).symm.trans hwaits)
  show execInvalidateCompletion itag fn s = _
  simp only [execInvalidateCompletion, hreq, if_neg hgoes]
  rfl

/-- Settles O36, row by row. -/
theorem endpointRows : Obligations.EndpointRows := by
  intro s
  refine ⟨fun tag t data last htag => ⟨fun ch => readCompletion_toPump htag data last, readCompletion_elsewhere htag data last,
      readCompletion_poisoned htag data last, readCompletion_refused htag data last⟩,
    fun tag f data bad htag hlate => ⟨readCompletion_late htag hlate data false bad, readCompletion_late htag hlate data true bad⟩,
    fun tag t htag => readTimeout_fails htag,
    fun req r e hreq hfresh hright hlo hhi => translationCompletion_grants hreq hfresh hright hlo hhi,
    fun req r ok e hreq hstale => translationCompletion_stale hreq hstale ok e,
    fun req r e hreq hfresh => ⟨fun k f tag a n rest t hholds htag => ?_, fun f a d ro bad rest hholds => ?_, fun ch f a d ro bad rest hholds => ?_⟩,
    fun itag fn base size hanswers hdry => ?_,
    fun itag fn r hreq hfrozen hdone => invalidateCompletion_sent hreq hfrozen hdone⟩
  · rw [translationCompletion_refuses hreq hfresh, hholds, refuseFirst_read htag]
  · rw [translationCompletion_refuses hreq hfresh, hholds, refuseFirst_rx]
  · rw [translationCompletion_refuses hreq hfresh, hholds, refuseFirst_dest]
  · obtain ⟨waits, hexec⟩ := invalidateRequest_invalidates hanswers hdry itag base size
    exact ⟨_, hexec, rfl, ⟨_, rfl, rfl, rfl⟩, fun r hr hfn hover => stale_of_mem_mapWhere hr hfn hover, by constructor <;> simp⟩

end Sys2Proof.Machine
end

section
/-! SUPPORT. The privilege of the firmware commands (R104), with the obligation on it. -/

namespace Sys2Proof.Machine

open Sys2Proof

variable {op : OpInfo} {c : Cmd} {s : State}

theorem hasPriv_mailbox (s : State) (n : Nat) : hasPriv s (.mailbox n) = if n < 4 then false else (chanEntry s n).priv := rfl

/-- An open channel has no PRIV, and any other mailbox channel has that of its entry (R35, R70). -/
theorem hasPriv_mailbox_eq_false {n : Nat} (h : n < 4 ∨ (chanEntry s n).priv = false) : hasPriv s (.mailbox n) = false := by
  rw [hasPriv_mailbox]
  rcases h with h | h
  · exact if_pos h
  · rw [h, ite_self]

/-- Taking a command gives its channel no right. -/
theorem hasPriv_taken (op : OpInfo) (c : Cmd) (s : State) (ch : Chan) : hasPriv (taken op c s) ch = hasPriv s ch :=
  hasPriv_congr (samePlace_taken op c s).fwd (answers_taken op c s).units.chanTab ch

/-- A row that needs PRIV and that every device has, in a packet of the right length, is refused for the want of PRIV before R70 closes an open
channel to it. -/
theorem checks_noPriv (hcap : op.cap = none) (hknown : op.known = true) (hanywhere : op.noPath = false) (hneeds : op.priv = true)
    (hlen : op.len c = true) (hshort : c.payloadLen ≤ 4096) (hring : onVfRing c.chan = false) (hlacks : hasPriv s c.chan = false) :
    checks op .device c s = some (err stDenied 3) := by
  have hclass : classAbsent op s = false := by rw [classAbsent, hcap]
  rw [checks_of_length hclass hknown hlen hshort]
  simp [hring, hanywhere, hneeds, hlacks]

/-- Such a row at the device, on a mailbox channel without PRIV, is answered with nothing executed. -/
theorem noPriv_run {n : Nat} (hchan : c.chan = .mailbox n) (hlacks : n < 4 ∨ (chanEntry s n).priv = false) (ht : targetOf s c = .device)
    (hshort : c.payloadLen ≤ 4096) (hcap : op.cap = none) (hknown : op.known = true) (hanywhere : op.noPath = false) (hneeds : op.priv = true)
    (harr : Arrives op c s) (hreach : Reaches c s) (hlen : op.len c = true) (body : Body) :
    done (runCommand op body c s) = answered op c s (err stDenied 3) (taken op c s) := by
  have hring : onVfRing c.chan = false := by rw [hchan]; rfl
  have hnone : hasPriv (taken op c s) c.chan = false := by rw [hasPriv_taken, hchan, hasPriv_mailbox_eq_false hlacks]
  refine refused_run harr hreach ⟨by simp [ht], by simp [ht]⟩ ?_ body
  rw [ht]
  exact checks_noPriv hcap hknown hanywhere hneeds hlen hshort hring hnone

/-- Settles O19: each of the three rows needs PRIV, and the length that its packet has is the row's. -/
theorem firmwareNeedsPriv : Obligations.FirmwareNeedsPriv := by
  intro c img s n hchan hlacks ht hshort
  refine ⟨fun harr hreach hlen => ?_, fun harr hreach hlen => ?_, fun harr hreach hlen => ?_⟩
  · exact noPriv_run hchan hlacks ht hshort rfl rfl rfl rfl harr hreach (beq_iff_eq.mpr hlen) _
  · exact noPriv_run hchan hlacks ht hshort rfl rfl rfl rfl harr hreach (beq_iff_eq.mpr hlen) _
  · exact noPriv_run hchan hlacks ht hshort rfl rfl rfl rfl harr hreach (beq_iff_eq.mpr hlen) _

end Sys2Proof.Machine
end

section
/-! SUPPORT. Resets, power and the boot (R75 to R87, R470), with the obligations on them. -/

namespace Sys2Proof.Machine

open Sys2Proof

variable {s : State}

/-! ## What a reset leaves (R75, R77) -/

/-- Nothing differs but what has gone out of the pins. -/
def OnlyOut (s t : State) : Prop := ∃ o, t = { s with out := o }

theorem OnlyOut.refl (s : State) : OnlyOut s s := ⟨s.out, rfl⟩

theorem OnlyOut.emit {s t : State} (h : OnlyOut s t) (o : Out) : OnlyOut s (emit o t) := by
  obtain ⟨l, rfl⟩ := h
  exact ⟨o :: l, rfl⟩

theorem OnlyOut.ite {s t u : State} {p : Prop} [Decidable p] (ht : OnlyOut s t) (hu : OnlyOut s u) : OnlyOut s (if p then t else u) := by
  split
  · exact ht
  · exact hu

/-- The pins that a reset releases (R343, R345, R467) are all that it does to the state it has built. -/
theorem onlyOut_releasePins (t : State) (l : List (Nat × SynceSt)) (pps low : Bool) :
    let u := l.foldl (fun t (x : Nat × SynceSt) => if x.2.low then t else emit (.pinLevel (if x.1 = 0 then .syncE0 else .syncE1) false) t) t
    let v := if pps then emit (.pinLevel .ppsOut false) u else u
    OnlyOut t (if low then emit (.pinLevel .fault true) v else v) := by
  intro u v
  have hu : OnlyOut t u := foldl_keeps (P := OnlyOut t) (fun _ _ hx => .ite hx (hx.emit _)) l t (.refl t)
  have hv : OnlyOut t v := .ite (hu.emit _) hu
  exact .ite (hv.emit _) hv

/-- Settles O20: but for its pins, a reset is the state that it writes out. -/
theorem everyResetClears : Obligations.EveryResetClears := by
  intro source straps s t
  have hpins : OnlyOut _ t := onlyOut_releasePins _ s.time.synce s.time.ppsOut (faultLow s)
  obtain ⟨o, ht⟩ := hpins
  rw [ht]
  refine ⟨rfl, rfl, rfl, rfl, rfl, rfl, rfl, rfl, rfl, rfl, rfl, rfl, rfl, rfl, rfl, rfl, rfl, rfl, rfl, rfl, rfl, rfl,
    fun hpower => ?_, fun hother hruns => ?_, fun hfuses => ?_⟩
  · exact if_pos hpower
  · exact (if_neg hother).trans (if_neg (ne_true_of_eq_false hruns))
  · simp [freshBoot, bootHeld, hfuses]

/-! ## Power and resets -/

theorem sysRstN_powered (straps : Straps) (h : s.boot.powered = true) :
    exec (.sysRstN straps) s = .next (settle (resetDevice 1 straps s)) := by
  show execSysRstN straps s = _
  rw [execSysRstN, if_pos h, done]

theorem watchdogReset_running (straps : Straps) (h : s.mode ≠ .dry) :
    exec (.watchdogReset straps) s = .next (settle (resetDevice 3 straps s)) := by
  show execWatchdogReset straps s = _
  rw [execWatchdogReset, if_neg h, done]

/-! ## The boot -/

section
variable (hruns : bootRuns s = true)
include hruns

/-- The ROM reports on the slot it tries: it passes, or fails with its code (R80 to R87). -/
theorem bootSlotVerified_tried (hstage : s.boot.stage ≠ 0xF) (himage : s.boot.image = none) (b : Option Bytes) :
    exec (.bootSlotVerified (triedB s) b) s = .next (settle (if checkFw s b = 0 then takeSlot (triedB s) (b.getD []) s
      else failSlot (triedB s) (checkFw s b) s)) := by
  have hdue : ¬ (!bootRuns s || s.boot.stage == 0xF || s.boot.image.isSome || triedB s != triedB s) = true := by
    simp [hruns, hstage, himage]
  show execBootSlotVerified (triedB s) b s = _
  rw [execBootSlotVerified, if_neg hdue, done]

theorem clayTrainingDone_first (huntrained : s.boot.clayTrained = false) (trained : Bool) :
    exec (.clayTrainingDone trained) s = .next (settle (if trained then { s with boot := { s.boot with clayTrained := true } }
      else { s with boot := { noteFail 0x0A s.boot with failed := true, stage := 0, image := none } })) := by
  have hdue : ¬ (!bootRuns s || s.boot.clayTrained) = true := by simp [hruns, huntrained]
  show execClayTrainingDone trained s = _
  rw [execClayTrainingDone, if_neg hdue, done]

theorem dryLeft_leaves (himage : s.boot.image.isSome = true) (htrained : s.boot.clayTrained = true) (certOk : Bool) :
    exec (.dryLeft certOk) s = .next (settle (leaveDry certOk s)) := by
  have hdue : (bootRuns s && s.boot.image.isSome && s.boot.clayTrained) = true := by simp [hruns, himage, htrained]
  show execDryLeft certOk s = _
  rw [execDryLeft, if_pos hdue, done]

end

/-- The events that leaving DRY raises, and the INTx lines, touch no unit: the device is in PRIMING with its boot done (R20, R81). -/
theorem leaveDry_priming (certOk : Bool) (s : State) : (leaveDry certOk s).mode = .priming ∧ (leaveDry certOk s).boot.done = true := by
  have hcert (u : State) : SameUnits u (if certOk then u else raise 66 0 u) := by
    split
    · exact .refl u
    · exact (outward_raise 66 0 u).units
  have hsecond (u : State) : SameUnits u (if s.boot.fallback then raise 67 0 u else u) := by
    split
    · exact (outward_raise 67 0 u).units
    · exact .refl u
  have hevents : SameUnits _ (leaveDry certOk s) := ((hcert _).trans (hsecond _)).trans (outward_intxAll _).units
  exact ⟨hevents.mode, congrArg BootSt.done hevents.boot⟩

theorem bootRestart_stopped (hdry : s.mode = .dry) (hpowered : s.boot.powered = true) (hstopped : s.boot.supplyStopped = true)
    (hfree : bootHeld s = false) : exec .bootRestart s = .next (settle { s with boot := {
      s.boot with supplyStopped := false, stage := if s.boot.straps.bootSrc then 0xF else 0, failCode := 0, failed := false, fallback := false,
                  recovery := false, slotUsed := false, image := none, clayTrained := false } }) := by
  have hdue : ¬ (s.mode ≠ .dry ∨ (!s.boot.powered) = true ∨ (!s.boot.supplyStopped) = true) := by simp [hdry, hpowered, hstopped]
  show execBootRestart s = _
  simp only [execBootRestart, if_neg hdue, hfree, Bool.false_eq_true, if_false, done]

/-! ## Recovery (R83) -/

theorem retryFlash_waiting (h : awaitsRecovery s = true) : retryFlash s = { s with boot := {
    s.boot with stage := 2, failCode := 0, failed := false, fallback := false, recovery := false, slotUsed := false } } := if_pos h

/-- Bit 1 of BOOT_CTRL tries the flash again, and bit 0 alone loads the window, for a physical function. -/
theorem bootCtrl_physical {fn : Nat} (hfn : fn < 2) (s : State) : bootCtrl fn 2 s = retryFlash s ∧ bootCtrl fn 1 s = loadRecovery s := by
  have hpf : ¬ 2 ≤ fn := Nat.not_le.mpr hfn
  constructor <;> exact if_neg hpf

theorem writeWindow_open {off : Nat} {d : Bytes} (hwaits : awaitsRecovery s = true) (hin : off + d.length ≤ 0x02000000) :
    writeWindow 0 off d s = { s with boot := { s.boot with window := Store.setMany 0 off d s.boot.window } } := by
  have hshut : ¬ ((0 : Nat) ≠ 0 ∨ (!awaitsRecovery s) = true ∨ 0x02000000 < off + d.length) := by
    simp [hwaits, Nat.not_lt.mpr hin]
  rw [writeWindow, if_neg hshut]

/-- Settles O21, row by row. -/
theorem powerAndBootRows : Obligations.PowerAndBootRows := by
  intro s straps
  refine ⟨rfl, sysRstN_powered straps, watchdogReset_running straps, rfl, fun hruns hstage himage => ⟨fun b => ?_, ?_⟩,
    fun hruns huntrained => ⟨clayTrainingDone_first hruns huntrained true, clayTrainingDone_first hruns huntrained false⟩,
    fun hruns himage htrained certOk => ⟨dryLeft_leaves hruns himage htrained certOk, leaveDry_priming certOk s⟩,
    bootRestart_stopped, fun fn hfn hwaits => ⟨?_, ?_⟩, fun off d hwaits hin => ?_⟩
  · exact bootSlotVerified_tried hruns hstage himage (some b)
  · exact bootSlotVerified_tried hruns hstage himage none
  · show done (bootCtrl fn 2 s) = _
    rw [(bootCtrl_physical hfn s).1, retryFlash_waiting hwaits, done]
  · show done (bootCtrl fn 1 s) = _
    rw [(bootCtrl_physical hfn s).2, done]
  · show done (writeWindow 0 off d s) = _
    rw [writeWindow_open hwaits hin, done]

end Sys2Proof.Machine
end

section
/-! SUPPORT. The random source, images, certificates and SPDM (R84 to R106), with the obligations on them. -/

namespace Sys2Proof.Machine

open Sys2Proof

variable {t : Target} {c : Cmd} {s : State}

/-- A row whose body answers at once, when its checks pass, answers what the body does. -/
theorem ready_answers {op : OpInfo} (h : Ready op t c s) {f : Target → Cmd → State → State × Answer} {u : State} {a : Answer}
    (hf : f t c (taken op c s) = (u, a)) : done (runCommand op (answer f) c s) = answered op c s a u := by
  have hbody : answer f (refAt op c s) t c (taken op c s) = (u, some a) := by rw [answer, hf]
  rw [ready_run h, hbody, ends]

/-! ## The random source and RANDOM (R93 to R95) -/

theorem entropyReady_ignored (h : s.mode = .dry ∨ s.entropyReady = true ∨ s.entropyFailed = true) :
    exec .entropyReady s = .next (settle s) := by
  show execEntropyReady s = _
  rw [execEntropyReady, if_pos h, done]

/-- The source becomes ready: BOOT_NONCE is drawn unless there is one (R93, R286). -/
theorem entropyReady_first (hdry : s.mode ≠ .dry) (hready : s.entropyReady = false) (hfailed : s.entropyFailed = false) :
    exec .entropyReady s = .next (settle (if s.cipher.nonce.isSome then { s with entropyReady := true } else {
      s with entropyReady := true, drbgCount := (s.drbgCount + 1) % 2 ^ 20, cis := { s.cis with draws := s.cis.draws + 1 },
             cipher := { s.cipher with nonce := some ((Config.nonce s.cis.draws).setWidth 128) } })) := by
  have hdue : ¬ (s.mode = .dry ∨ s.entropyReady = true ∨ s.entropyFailed = true) := by simp [hdry, hready, hfailed]
  show execEntropyReady s = _
  rw [execEntropyReady, if_neg hdue]
  rfl

theorem entropyFail_ignored (h : s.mode = .dry ∨ s.entropyFailed = true) : exec .entropyFail s = .next (settle s) := by
  show execEntropyFail s = _
  rw [execEntropyFail, if_pos h, done]

theorem entropyFail_first (hdry : s.mode ≠ .dry) (hfailed : s.entropyFailed = false) :
    exec .entropyFail s = .next (settle (raise 65 0 { s with entropyReady := false, entropyFailed := true })) := by
  have hdue : ¬ (s.mode = .dry ∨ s.entropyFailed = true) := by simp [hdry, hfailed]
  show execEntropyFail s = _
  rw [execEntropyFail, if_neg hdue, done]

section
variable (h : Ready infoRandom t c s)
include h

theorem random_badLength (hlen : arg c 8 8 = 0 ∨ 4096 < arg c 8 8) :
    exec (.random c) s = answered infoRandom c s (err stBadLength 0) (taken infoRandom c s) :=
  ready_answers h (if_pos hlen)

variable (hlo : 1 ≤ arg c 8 8) (hhi : arg c 8 8 ≤ 4096)
include hlo hhi

theorem random_bytes (hready : (taken infoRandom c s).entropyReady = true) : let u := taken infoRandom c s
    exec (.random c) s = answered infoRandom c s (okOut (arg c 8 8) 0 (arg c 0 8) ((List.range (arg c 8 8)).map (Config.drbg u.cis.draws)))
      { u with drbgCount := (u.drbgCount + 1) % 2 ^ 20, cis := { u.cis with draws := u.cis.draws + 1 } } :=
  ready_answers h ((if_neg (by omega)).trans (if_neg (by simp [hready])))

theorem random_notReady (hready : (taken infoRandom c s).entropyReady = false) :
    exec (.random c) s = answered infoRandom c s (err stNotReady 0) (taken infoRandom c s) :=
  ready_answers h ((if_neg (by omega)).trans (if_pos (by simp [hready])))

end

/-- Settles O22, row by row. -/
theorem entropyAndRandom : Obligations.EntropyAndRandom := by
  intro s
  refine ⟨entropyReady_ignored, fun hdry hready hfailed => ⟨fun hnonce => ?_, fun hnonce => ?_⟩, entropyFail_ignored, entropyFail_first,
    fun t c h => ⟨random_badLength h, random_bytes h, random_notReady h⟩⟩
  · rw [entropyReady_first hdry hready hfailed, if_pos hnonce]
  · rw [entropyReady_first hdry hready hfailed, if_neg (by simp [hnonce])]

/-! ## Images, firmware, owners and certificates (R84 to R90, R98 to R106) -/

theorem imageLoad_ready (img : HostData) (h : Ready infoImageLoad t c s) (hcommit : (taken infoImageLoad c s).tables.commit = none)
    (hloading : (taken infoImageLoad c s).tables.loading = false) :
    let r := loadImage (hostData (taken infoImageLoad c s) c img) (arg c 8 8) (taken infoImageLoad c s)
    exec (.imageLoad c img) s = answered infoImageLoad c s r.2 r.1 :=
  ready_answers h (if_neg (by simp [hcommit, hloading]))

theorem gateCheck_ready (h : Ready infoGateCheck t c s) :
    exec (.gateCheck c) s = answered infoGateCheck c s (ok ((gateReason (taken infoGateCheck c s)).getD 0) 0) (taken infoGateCheck c s) :=
  ready_read h _

/-! FW_WRITE of an image that the device can read: the image is checked, written, and what the flash holds is checked again (R103 to R105). -/

section
variable {img d : HostData} {u : State} {b : Bytes} (h : Ready infoFwWrite t c s) (hu : taken infoFwWrite c s = u) (hd : hostData u c img = d)
  (hb : d.data.take (arg c 8 8) = b) (hlo : 512 ≤ arg c 8 8) (hhi : arg c 8 8 ≤ 33554432) (hheader : readGood d 0 512 = true)
  (hbody : readGood d 512 (fld b 20 4) = true)
include h hu hd hb hlo hhi hheader

theorem fwWrite_badImage (hcode : checkFw u (some b) ≠ 0) :
    exec (.fwWrite c img) s = answered infoFwWrite c s (err stDenied (checkFw u (some b))) (setSlot (!primaryB u) none u) :=
  ready_answers h (by simp [hu, hd, hb, Nat.not_lt.mpr hlo, Nat.not_lt.mpr hhi, hheader, hcode])

variable (hcode : checkFw u (some b) = 0)
include hbody hcode

theorem fwWrite_badFlash : let v := emit (.flash (slotBase (!primaryB u)) b) u
    checkFw v (d.readBack.getD (some b)) ≠ 0 →
    exec (.fwWrite c img) s = answered infoFwWrite c s (err stDenied (checkFw v (d.readBack.getD (some b)))) (setSlot (!primaryB u) none v) :=
  fun hback => ready_answers h (by simp [hu, hd, hb, Nat.not_lt.mpr hlo, Nat.not_lt.mpr hhi, hheader, hcode, hbody, hback])

theorem fwWrite_kept : let v := emit (.flash (slotBase (!primaryB u)) b) u
    checkFw v (d.readBack.getD (some b)) = 0 →
    exec (.fwWrite c img) s =
      answered infoFwWrite c s (ok (b2n (!primaryB u)) (fwInfo v b).fwVersion.toNat) (setSlot (!primaryB u) (some (fwInfo v b)) v) :=
  fun hback => ready_answers h (by simp [hu, hd, hb, Nat.not_lt.mpr hlo, Nat.not_lt.mpr hhi, hheader, hcode, hbody, hback])

end

/-- FW_ACTIVATE of a verified slot at or above the floor selects it, and may raise the floor (R86, R105). -/
theorem fwActivate_ready {u : State} {i : FwInfo} (h : Ready infoFwActivate t c s) (hu : taken infoFwActivate c s = u)
    (hslot : (if bit (arg c 0 1) 0 then u.fuses.slotB else u.fuses.slotA) = some i) (hverified : i.verified = true)
    (hfloor : u.fuses.floor ≤ i.secVersion) :
    let v := selectSlot (bit (arg c 0 1) 0) u
    let floor := if bit (arg c 0 1) 1 then max u.fuses.floor (min 63 (min i.secVersion (imageId u).2)) else u.fuses.floor
    exec (.fwActivate c) s = answered infoFwActivate c s (ok floor 0) { v with fuses := { v.fuses with floor := floor } } :=
  ready_answers h (by simp [hu, hslot, hverified, Nat.not_lt.mpr hfloor])

/-- The first owner key is burned where the strap allows it (R106). -/
theorem ownerEnrol_first (h : Ready infoOwnerEnrol t c s) : let u := taken infoOwnerEnrol c s
    u.fuses.ownerKeys = [] → u.boot.straps.ownerEn = true → arg c 0 8 = 0 →
      exec (.ownerEnrol c) s = answered infoOwnerEnrol c s (ok 0 0)
        { u with fuses := { u.fuses with ownerKeys := [(0, Config.sha384 (slice c.payload 16 96))] } } := by
  intro u hkeys hstrap hslot
  refine ready_answers h ?_
  simp [hslot, hkeys, hstrap, u]

theorem certRead_own (h : Ready infoCertRead t c s) (hwhich : arg c 12 4 = 0)
    (hfits : (ownChain (taken infoCertRead c s)).length ≤ arg c 8 4) : let u := taken infoCertRead c s
    exec (.certRead c) s = answered infoCertRead c s (okOut (ownChain u).length (ownChain u).length (arg c 0 8) (ownChain u)) u := by
  have hrun : exec (.certRead c) s = _ := ready_read h _
  rw [hrun]
  simp only [hwhich, if_true, if_neg (Nat.not_lt.mpr hfits), if_neg (by decide : ¬ 1 < 0)]

/-- Settles O23, row by row; FW_WRITE by where the first check fails. -/
theorem imageCommands : Obligations.ImageCommands := by
  intro t c img s
  refine ⟨imageLoad_ready img, gateCheck_ready, fun h hlo hhi hheader hbody => ?_, fun h i hslot => fwActivate_ready h rfl hslot,
    ownerEnrol_first, certRead_own⟩
  dsimp only
  split
  · next hcode => exact fwWrite_badImage h rfl rfl rfl hlo hhi hheader hcode
  · next hcode =>
    split
    · next hback => exact fwWrite_badFlash h rfl rfl rfl hlo hhi hheader hbody (not_not.mp hcode) hback
    · next hback => exact fwWrite_kept h rfl rfl rfl hlo hhi hheader hbody (not_not.mp hcode) (not_not.mp hback)

/-! ## SPDM (R91) -/

/-- A request of its code on a transport of the responder is answered, or held in DORMANT until wake. -/
theorem spdmRequest_served {m : SpdmMsg} {code : Nat} (htransport : m.transport ≤ 2) (hdry : s.mode ≠ .dry) (hcode : spdmCode m.data = code) :
    spdmRequest code m s = if s.mode = .dormant then { s with spdm := { s.spdm with held := s.spdm.held ++ [(m.transport, m.data)] } }
      else spdmAnswer m.data s := by
  have hhere : ¬ (s.mode = .dry ∨ spdmCode m.data ≠ code ∨ 2 < m.transport) := by simp [hdry, hcode, Nat.not_lt.mpr htransport]
  rw [spdmRequest, if_neg hhere]
  rfl

/-- Settles O24: the fourteen rows differ in their code alone. -/
theorem spdmRequests : Obligations.SpdmRequests := by
  intro m s htransport hdry after
  have served {code : Nat} (hcode : spdmCode m.data = code) : done (spdmRequest code m s) = .next (settle after) :=
    congrArg done (spdmRequest_served htransport hdry hcode)
  exact ⟨served, served, served, served, served, served, served, served, served, served, served, served, served, served⟩

end Sys2Proof.Machine
end

section
/-! SUPPORT. The host endpoint: the INTx lines (R127, R128) and the peer window (R144), with the obligations on them. -/

namespace Sys2Proof.Machine

open Sys2Proof

variable {s : State}

/-! ## The INTx lines -/

/-- A nanosecond moves only the clocks, and the INTx law reads none of them. -/
theorem intxLaw_tick (h : IntxLaw s) : IntxLaw (tick s) := by
  rw [tick_frame]
  exact h

/-- Settles O5: a command ends in `settle`, which brings both lines up to date whatever the command left, and an idle step only moves the clocks. -/
theorem intxFollowsItsCondition : Obligations.IntxFollowsItsCondition := by
  intro s t hs hstep
  rcases step_cases hstep with ⟨u, rfl⟩ | ⟨-, rfl⟩
  · exact intxLaw_settle u
  · exact intxLaw_tick hs

/-! ## A run of records in the sparse store -/

section
variable {α : Type} [DecidableEq α] (d : α)

/-- Storing a run leaves every record outside it alone. -/
theorem store_get_setMany_outside {k j : Nat} {l : List α} (h : j < k ∨ k + l.length ≤ j) (st : Store α) :
    Store.get d j (Store.setMany d k l st) = Store.get d j st := by
  induction l generalizing k st with
  | nil => rfl
  | cons v r ih =>
    rw [List.length_cons] at h
    have hrest := ih (k := k + 1) (by omega) (Store.set d k v st)
    exact hrest.trans (store_get_set_ne d k j v st (by omega))

/-- A record of a stored run reads as what the run gives it. -/
theorem store_get_setMany_inside {k i : Nat} {l : List α} (h : i < l.length) (st : Store α) :
    Store.get d (k + i) (Store.setMany d k l st) = l.getD i d := by
  induction l generalizing k i st with
  | nil => exact absurd h (Nat.not_lt_zero i)
  | cons v r ih =>
    cases i with
    | zero =>
      have hfirst := store_get_setMany_outside d (k := k + 1) (j := k) (l := r) (by omega) (Store.set d k v st)
      exact hfirst.trans (store_get_set_same d k v st)
    | succ i =>
      have hrest := ih (k := k + 1) (Nat.lt_of_succ_lt_succ h) (Store.set d k v st)
      rwa [Nat.add_assoc, Nat.add_comm 1 i] at hrest

/-- Storing the records of a list one by one, each at its place after `a`, stores them as one run. -/
theorem foldl_set_zipIdx (a n : Nat) (l : List α) (st : Store α) :
    (l.zipIdx n).foldl (fun st x => Store.set d (a + x.2) x.1 st) st = Store.setMany d (a + n) l st := by
  induction l generalizing n st with
  | nil => rfl
  | cons v r ih => exact ih (n + 1) (Store.set d (a + n) v st)

end

/-! ## The peer window (R144) -/

theorem poisonedIn_clean {mem : Nat} (h : Store.get [] mem s.fault.poison = []) (lo n : Nat) : poisonedIn s mem lo n = false := by
  rw [poisonedIn, h, List.any_nil]

/-- Where no word of Clay is poisoned, a write stores all of its bytes (R428). -/
theorem clayWrite_clean (h : Store.get [] 9 s.fault.poison = []) (a : Nat) (d : Bytes) : (clayWrite a d s).clay = Store.setMany 0 a d s.clay := by
  simp only [clayWrite, poisonedIn_clean h, Bool.and_false, Bool.false_eq_true, if_false]
  exact foldl_set_zipIdx 0 a 0 d s.clay

/-- A write into the open window is a write into Clay; one that reaches its last 4 KiB also raises PEER_SIGNAL. -/
theorem outward_peerWrite {pf rid offset : Nat} {data : Bytes} (hopen : peerOpen s pf rid offset data.length = true) :
    Outward (clayWrite (clayOffset s pf + offset) data s) (peerWrite pf rid offset data false s) := by
  simp only [peerWrite, hopen, Bool.not_true, Bool.false_eq_true, if_false]
  split
  · exact outward_raise _ _ _
  · exact .refl _

theorem peerWindowWrite_up {pf : Nat} (hup : HostUp pf s) {data : Bytes} (hdata : data ≠ []) (rid offset : Nat) (bad : Bool) :
    exec (.peerWindowWrite pf rid offset data bad) s = .next (settle (peerWrite pf rid offset data bad s)) := by
  show execPeerWindowWrite pf rid offset data bad s = _
  simp only [execPeerWindowWrite, onHostWrite_up hup, List.isEmpty_iff, if_neg hdata, done]

/-- Beside Clay and its poison marks, a write into the open window touches no unit. -/
theorem sameUnits_peerWindowWrite {pf rid offset : Nat} {data : Bytes} (hquiet : Quiet s) (hopen : peerOpen s pf rid offset data.length = true) :
    SameUnits (clayWrite (clayOffset s pf + offset) data s) (settle (peerWrite pf rid offset data false s)) := by
  have hwrite := outward_peerWrite hopen
  exact hwrite.units.trans (sameUnits_settle _ (quiet_of_kept hwrite.kept hquiet))

/-- A write into Clay changes nothing but Clay and its poison marks. -/
theorem clayWrite_frame {a : Nat} {d : Bytes} {t : State} (h : SameUnits (clayWrite a d s) t) :
    SameUnits { s with clay := t.clay, fault := t.fault } t := by
  rw [h.clay, h.fault]
  exact h

theorem peerWindowRead_up {pf : Nat} (hup : HostUp pf s) (rid offset n : Nat) :
    exec (.peerWindowRead pf rid offset n) s = .next (settle (peerRead pf rid offset n s)) := by
  obtain ⟨hdry, hdormant, hfrozen, -⟩ := hup
  show execPeerWindowRead pf rid offset n s = _
  simp only [execPeerWindowRead, if_neg hdry, hfrozen, if_neg hdormant, Bool.false_eq_true, if_false, done]

theorem peerRead_clean {pf rid offset n : Nat} (hopen : peerOpen s pf rid offset n = true) (hclean : Store.get [] 9 s.fault.poison = []) :
    peerRead pf rid offset n s = emit (.readBytes (readBytes s.clay (clayOffset s pf + offset) n) false) s := by
  simp only [peerRead, hopen, poisonedIn_clean hclean, Bool.not_true, Bool.false_eq_true, if_false]

/-- Settles O37: Clay after the write is Clay with the bytes stored as one run, and what follows the write leaves it alone. -/
theorem peerWindowStores : Obligations.PeerWindowStores := by
  intro pf rid offset data s hup hquiet hdata hopen hclean
  have hunits := sameUnits_peerWindowWrite hquiet hopen
  have hclay := hunits.clay.trans (clayWrite_clean hclean _ data)
  refine ⟨⟨_, peerWindowWrite_up hup hdata rid offset false, fun i hi => ?_, fun a ha => ?_, fun hwf => ?_, clayWrite_frame hunits⟩, ?_⟩
  · rw [hclay, store_get_setMany_inside 0 hi]
  · rw [hclay, store_get_setMany_outside 0 ha]
  · rw [hunits.clay]
    exact clayWrite_wf _ data s hwf
  · rw [peerWindowRead_up hup, peerRead_clean hopen hclean]

end Sys2Proof.Machine
end

section
/-! SUPPORT. A virtual function's admin ring (R161): the rows that it may carry, and what those that create and start queue pairs change, with the
obligation on it. -/

namespace Sys2Proof.Machine

open Sys2Proof

variable {i : Instr} {op : OpInfo} {c : Cmd} {s : State}

/-! ## What creating and starting a queue pair changes (R330, R331) -/

/-- The units of `SameUnits` are neither the queue pairs nor the admin registers. -/
theorem kept_queueRegs (qps : Store Qp) (adm : Store AdmRegs) (s : State) :
    Kept s { s with rings := { s.rings with qps := qps, adm := adm } } := by
  refine ⟨?_, id, id⟩
  constructor <;> simp

theorem kept_updQp (n : Nat) (g : Qp → Qp) (s : State) : Kept s (updQp n g s) := kept_queueRegs _ _ s

theorem kept_admReady (f n : Nat) (ready : Bool) (s : State) : Kept s (admReady f n ready s) := by
  unfold admReady
  split
  · exact .refl s
  · exact kept_queueRegs _ _ s

/-- An operation that answers at once keeps every unit when what it leaves does. -/
theorem keeps_answer {f : Target → Cmd → State → State × Answer} (h : ∀ t c s, Kept s (f t c s).1) : BodyKeeps (answer f) := fun _ => h

/-- A refusal leaves the state as it is. -/
theorem kept_unless {p : Prop} [Decidable p] {a : Answer} {o : State × Answer} (h : Kept s o.1) : Kept s (if p then (s, a) else o).1 := by
  split
  · exact .refl s
  · exact h

/-- QUEUE_CREATE is refused, or writes the one queue pair. -/
theorem queueCreate_keeps (c : Cmd) :
    ∃ body, BodyKeeps body ∧ ∀ s, exec (.queueCreate c) s = done (runCommand infoQueueCreate body c s) := by
  refine ⟨_, keeps_answer fun t c s => ?_, fun _ => rfl⟩
  split
  · exact .refl s
  · exact kept_unless (kept_unless (kept_unless (kept_queueRegs _ _ s)))

/-- QUEUE_START is refused, or restarts the one queue pair and, for a physical function, tells so in ADM_CTRL (R312). -/
theorem queueStart_keeps (c : Cmd) :
    ∃ body, BodyKeeps body ∧ ∀ s, exec (.queueStart c) s = done (runCommand infoQueueStart body c s) := by
  refine ⟨_, keeps_answer fun t c s => ?_, fun _ => rfl⟩
  split
  · exact .refl s
  · exact kept_unless (kept_unless (kept_unless ((kept_updQp _ _ s).trans (kept_admReady _ _ _ _))))

/-! ## What a virtual function's ring may carry (R161) -/

/-- A command on a virtual function's ring whose checks pass is one that such a ring may carry. -/
theorem vf_of_checks {t : Target} (hring : onVfRing c.chan = true) (h : checks op t c s = none) : op.vf = true := by
  simp only [checks, ite_eq_iff, reduceCtorEq, and_false, false_or] at h
  obtain ⟨-, -, -, -, -, -, hallowed, -⟩ := h
  have hcarries : vfAllowed op c = true := by simpa [hring] using hallowed
  exact (Bool.and_eq_true_iff.mp hcarries).1

/-- The rows that a virtual function's ring may carry: they only read, or are those of queue pairs. -/
theorem vfRow_cases (hrow : rowOf i = some (op, c)) (hvf : op.vf = true) :
    onlyReads i = true ∨ i = .queueCreate c ∨ i = .queueStart c ∨ op.code = 0x0402 ∨ op.code = 0x0404 := by
  cases i with
  | identify | capability | modeGet | echo | statusOf | countersRead | queueQuery => exact .inl rfl
  | queueCreate => cases hrow; exact .inr (.inl rfl)
  | queueStart => cases hrow; exact .inr (.inr (.inl rfl))
  | queueStop => cases hrow; exact .inr (.inr (.inr (.inl rfl)))
  | queueDestroy => cases hrow; exact .inr (.inr (.inr (.inr rfl)))
  | _ => cases hrow <;> cases hvf

/-- But for QUEUE_STOP and QUEUE_DESTROY they run with a body that changes no unit. -/
theorem vfRow_keeps (hrow : rowOf i = some (op, c)) (hvf : op.vf = true) (hstop : op.code ≠ 0x0402) (hdestroy : op.code ≠ 0x0404) :
    ∃ body, BodyKeeps body ∧ ∀ s, exec i s = done (runCommand op body c s) := by
  rcases vfRow_cases hrow hvf with hreads | rfl | rfl | hcode | hcode
  · obtain ⟨op', c', hrow', hbody⟩ := row_reads hreads
    cases hrow.symm.trans hrow'
    exact hbody
  · cases hrow
    exact queueCreate_keeps c
  · cases hrow
    exact queueStart_keeps c
  · exact absurd hcode hstop
  · exact absurd hcode hdestroy

/-- Settles O17: of the rows that the ring may not carry the body never runs, and those that it may carry have a body that changes no unit. -/
theorem vfRingChangesNoUnit : Obligations.VfRingChangesNoUnit := by
  intro i op c s t hrow hring hstop hdestroy hquiet hexec
  cases hvf : op.vf with
  | false =>
    obtain ⟨body, hbody⟩ := row_runs hrow
    have hrefused : ∀ u x, Kept s u → u.fwd = s.fwd → checks op x c u ≠ none :=
      fun u x _ _ hpass => Bool.false_ne_true (hvf.symm.trans (vf_of_checks hring hpass))
    exact sameUnits_done (kept_runCommand (.inr hrefused)) hquiet (hbody s ▸ hexec)
  | true =>
    obtain ⟨body, hkeeps, hbody⟩ := vfRow_keeps hrow hvf hstop hdestroy
    exact sameUnits_done (kept_runCommand (.inl hkeeps)) hquiet (hbody s ▸ hexec)

end Sys2Proof.Machine
end

section
/-! SUPPORT. Received line frames and the pause timers of a port (R169 to R174, R271), with the obligation on them. -/

namespace Sys2Proof.Machine

open Sys2Proof

variable {s : State}

/-! ## The pause clocks (R174, R271) -/

section
variable {port prio : Nat}

/-- The pause time of a held priority runs out, at the instant up to which it is held. -/
theorem pauseExpiry_held (hon : (heldAt s port prio).on = true) : exec (.pauseExpiry port prio) s =
    .next (settle (updHeld port prio (fun h => { h with on := false }) (advanceTo (heldAt s port prio).upTo s))) :=
  congrArg done (if_neg (by simp [hon]))

/-- A tripped watchdog that has seen no pause frame for PAUSE_WD honours pause again. -/
theorem pauseWatchdog_rearms (htripped : (heldAt s port prio).tripped = true) :
    let wd := (portAt s port).cfg.pauseWd * 1000000 * 65536
    exec (.pauseWatchdog port prio) s =
      .next (settle (updHeld port prio (fun h => { h with tripped := false, on := false }) (advanceTo ((heldAt s port prio).lastPause + wd) s))) :=
  congrArg done (if_pos htripped)

/-- A hold that lasts for PAUSE_WD trips the watchdog, with its event and its counter. -/
theorem pauseWatchdog_trips (htripped : (heldAt s port prio).tripped = false) (hon : (heldAt s port prio).on = true) :
    let wd := (portAt s port).cfg.pauseWd * 1000000 * 65536
    (heldAt s port prio).since + wd ≤ (heldAt s port prio).upTo → exec (.pauseWatchdog port prio) s =
      .next (settle (raise (400 + port) 0 (count (cPort port 11)
        (updHeld port prio (fun h => { h with tripped := true, on := false }) (advanceTo ((heldAt s port prio).since + wd) s))))) :=
  fun hlasts => congrArg done ((if_neg (by simp [htripped])).trans (if_pos (by simp [hon, hlasts])))

/-- XOFF is in force on a priority that may generate pause: it is repeated, or what the marks ask for is done. -/
theorem pauseXoffRepeat_due (hxoff : (heldAt s port prio).xoff = true) (hgen : pauseGen s port prio = true) :
    exec (.pauseXoffRepeat port prio) s = .next (settle (
      if (heldAt s port prio).xonKib * 1024 ≤ ingressBytes s port prio then sendPause port prio 0xFFFF s else pauseCheckOne port prio s)) :=
  congrArg done (if_pos (by simp [hxoff, hgen]))

end

/-! ## PORT_BUF_SET (R271, R276) -/

/-- Marks in their order, of a priority of a lane that is there, take effect at once. -/
theorem portBufSet_marks {t : Target} {c : Cmd} (h : Ready infoPortBufSet t c s) (hport : arg c 0 1 ≤ 15) (hprio : arg c 1 1 ≤ 7)
    (hmarks : arg c 4 4 < arg c 2 2) (hlane : arg c 0 1 < laneCount (taken infoPortBufSet c s)) :
    exec (.portBufSet c) s = answered infoPortBufSet c s (ok 0 0) (pauseCheckOne (arg c 0 1) (arg c 1 1)
      (updHeld (arg c 0 1) (arg c 1 1) (fun h => { h with xoffKib := arg c 2 2, xonKib := arg c 4 4 }) (taken infoPortBufSet c s))) :=
  ready_answers h ((if_neg (by omega)).trans (if_neg (Nat.not_le.mpr hlane)))

/-- Settles O40: the frame rows are the one receive path, and the others go row by row. -/
theorem lineAndPauseRows : Obligations.LineAndPauseRows := by
  intro port f s
  refine ⟨rfl, rfl, rfl, rfl, rfl, rfl, rfl, rfl, fun _ => pauseExpiry_held, fun _ => ⟨pauseWatchdog_rearms, pauseWatchdog_trips⟩,
    fun _ hxoff hgen => ⟨fun habove => ?_, fun hbelow => ?_⟩, fun t c h => portBufSet_marks h⟩
  · rw [pauseXoffRepeat_due hxoff hgen, if_pos habove]
  · rw [pauseXoffRepeat_due hxoff hgen, if_neg (Nat.not_le.mpr hbelow)]

end Sys2Proof.Machine
end

section
/-! SUPPORT. The sweeper's visit to an entry of an exact-match table (R229, R230), with the obligation on it. -/

namespace Sys2Proof.Machine

open Sys2Proof

variable {s : State}

/-- The report of a removed entry (R230): a record in the FIFO, or a lost one when the FIFO is full. -/
def reportAged (table : Nat) (e : EmEntry) (w : State) : State :=
  if 1024 ≤ w.tables.aged.length then count (cDev 28) w
  else
    let x := { w with tables := { w.tables with aged := w.tables.aged ++
      [{ table := table, learned := e.learned, rule := e.rule, user := e.user, time := nowNs w, key := e.key }] } }
    if w.tables.aged.isEmpty then raise 640 0 x else x

theorem sweeperVisit_notAgeing {table : Nat} (index : Nat) (h : emDefined s table = false ∨ (emAt s table).ageMs = 0) :
    exec (.sweeperVisit table index) s = .next (settle s) :=
  congrArg done (if_pos (by simpa using h))

section
variable {table index : Nat} {e : EmEntry} {v : State} (hdef : emDefined s table = true) (hage : (emAt s table).ageMs ≠ 0)
  (he : Store.get {} index (emAt s table).entries = e) (hv : updEm table (fun t => { t with sweep := (index + 1) % emCapacity t }) s = v)
include hdef hage he hv

/-- A visit in a table that ages moves the sweep on, and looks at whether the entry may age, at its hit bit and at its idle count, in this order. -/
theorem sweeperVisit_ageing : exec (.sweeperVisit table index) s = .next (settle (
    if e.key.isEmpty || e.static || poisonedIn v 9 (emAddr table index) 128 then v
    else if e.hit then emWrite table index { e with hit := false, idle := 0 } v
    else if e.idle = 0 then emWrite table index { e with idle := 1 } v
    else reportAged table e (count (cEm table 2) (emWrite table index {} v)))) := by
  subst he hv
  exact congrArg done (if_neg (by simp [hdef, hage]))

theorem sweeperVisit_stays (hstays : e.key = [] ∨ e.static = true ∨ poisonedIn v 9 (emAddr table index) 128 = true) :
    exec (.sweeperVisit table index) s = .next (settle v) := by
  rw [sweeperVisit_ageing hdef hage he hv, if_pos (by simpa [or_assoc] using hstays)]

variable (hkey : e.key ≠ []) (hstatic : e.static = false) (hgood : poisonedIn v 9 (emAddr table index) 128 = false)
include hkey hstatic hgood

/-- An entry that may age goes by its hit bit and its idle count alone. -/
theorem sweeperVisit_mayAge : exec (.sweeperVisit table index) s = .next (settle (
    if e.hit then emWrite table index { e with hit := false, idle := 0 } v
    else if e.idle = 0 then emWrite table index { e with idle := 1 } v
    else reportAged table e (count (cEm table 2) (emWrite table index {} v)))) := by
  rw [sweeperVisit_ageing hdef hage he hv, if_neg (by simp [hkey, hstatic, hgood])]

theorem sweeperVisit_hit (hhit : e.hit = true) :
    exec (.sweeperVisit table index) s = .next (settle (emWrite table index { e with hit := false, idle := 0 } v)) := by
  rw [sweeperVisit_mayAge hdef hage he hv hkey hstatic hgood, if_pos hhit]

variable (hidle : e.hit = false)
include hidle

theorem sweeperVisit_marks (hfirst : e.idle = 0) :
    exec (.sweeperVisit table index) s = .next (settle (emWrite table index { e with idle := 1 } v)) := by
  rw [sweeperVisit_mayAge hdef hage he hv hkey hstatic hgood, if_neg (ne_true_of_eq_false hidle), if_pos hfirst]

theorem sweeperVisit_removes (hagain : e.idle ≠ 0) : exec (.sweeperVisit table index) s =
    .next (settle (reportAged table e (count (cEm table 2) (emWrite table index {} v)))) := by
  rw [sweeperVisit_mayAge hdef hage he hv hkey hstatic hgood, if_neg (ne_true_of_eq_false hidle), if_neg hagain]

end

/-- Settles O47, one case per state of the entry, and of the FIFO for one that is removed. -/
theorem sweeperAgesEntries : Obligations.SweeperAgesEntries := by
  refine ⟨fun _ index _ => sweeperVisit_notAgeing index, fun table index s hdef hage => ?_⟩
  refine ⟨sweeperVisit_stays hdef hage rfl rfl, fun hkey hstatic hgood => ⟨sweeperVisit_hit hdef hage rfl rfl hkey hstatic hgood,
    sweeperVisit_marks hdef hage rfl rfl hkey hstatic hgood, fun hidle hagain => ?_⟩⟩
  have hremoves := sweeperVisit_removes hdef hage rfl rfl hkey hstatic hgood hidle hagain
  refine ⟨fun hfull => ?_, fun hroom => ?_⟩
  · rw [hremoves, reportAged, if_pos hfull]
  · rw [hremoves, reportAged, if_neg (Nat.not_le.mpr hroom)]

end Sys2Proof.Machine
end

section
/-! SUPPORT. COMMIT, the events of a switch, and EPOCH_GET (R240 to R246), with the obligation on them. -/

namespace Sys2Proof.Machine

open Sys2Proof

variable {c : Cmd} {s : State}

/-! ## Arming the switch (R242 steps 1 and 2) -/

section
variable {r : CmdRef} {new drain at0 : Nat} {group : Bool}

theorem armCommit_busy (h : s.tables.commit.isSome = true ∨ s.tables.loading = true) : armCommit r new drain at0 group s = .error (err stBusy 0) :=
  if_pos (Bool.or_eq_true_iff.mpr h)

variable (hcommit : s.tables.commit = none) (hloading : s.tables.loading = false)
include hcommit hloading

theorem armCommit_badReference {v : Nat} (href : refReason s.tables.inactive s = some v) :
    armCommit r new drain at0 group s = .error (err stState v) := by
  simp [armCommit, hcommit, hloading, href]

theorem armCommit_arms (href : refReason s.tables.inactive s = none) : armCommit r new drain at0 group s = .ok { s with tables := {
    s.tables with commit := some { ref := r, newEpoch := new, drainUs := drain, switchAt := max at0 (nowNs s), group := group } } } := by
  simp [armCommit, hcommit, hloading, href]

end

/-! ## COMMIT (R243, R245, R246) -/

/-- The longest drain that a COMMIT allows, in microseconds: 0 stands for 10 ms (R246). -/
def drainMax (c : Cmd) : Nat := if arg c 4 4 = 0 then 10000 else arg c 4 4

/-- A COMMIT whose switch is armed runs on, and one whose switch is not answers why. -/
def armedOr (u : State) : Except Answer State → State × Option Answer
  | .error a => (u, some a)
  | .ok v => (v, none)

section
variable (h : Ready infoCommit .device c s)
include h

/-- The no-op test comes before every other check of COMMIT's own (R243). -/
theorem commit_sameEpoch (hsame : arg c 0 2 = (taken infoCommit c s).tables.epoch) :
    exec (.commit c) s = answered infoCommit c s { status := stOk, detail := 1, r0 := arg c 0 2 } (taken infoCommit c s) :=
  (ready_run h _).trans (congrArg (ends infoCommit c s) (if_pos hsame))

variable (hnew : arg c 0 2 ≠ (taken infoCommit c s).tables.epoch) (hdrain : drainMax c ≤ 1000000)
include hnew hdrain

/-- To a new epoch a device's COMMIT ends as the arming of its switch does. -/
theorem commit_newEpoch : exec (.commit c) s = ends infoCommit c s
    (armedOr (taken infoCommit c s) (armCommit (refAt infoCommit c s) (arg c 0 2) (drainMax c) (arg c 8 8) false (taken infoCommit c s))) := by
  have hrun : exec (.commit c) s = _ := ready_run h _
  rw [hrun]
  exact congrArg (ends infoCommit c s) ((if_neg hnew).trans (if_neg (Nat.not_lt.mpr hdrain)))

theorem commit_refused {a : Answer}
    (harm : armCommit (refAt infoCommit c s) (arg c 0 2) (drainMax c) (arg c 8 8) false (taken infoCommit c s) = .error a) :
    exec (.commit c) s = answered infoCommit c s a (taken infoCommit c s) := by
  rw [commit_newEpoch h hnew hdrain, harm, armedOr, ends]

theorem commit_armed {v : State}
    (harm : armCommit (refAt infoCommit c s) (arg c 0 2) (drainMax c) (arg c 8 8) false (taken infoCommit c s) = .ok v) :
    exec (.commit c) s = runsOn infoCommit c s v := by
  rw [commit_newEpoch h hnew hdrain, harm, armedOr, ends]

end

section
variable {l : Nat} (h : Ready infoCommit (.aquifer l) c s)
include h

/-- An aquifer's COMMIT needs its instant (R245). -/
theorem commit_aquiferNoTime (htime : arg c 8 8 = 0) :
    exec (.commit c) s = answered infoCommit c s (err stBadLength 8) (taken infoCommit c s) :=
  (ready_run h _).trans (congrArg (ends infoCommit c s) (if_pos (by simp [Target.isAquifer, htime])))

/-- An aquifer's COMMIT that is no error is the group change (R245, R399). -/
theorem commit_aquiferStarts (htime : arg c 8 8 ≠ 0) (hdrain : drainMax c ≤ 1000000) {v : State}
    (hchange : groupChange (refAt infoCommit c s) c l false (arg c 0 2) (drainMax c) (arg c 8 8) (arg c 0 2)
      (fun x => if arg c 0 2 = x.tables.epoch then .ok x else armCommit (refAt infoCommit c s) (arg c 0 2) (drainMax c) (arg c 8 8) true x)
      (taken infoCommit c s) = (v, none)) :
    exec (.commit c) s = runsOn infoCommit c s v :=
  (ready_run h _).trans (congrArg (ends infoCommit c s)
    ((if_neg (by simp [htime])).trans ((if_pos rfl).trans ((if_neg (Nat.not_lt.mpr hdrain)).trans hchange))))

end

/-! ## EPOCH_GET (R246) -/

/-- RESULT0 of EPOCH_GET: the current epoch, the one that drains, and the bits of the drain, the copy and the marks. -/
def epochWord (drain : Nat) (running copying : Bool) (u : State) : Nat :=
  u.tables.epoch + 2 ^ 16 * drain + 2 ^ 32 * b2n running + 2 ^ 33 * b2n copying + 2 ^ 34 * b2n (!u.tables.written.isEmpty)

/-- What EPOCH_GET answers: of a drain under way it names the old epoch and counts who holds it. -/
def epochAnswer (u : State) : Answer :=
  match u.tables.commit with
  | some x =>
    if x.switched && !x.copying then ok (epochWord x.oldEpoch true false u) (holdersOf u x.oldEpoch).length
    else ok (epochWord u.tables.epoch false x.copying u) 0
  | none => ok (epochWord u.tables.epoch false false u) 0

theorem epochGet_ready {t : Target} (h : Ready infoEpochGet t c s) :
    exec (.epochGet c) s = answered infoEpochGet c s (epochAnswer (taken infoEpochGet c s)) (taken infoEpochGet c s) :=
  ready_read h _

theorem epochAnswer_idle (hcommit : s.tables.commit = none) : epochAnswer s = ok (epochWord s.tables.epoch false false s) 0 := by
  simp only [epochAnswer, hcommit]

section
variable {x : CommitSt} (hcommit : s.tables.commit = some x)
include hcommit

theorem epochAnswer_draining (hswitched : x.switched = true) (hcopying : x.copying = false) :
    epochAnswer s = ok (epochWord x.oldEpoch true false s) (holdersOf s x.oldEpoch).length := by
  have hdrains : (x.switched && !x.copying) = true := by simp [hswitched, hcopying]
  simp only [epochAnswer, hcommit, if_pos hdrains]

theorem epochAnswer_notDraining (hnot : x.switched = false ∨ x.copying = true) :
    epochAnswer s = ok (epochWord s.tables.epoch false x.copying s) 0 := by
  have hdrains : ¬ (x.switched && !x.copying) = true := by rcases hnot with hx | hx <;> simp [hx]
  simp only [epochAnswer, hcommit, if_neg hdrains]

end

/-! ## The switch, the drain and the copy (R242 steps 3 to 7) -/

section
variable {x : CommitSt} (hcommit : s.tables.commit = some x)
include hcommit

theorem commitSwitch_waiting (hwaits : x.switched = false) : exec .commitSwitch s = .next (settle (switchNow x s)) := by
  show execCommitSwitch s = _
  simp only [execCommitSwitch, hcommit, hwaits, Bool.false_eq_true, if_false, done]

theorem epochDrainEnd_drained (hswitched : x.switched = true) (hcopying : x.copying = false) (hnone : holdersOf s x.oldEpoch = []) :
    exec .epochDrainEnd s = .next (settle (startCopy x s)) := by
  have hdue : (x.switched && !x.copying && (holdersOf s x.oldEpoch).isEmpty) = true := by simp [hswitched, hcopying, hnone]
  show execEpochDrainEnd s = _
  simp only [execEpochDrainEnd, hcommit, if_pos hdue, done]

/-- Packets that outlast the drain are evicted at its end, out of SHUT-IN. -/
theorem drainMaxExpiry_evicts (hswitched : x.switched = true) (hcopying : x.copying = false) (hsome : holdersOf s x.oldEpoch ≠ [])
    (hopen : s.mode ≠ .shutIn) : let v := evictEpoch x.oldEpoch (advanceTo (x.switchedAt + x.drainUs * 1000 * 65536) s)
    exec .drainMaxExpiry s = .next (settle (startCopy { x with evicted := x.evicted + v.1 } v.2)) := by
  have hdue : ¬ (!x.switched || x.copying || (holdersOf s x.oldEpoch).isEmpty || s.mode == .shutIn) = true := by
    simp [hswitched, hcopying, hsome, hopen]
  show execDrainMaxExpiry s = _
  simp only [execDrainMaxExpiry, hcommit, if_neg hdue, done]

theorem commitDone_copied (hcopying : x.copying = true) :
    let v := copyPoison s
    let w := raise 641 0 {
      v with tables := { v.tables with inactive := v.tables.active, written := [], commit := none }, spdm := { v.spdm with imagesCommitted := v.spdm.images } }
    exec .commitDone s = .next (settle (if x.replied then w else replyGroup x.ref (ok w.tables.epoch x.evicted) w)) := by
  show execCommitDone s = _
  simp only [execCommitDone, hcommit, hcopying, Bool.not_true, Bool.false_eq_true, if_false, done]

end

/-- Settles O48, row by row; a device's COMMIT to a new epoch by whether the switch can be armed. -/
theorem commitRows : Obligations.CommitRows := by
  refine ⟨fun c s h => ⟨commit_sameEpoch h, fun hnew hdrain => ⟨fun hbusy => ?_, fun hcommit hloading => ⟨fun v href => ?_, fun href => ?_⟩⟩⟩,
    fun l c s h => ⟨commit_aquiferNoTime h, fun htime hdrain v => commit_aquiferStarts h htime hdrain⟩,
    fun t c s h => ⟨fun hcommit => ?_, fun x hcommit hswitched hcopying => ?_, fun x hcommit hnot => ?_⟩,
    fun s x hcommit => ⟨commitSwitch_waiting hcommit, fun hswitched hcopying => ⟨epochDrainEnd_drained hcommit hswitched hcopying,
      drainMaxExpiry_evicts hcommit hswitched hcopying⟩, commitDone_copied hcommit⟩⟩
  · exact commit_refused h hnew hdrain (armCommit_busy hbusy)
  · exact commit_refused h hnew hdrain (armCommit_badReference hcommit hloading href)
  · exact commit_armed h hnew hdrain (armCommit_arms hcommit hloading href)
  · exact epochAnswer_idle hcommit ▸ epochGet_ready h
  · exact epochAnswer_draining hcommit hswitched hcopying ▸ epochGet_ready h
  · exact epochAnswer_notDraining hcommit hnot ▸ epochGet_ready h

end Sys2Proof.Machine
end

section
/-! SUPPORT. The watermark slots of the Cistern (R272, R273), with the obligation on them. -/

namespace Sys2Proof.Machine

open Sys2Proof

/-- A nanosecond moves no level: it moves only the clocks, and no kind of level reads one. -/
theorem levelReads_tick (s : State) : LevelReads s (tick s) := by
  rw [tick_frame]
  exact ⟨rfl, rfl, fun _ => rfl, rfl, rfl, rfl⟩

theorem tick_wms (s : State) : (tick s).cis.wms = s.cis.wms := by
  rw [tick_frame]

/-- A slot that has looked at its level keeps its law over a nanosecond. -/
theorem watermarkLaw_tick {s : State} (h : WatermarkLaw s) : WatermarkLaw (tick s) := by
  rw [watermarkLaw_iff] at h ⊢
  intro n
  exact wmOk_same (levelReads_tick s) (congrArg (Store.get {} n) (tick_wms s)) (h n)

/-- Settles O6: a command ends in `settle`, in which every slot looks at its level whatever the command left, and an idle step moves neither
a slot nor a level. -/
theorem watermarksHaveLooked : Obligations.WatermarksHaveLooked := by
  intro s t hs hstep
  rcases step_cases hstep with ⟨u, rfl⟩ | ⟨-, rfl⟩
  · exact watermarkLaw_settle u
  · exact watermarkLaw_tick hs

end Sys2Proof.Machine
end

section
/-! SUPPORT. The commands of the cipher contexts (R284 to R289, R296), with the obligation on them. -/

namespace Sys2Proof.Machine

open Sys2Proof

variable {t : Target} {c : Cmd} {s u : State}

/-! ## CTX_LOAD (R286, R287) -/

theorem ctxLoad_notReady (h : Ready infoCtxLoad t c s) (hu : taken infoCtxLoad c s = u) (hentropy : u.entropyReady = false) :
    exec (.ctxLoad c) s = answered infoCtxLoad c s { status := stNotReady } u :=
  ready_answers h (by simp [hu, hentropy, err])

/-- The last two checks of R287, the public key and the wrap, and what CTX_LOAD does when they pass. -/
def loadKey (c : Cmd) (u : State) : State × Answer :=
  let n := arg c 0 4
  let gen := ((ctxAt u n).loadGen + 1) % 2 ^ 32
  if Config.onCurve (slice c.payload 104 96) = false then (u, err stDenied 0x11)
  else match Config.unwrapKey (imageId u).1 (imageId u).2 (slice c.payload 104 96) (slice c.payload 200 56) (wrapInfo u n) with
    | none => (u, err stDenied 0x10)
    | some w => (clearPoison 9 (ctxAddr n) 256
        (updCtx n (fun _ => { readCtx (slice c.payload 8 96) with key := w.take 32, key2 := slice w 32 16, loadGen := gen }) u), ok gen 0)

/-- Into a free context within its function's quota, the key alone decides. -/
theorem ctxLoad_loadKey (h : Ready infoCtxLoad t c s) (hu : taken infoCtxLoad c s = u) (hentropy : u.entropyReady = true)
    (hfree : (ctxAt u (arg c 0 4)).ty = 0) (hdeleted : (ctxAt u (arg c 0 4)).deleting = none)
    (hquota : ctxUsed u (readCtx (slice c.payload 8 96)).fn < (funcOf u (readCtx (slice c.payload 8 96)).fn).cipherCtx) :
    exec (.ctxLoad c) s = answered infoCtxLoad c s (loadKey c u).2 (loadKey c u).1 := by
  subst hu
  refine ready_answers h ((if_neg (by simp [hentropy])).trans ((if_neg (by simp [hfree, hdeleted])).trans ((if_neg (Nat.not_le.mpr hquota)).trans ?_)))
  rw [loadKey]
  cases Config.onCurve (slice c.payload 104 96) <;> rfl

/-! ## CTX_DELETE (R288) -/

/-- The state in which a context is being deleted by the command `r`: its TYPE is 0 at once, and its messages are waited for. -/
def ctxDoomed (r : CmdRef) (n : Nat) (u : State) : State := updCtx n (fun k => { k with ty := 0, deleting := some r, doneAfter := 0 }) u

/-- Of a context in use CTX_DELETE ends at once, or with the last message accepted under its key. -/
theorem ctxDelete_inUse (h : Ready infoCtxDelete t c s) (hu : taken infoCtxDelete c s = u) (hused : (ctxAt u (arg c 0 8)).ty ≠ 0) :
    let v := ctxDoomed (refAt infoCtxDelete c s) (arg c 0 8) u
    exec (.ctxDelete c) s = ends infoCtxDelete c s
      (if u.cipher.msgs.any (fun m => m.ctx == arg c 0 8) = true then (v, none) else (updCtx (arg c 0 8) ctxErase v, some (ok 0 0))) := by
  subst hu
  exact (ready_run h _).trans (congrArg (ends infoCtxDelete c s) (if_neg hused))

/-! ## CTX_READ, CTX_UPDATE and CIPHER_STATUS (R289, R296) -/

theorem ctxRead_clean (h : Ready infoCtxRead t c s) (hu : taken infoCtxRead c s = u) (hclean : poisonedIn u 9 (ctxAddr (arg c 0 8)) 256 = false) :
    exec (.ctxRead c) s =
      answered infoCtxRead c s (okOut (ctxAt u (arg c 0 8)).loadGen 0 (arg c 8 8) (ctxBytes (ctxAt u (arg c 0 8)))) u :=
  ready_answers h (by simp [hu, hclean])

/-- A context record with the fields that CTX_UPDATE selects written. -/
def ctxUpdated (c : Cmd) (k : CtxRec) : CtxRec := { k with
  txSeq := if bit (arg c 4 1) 0 then arg c 8 8 else k.txSeq
  rxTop := if bit (arg c 4 1) 1 then arg c 16 8 else k.rxTop
  window := if bit (arg c 4 1) 2 then arg c 24 4 else k.window
  soft := if bit (arg c 4 1) 3 then arg c 32 8 else k.soft
  hard := if bit (arg c 4 1) 4 then arg c 40 8 else k.hard }

/-- CTX_UPDATE of a context in use, with a window in range and a sequence number that goes up. -/
theorem ctxUpdate_updates (h : Ready infoCtxUpdate t c s) (hu : taken infoCtxUpdate c s = u) (hused : (ctxAt u (arg c 0 4)).ty ≠ 0)
    (hwindow : bit (arg c 4 1) 2 = true → (ctxAt u (arg c 0 4)).ty = 1 → 32 ≤ arg c 24 4 ∧ arg c 24 4 ≤ 512)
    (hseq : bit (arg c 4 1) 0 = true → (ctxAt u (arg c 0 4)).txSeq < arg c 8 8) :
    exec (.ctxUpdate c) s = answered infoCtxUpdate c s (ok 0 0) (updCtx (arg c 0 4) (ctxUpdated c) u) := by
  subst hu
  have hinRange : ¬ (bit (arg c 4 1) 2 = true ∧ (ctxAt (taken infoCtxUpdate c s) (arg c 0 4)).ty = 1 ∧ (arg c 24 4 < 32 ∨ 512 < arg c 24 4)) := by
    rintro ⟨hsel, hesp, hout⟩
    have := hwindow hsel hesp
    omega
  have hgoesUp : ¬ (bit (arg c 4 1) 0 = true ∧ arg c 8 8 ≤ (ctxAt (taken infoCtxUpdate c s) (arg c 0 4)).txSeq) :=
    fun ⟨hsel, hle⟩ => Nat.not_lt.mpr hle (hseq hsel)
  exact ready_answers h ((if_neg hinRange).trans ((if_neg hused).trans (if_neg hgoesUp)))

/-- Settles O50, row by row: CTX_LOAD by its checks of the key, CTX_DELETE by whether a message still needs the context. -/
theorem cipherCommands : Obligations.CipherCommands := by
  intro t c s
  refine ⟨fun h => ⟨ctxLoad_notReady h rfl, fun hentropy hfree hdeleted hquota => ?_⟩, fun h hused => ⟨fun hnone => ?_, fun hsome => ?_⟩,
    fun h => ctxRead_clean h rfl, fun h => ctxUpdate_updates h rfl, fun h => ready_read h _⟩
  · rw [ctxLoad_loadKey h rfl hentropy hfree hdeleted hquota, loadKey]
    split
    · rfl
    · cases Config.unwrapKey _ _ (slice c.payload 104 96) (slice c.payload 200 56) (wrapInfo _ (arg c 0 4)) with
      | none => rfl
      | some w => rfl
  · exact (ctxDelete_inUse h rfl hused).trans (congrArg (ends infoCtxDelete c s) (if_neg (ne_true_of_eq_false hnone)))
  · exact (ctxDelete_inUse h rfl hused).trans (congrArg (ends infoCtxDelete c s) (if_pos hsome))

end Sys2Proof.Machine
end

section
/-! SUPPORT. The events of device time: its states, the 1PPS pins, synchronous Ethernet and the PTP messages of a port (R337 to R345), with the
obligation on them. -/

namespace Sys2Proof.Machine

open Sys2Proof

variable {s : State}

/-! ## Device time moves on (R333) -/

/-- Moving device time on writes that time and nothing else. -/
theorem advanceTo_frame (t : Nat) (s : State) : ∃ u, advanceTo t s = { s with time := { s.time with t := u } } := by
  unfold advanceTo
  split
  · exact ⟨t, rfl⟩
  · exact ⟨s.time.t, rfl⟩

@[simp] theorem advanceTo_ppsOut (t : Nat) (s : State) : (advanceTo t s).time.ppsOut = s.time.ppsOut := by
  obtain ⟨u, hu⟩ := advanceTo_frame t s
  rw [hu]

@[simp] theorem advanceTo_cfg (t : Nat) (s : State) : (advanceTo t s).time.cfg = s.time.cfg := by
  obtain ⟨u, hu⟩ := advanceTo_frame t s
  rw [hu]

@[simp] theorem advanceTo_unlocked (t : Nat) (s : State) : unlocked (advanceTo t s) = unlocked s := by
  obtain ⟨u, hu⟩ := advanceTo_frame t s
  rw [hu]
  rfl

/-! ## Loss of a source (R337) -/

theorem syncLoss_locked (hruns : timeRuns s = true) (hlocked : s.time.state = .locked) (hsource : 2 ≤ s.time.cfg.source) :
    exec .syncLoss s = .next (settle (enterTState .holdover (advanceTo (s.time.lastMeas + s.time.cfg.syncLossMs * 1000000 * 65536) s))) :=
  congrArg done (if_pos (by simp [hruns, hlocked, hsource]))

theorem holdoverExpiry_holdover (hruns : timeRuns s = true) (hheld : s.time.state = .holdover) :
    exec .holdoverExpiry s = .next (settle (enterTState .free (advanceTo (s.time.holdSince + s.time.cfg.holdoverS * 1000000000 * 65536) s))) :=
  congrArg done (if_pos (by simp [hruns, hheld]))

/-! ## The 1PPS pins (R343, R344) -/

/-- An edge at an instant comes less than half a second after the one before it. -/
def edgeShort (t : Nat) (last : Option Nat) : Bool :=
  match last with
  | some x => decide (t - x < 500000000 * 65536)
  | none => false

/-- The FIFO of 16 takes an edge, or counts it as lost. -/
def edgeStored (e : PpsEdge) (s : State) : State :=
  if s.time.ppsFifo.length < 16 then { s with time := { s.time with ppsFifo := s.time.ppsFifo ++ [e] } }
  else count (cDev 41) { s with time := { s.time with ppsLost := s.time.ppsLost + 1 } }

/-- An edge is stored with its time, and is a measurement when the pin is the source and the edge is not too early. -/
theorem ppsInEdge_running (hruns : timeRuns s = true) :
    let t := stampAt s.time.t 0
    let short := edgeShort t s.time.ppsLast
    let w := edgeStored { t := t, short := short, unlocked := unlocked s } { s with time := { s.time with ppsLast := some t } }
    exec .ppsInEdge s = .next (settle (if s.time.cfg.source = 3 ∧ !short then measure (secondOffset t) w else w)) :=
  congrArg done (if_neg (by simp [hruns]))

/-- A pulse that is due rises at its instant: moving time on changes none of what it waits for. -/
theorem ppsOutRise_due (hon : s.time.cfg.ppsOutEn = true) (hmode : modeTalks s = true) (hlow : s.time.ppsOut = false)
    (hgate : s.time.cfg.ppsGate = false ∨ unlocked s = false) :
    let v := advanceNs (ppsNext s) s
    exec .ppsOutRise s = .next (settle (emit (.pinLevel .ppsOut true) { v with time := { v.time with ppsOut := true, ppsRose := v.time.t } })) := by
  have hopen : ¬ (s.time.ppsOut || (s.time.cfg.ppsGate && unlocked s)) = true := by
    rcases hgate with hfree | hlock
    · simp [hlow, hfree]
    · simp [hlow, hlock]
  exact congrArg done ((if_neg (by simp [hon, hmode])).trans (if_neg (by simpa [advanceNs] using hopen)))

theorem ppsOutFall_high (hhigh : s.time.ppsOut = true) :
    let v := advanceTo (s.time.ppsRose + s.time.cfg.ppsWidthMs * 1000000 * 65536) s
    exec .ppsOutFall s = .next (settle (emit (.pinLevel .ppsOut false) { v with time := { v.time with ppsOut := false } })) :=
  congrArg done (if_neg (by simp [hhigh]))

/-! ## Synchronous Ethernet (R345) -/

theorem synceLaneLoss_driven {pin : Nat} (hon : (synceAt s pin).enable = true) (hhigh : (synceAt s pin).low = false) :
    exec (.synceLaneLoss pin) s = .next (settle (raise (900 + pin) 0 (synceDrive pin true s))) :=
  congrArg done (if_pos (by simp [hon, hhigh]))

theorem synceClockReturn_low {pin : Nat} (hon : (synceAt s pin).enable = true) (hlow : (synceAt s pin).low = true) :
    exec (.synceClockReturn pin) s = .next (settle (synceDrive pin false s)) :=
  congrArg done (if_pos (by simp [hon, hlow]))

/-! ## The messages of a PTP port (R340) -/

/-- The state in which a port's next PTP message leaves: its sequence number has gone up. -/
def ptpNext (port : Nat) (s : State) : State := updPtp port (fun r => { r with seqNo := (r.seqNo + 1) % 65536 }) s

section
variable {port : Nat} (hsource : s.time.cfg.source = 2) (hrole : (portAt s port).ptp.role ≠ 0) (hup : lineUp s port = true)
include hsource hrole hup

/-- A port of a role under SOURCE 2 whose line is up is one that transmits. -/
theorem ptpPort_speaks : ¬ (s.time.cfg.source ≠ 2 ∨ (portAt s port).ptp.role = 0 ∨ (!lineUp s port) = true) := by
  simp [hsource, hrole, hup]

theorem ptpTransmit_sync (hmaster : s.time.bestPort ≠ some port) : let r := (portAt s port).ptp
    exec (.ptpTransmit port mSync) s = .next (settle (if r.oneStep then ptpSend port mSync 0 r.seqNo (zeros 10) [] true 0 (ptpNext port s)
      else ptpSend port mSync 0x0200 r.seqNo (zeros 10) [] false 2 (ptpNext port s))) :=
  congrArg done ((if_neg (ptpPort_speaks hsource hrole hup)).trans (if_pos ⟨rfl, by simp [hmaster]⟩))

theorem ptpTransmit_delayReq (hbest : s.time.bestPort = some port) : exec (.ptpTransmit port mDelayReq) s =
    .next (settle (ptpSend port mDelayReq 0 (portAt s port).ptp.seqNo (zeros 10) [] false 1 (ptpNext port s))) :=
  congrArg done ((if_neg (ptpPort_speaks hsource hrole hup)).trans ((if_neg fun h => absurd h.1 (by decide)).trans
    (if_pos ⟨rfl, by simp [hbest]⟩)))

theorem ptpTransmit_announce (hmaster : s.time.bestPort ≠ some port) : exec (.ptpTransmit port mAnnounce) s =
    .next (settle (ptpSend port mAnnounce 0 (portAt s port).ptp.seqNo
      (Config.announceBody port ((s.time.bestPort.bind fun b => (portAt s b).ptp.announce).getD 0)) [] false 0 (ptpNext port s))) :=
  congrArg done ((if_neg (ptpPort_speaks hsource hrole hup)).trans ((if_neg fun h => absurd h.1 (by decide)).trans
    ((if_neg fun h => absurd h.1 (by decide)).trans (if_pos ⟨rfl, by simp [hmaster]⟩))))

theorem ptpTransmit_signaling (hprofile : (portAt s port).ptp.profile = 2) : let r := (portAt s port).ptp
    exec (.ptpTransmit port mSignaling) s = .next (settle (ptpSend port mSignaling 0 r.seqNo
      (List.replicate 10 0xFF ++ toBe 2 4 ++ toBe 2 6 ++ toBe 1 0 ++ toBe 1 (unsigned 8 r.logSync) ++ toBe 4 300) [] false 0 (ptpNext port s))) :=
  congrArg done ((if_neg (ptpPort_speaks hsource hrole hup)).trans ((if_neg fun h => absurd h.1 (by decide)).trans
    ((if_neg fun h => absurd h.1 (by decide)).trans ((if_neg fun h => absurd h.1 (by decide)).trans (if_pos ⟨rfl, hprofile⟩)))))

end

/-- Settles O54, row by row; a Sync by whether its port is one-step. -/
theorem timeEvents : Obligations.TimeEvents := by
  intro s
  refine ⟨syncLoss_locked, holdoverExpiry_holdover, ppsInEdge_running, ppsOutRise_due, ppsOutFall_high,
    fun pin hon => ⟨synceLaneLoss_driven hon, synceClockReturn_low hon⟩, fun port hsource hrole hup => ⟨fun hmaster => ⟨fun hone => ?_, fun htwo => ?_,
      ptpTransmit_announce hsource hrole hup hmaster⟩, ptpTransmit_delayReq hsource hrole hup, ptpTransmit_signaling hsource hrole hup⟩⟩
  · exact (ptpTransmit_sync hsource hrole hup hmaster).trans (congrArg done (if_pos hone))
  · exact (ptpTransmit_sync hsource hrole hup hmaster).trans (congrArg done (if_neg (ne_true_of_eq_false htwo)))

end Sys2Proof.Machine
end

section
/-! SUPPORT. The fronthaul commands and events (R349 to R361), with the obligation on them. -/

namespace Sys2Proof.Machine

open Sys2Proof

variable {t : Target} {c : Cmd} {s u : State}

/-! ## FH_CARRIER_SET (R350, R351) -/

/-- FH_CARRIER_SET ends as the arming of its record does: it answers why the record is refused, or runs on while the record waits. -/
theorem fhCarrierSet_ends (h : Ready infoFhCarrierSet t c s) : exec (.fhCarrierSet c) s = ends infoFhCarrierSet c s
    (armedOr (taken infoFhCarrierSet c s) (setCarrier (some (refAt infoFhCarrierSet c s)) c.payload (taken infoFhCarrierSet c s))) :=
  ready_run h _

theorem fhCarrierSet_waits (h : Ready infoFhCarrierSet t c s) {v : State}
    (hset : setCarrier (some (refAt infoFhCarrierSet c s)) c.payload (taken infoFhCarrierSet c s) = .ok v) :
    exec (.fhCarrierSet c) s = runsOn infoFhCarrierSet c s v := by
  rw [fhCarrierSet_ends h, hset, armedOr, ends]

theorem fhCarrierSet_refused (h : Ready infoFhCarrierSet t c s) {a : Answer}
    (hset : setCarrier (some (refAt infoFhCarrierSet c s)) c.payload (taken infoFhCarrierSet c s) = .error a) :
    exec (.fhCarrierSet c) s = answered infoFhCarrierSet c s a (taken infoFhCarrierSet c s) := by
  rw [fhCarrierSet_ends h, hset, armedOr, ends]

/-! ## FH_FLOW_SET and FH_FLOW_STATUS (R353, R361) -/

theorem fhFlowSet_writes (h : Ready infoFhFlowSet t c s) (hu : taken infoFhFlowSet c s = u) {v : State}
    (hwrite : writeFlows (arg c 0 2) (arg c 4 4) (records 32 (arg c 8 4) (c.payload.drop 16)) u = .ok v)
    (hlanes : ∀ b ∈ records 32 (arg c 8 4) (c.payload.drop 16), (readFlow b).port < laneCount u) :
    exec (.fhFlowSet c) s = answered infoFhFlowSet c s (ok (arg c 8 4) 0) v := by
  have hthere : ¬ ((records 32 (arg c 8 4) (c.payload.drop 16)).any fun b => decide (laneCount u ≤ (readFlow b).port)) = true := by
    simpa using hlanes
  exact ready_answers h (by simp only [hu, hwrite, if_neg hthere])

theorem fhFlowSet_refused (h : Ready infoFhFlowSet t c s) (hu : taken infoFhFlowSet c s = u) {i : Nat}
    (hwrite : writeFlows (arg c 0 2) (arg c 4 4) (records 32 (arg c 8 4) (c.payload.drop 16)) u = .error i) :
    exec (.fhFlowSet c) s = answered infoFhFlowSet c s (err stBadLength i) u :=
  ready_answers h (by simp only [hu, hwrite])

/-- FH_FLOW_STATUS of flows that exist, without CLEAR, only reads their counters. -/
theorem fhFlowStatus_reads (h : Ready infoFhFlowStatus t c s) (hu : taken infoFhFlowStatus c s = u) (hsome : 1 ≤ arg c 4 2) (hmany : arg c 4 2 ≤ 4096)
    (hlast : arg c 0 4 + arg c 4 2 ≤ 4096) (hkeep : bit (arg c 6 1) 0 = false) :
    exec (.fhFlowStatus c) s = answered infoFhFlowStatus c s
      (okOut (arg c 4 2) 0 (arg c 8 8) ((Store.run {} (arg c 0 4) (arg c 4 2) u.fh.cnt).map flowCntBytes).flatten) u := by
  subst hu
  exact ready_answers h ((if_neg (by omega)).trans (congrArg (·, _) (if_neg (ne_true_of_eq_false hkeep))))

/-! ## FH_GRID_QUERY (R349, R361) -/

/-- What FH_GRID_QUERY answers of carrier `n` at an instant: the symbol that holds it, and that symbol's start. -/
def gridAnswer (u : State) (n : Nat) (time : Int) : Answer :=
  let k := carrierAt u n
  let p := slotParts k (slotAtTime k time)
  let sym := ((List.range 14).filter fun i => decide (symStart k p.1 p.2.1 p.2.2 i ≤ time)).getLastD 0
  ok (unsigned 64 (symStart k p.1 p.2.1 p.2.2 sym / 65536))
    ((p.1 % 256).toNat + 2 ^ 8 * p.2.1 + 2 ^ 12 * p.2.2 + 2 ^ 16 * sym + 2 ^ 20 * symDir k p.1 p.2.1 p.2.2 sym + 2 ^ 22 * b2n (suspended u n))

theorem fhGridQuery_enabled (h : Ready infoFhGridQuery t c s) (hu : taken infoFhGridQuery c s = u) (hn : arg c 0 8 ≤ 31)
    (hon : (carrierAt u (arg c 0 8)).enable = true) :
    exec (.fhGridQuery c) s = answered infoFhGridQuery c s (gridAnswer u (arg c 0 8) (arg c 8 8 * 65536 : Nat)) u := by
  subst hu
  exact (ready_read h _).trans (congrArg (answered infoFhGridQuery c s · _) (if_neg (by simp [hn, hon])))

/-! ## The events of a carrier and of a flow (R351, R355, R357) -/

section
variable {n : Nat} (hruns : timeRuns s = true)
include hruns

theorem carrierResume_suspended (hsuspended : suspended s n = true) (hlock : unlocked s = false) :
    let v := advanceTo (boundaryFrom (carrierAt s n) 1 s.time.t).toNat s
    exec (.carrierResume n) s =
      .next (settle (raise (992 + n) 0 { v with fh := { v.fh with suspended := Store.set false n false v.fh.suspended } })) :=
  congrArg done (if_pos (by simp [hruns, hsuspended, hlock]))

/-- The next window of a receive flow of a carrier that runs closes WIN_B after its symbol. -/
theorem fhWindowClose_closes {x : Int} (hon : (flowAt s n).enable = true) (hrx : (flowAt s n).tx = false)
    (hcarrier : carrierRuns s (flowAt s n).carrier = true) (hnext : nextClose s n (flowAt s n) = some x) :
    let v := advanceTo (x + (flowAt s n).winB * 65536).toNat s
    exec (.fhWindowClose n) s = .next (settle { v with fh := { s.fh with closed := Store.set 0 n (x.toNat + 1) s.fh.closed } }) := by
  have hopen : ¬ (!(flowAt s n).enable || (flowAt s n).tx || !carrierRuns s (flowAt s n).carrier || !timeRuns s) = true := by
    simp [hon, hrx, hcarrier, hruns]
  show execFhWindowClose n s = _
  simp only [execFhWindowClose, if_neg hopen, hnext, done]

end

/-- The record `w` of carrier `n` takes the place of the one in effect, at its instant; the carrier stays suspended only when it must (R351, R355). -/
def recordTakesEffect (n : Nat) (w : PendCarrier) (s : State) : State :=
  let v := advanceTo w.effAt s
  let v := rearmSwitches n { v with fh := {
    v.fh with pending := Store.set {} n {} v.fh.pending, carriers := Store.set {} n w.record v.fh.carriers,
              olds := Store.set {} n { record := carrierAt v n, effAt := w.effAt } v.fh.olds } }
  let v := if w.record.enable && !w.record.runUnlocked then v else { v with fh := { v.fh with suspended := Store.set false n false v.fh.suspended } }
  timeGate (suspendAll v)

section
variable {n : Nat} {w : PendCarrier} (hruns : timeRuns s = true) (hw : Store.get ({} : PendCarrier) n s.fh.pending = w) (hdue : w.effAt ≠ 0)
include hruns hw hdue

/-- A record that is due takes effect, and the FH_CARRIER_SET that left it waiting is answered. -/
theorem carrierRecordEffective_due : exec (.carrierRecordEffective n) s = .next (settle
    (w.ref.elim (recordTakesEffect n w s) fun r => replyIfRunning r (ok (w.effAt / 65536) 0) (recordTakesEffect n w s))) := by
  have hnot : ¬ (w.effAt = 0 ∨ (!timeRuns s) = true) := by simp [hdue, hruns]
  show execCarrierRecordEffective n s = _
  simp only [execCarrierRecordEffective, hw, if_neg hnot]
  cases w.ref <;> rfl

end

/-- Settles O55, row by row; a record that takes effect by whether a command waits for it. -/
theorem fronthaulRows : Obligations.FronthaulRows := by
  refine ⟨fun t c s => ⟨fun h => ⟨fun v => fhCarrierSet_waits h, fun a => fhCarrierSet_refused h⟩,
    fun h => ⟨fun v => fhFlowSet_writes h rfl, fun i => fhFlowSet_refused h rfl⟩, fun h => fhFlowStatus_reads h rfl, fun h => fhGridQuery_enabled h rfl⟩,
    fun n s hruns => ⟨carrierResume_suspended hruns, fun x => fhWindowClose_closes hruns, fun hdue => ⟨fun r href => ?_, fun href => ?_⟩⟩⟩
  · rw [carrierRecordEffective_due hruns rfl hdue, href]
    rfl
  · rw [carrierRecordEffective_due hruns rfl hdue, href]
    rfl

end Sys2Proof.Machine
end

section
/-! SUPPORT. The step, the reset, and what answering a command leaves alone (R16, R20, R79, R387), with the obligations on them. -/

namespace Sys2Proof.Machine

open Sys2Proof

variable {op : OpInfo} {c : Cmd} {s : State}

/-! ## The step -/

/-- Settles O1: a step is the command at the front of the queue. -/
theorem stepRunsFront : Obligations.StepRunsFront := fun _ _ _ => rfl

/-- With the clocks stopped a nanosecond is 10^6 parts of a seep tick's 30,517,578,125 (R77). -/
theorem tick_stopped (h : s.wh.clocksStopped = true) : (tick s).time = s.time ∧
    (tick s).wh.ticks * 30517578125 + (tick s).wh.tickAcc = s.wh.ticks * 30517578125 + s.wh.tickAcc + 1000000 := by
  by_cases hfull : 30517578125 ≤ s.wh.tickAcc + 1000000
  · have htick : tick s = { s with wh := { s.wh with tickAcc := s.wh.tickAcc + 1000000 - 30517578125, ticks := s.wh.ticks + 1 } } := by
      rw [tick, if_pos h, if_pos hfull]
    have hticks : (tick s).wh.ticks = s.wh.ticks + 1 := by rw [htick]
    have hacc : (tick s).wh.tickAcc = s.wh.tickAcc + 1000000 - 30517578125 := by rw [htick]
    refine ⟨by rw [htick], ?_⟩
    rw [hticks, hacc]
    omega
  · have htick : tick s = { s with wh := { s.wh with tickAcc := s.wh.tickAcc + 1000000 } } := by
      rw [tick, if_pos h, if_neg hfull]
    have hticks : (tick s).wh.ticks = s.wh.ticks := by rw [htick]
    have hacc : (tick s).wh.tickAcc = s.wh.tickAcc + 1000000 := by rw [htick]
    refine ⟨by rw [htick], ?_⟩
    rw [hticks, hacc]
    omega

theorem tick_dry (h : s.wh.clocksStopped = false) (hdry : s.mode = .dry) : tick s = s := by
  rw [tick, if_neg (ne_true_of_eq_false h), if_pos hdry]

/-- The parts of 2^-16 ns, in 10^-12, that a nanosecond adds to what device time has of the next (R338). -/
def tickParts (s : State) : Nat := s.time.sub + (65536 * (1000000000000 + s.time.freqPpt)).toNat

theorem tick_running_eq (h : s.wh.clocksStopped = false) (hdry : s.mode ≠ .dry) : tick s = { s with
    time := { s.time with t := s.time.t + tickParts s / 1000000000000, sub := tickParts s % 1000000000000 } } := by
  rw [tick, if_neg (ne_true_of_eq_false h), if_neg hdry, tickParts]

/-- With the clocks running a nanosecond moves device time on at the frequency correction, in parts of 2^-16 ns (R338). -/
theorem tick_running (h : s.wh.clocksStopped = false) (hdry : s.mode ≠ .dry) : (tick s).wh = s.wh ∧
    (tick s).time.t * 1000000000000 + (tick s).time.sub =
      s.time.t * 1000000000000 + s.time.sub + (65536 * (1000000000000 + s.time.freqPpt)).toNat := by
  have ht : (tick s).time.t = s.time.t + tickParts s / 1000000000000 := by rw [tick_running_eq h hdry]
  have hsub : (tick s).time.sub = tickParts s % 1000000000000 := by rw [tick_running_eq h hdry]
  refine ⟨by rw [tick_running_eq h hdry], ?_⟩
  rw [ht, hsub, tickParts]
  omega

/-- Settles O2, one case per clock that runs. -/
theorem idleStepIsOneNanosecond : Obligations.IdleStepIsOneNanosecond := by
  intro s hpending
  refine ⟨tick s, ?_, tick_frame s, tick_dry, tick_running, tick_stopped⟩
  simp only [step, hpending]

/-! ## The state after reset -/

/-- Only the entries of the physical functions' own channels are valid after reset (R71). -/
theorem reset_chanEntry (c : Nat) : (chanEntry State.reset c).valid = true ↔ c = 4 ∨ c = 5 := by
  simp only [chanEntry, State.reset, State.resetChanTab, Store.get]
  split
  · simp_all
  · split
    · simp_all
    · simp_all [eq_comm]

theorem reset_evtEnable (n : Nat) : evtEnable State.reset n = true ↔ n = 0 := by
  simp [evtEnable, State.reset, Store.get, eq_comm]

/-- A physical function has its 64 queue pairs and vectors after reset (R149). -/
theorem reset_physical {p : Nat} (h : p < 2) : (funcOf State.reset p).qpCount = 64 ∧ (funcOf State.reset p).qpBase = 64 * p ∧
    (funcOf State.reset p).vecCount = 64 ∧ (funcOf State.reset p).vecBase = 64 * p ∧ (funcOf State.reset p).created = true := by
  obtain rfl | rfl : p = 0 ∨ p = 1 := by omega
  · exact ⟨rfl, rfl, rfl, rfl, rfl⟩
  · exact ⟨rfl, rfl, rfl, rfl, rfl⟩

theorem reset_virtual {v : Nat} (h : 2 ≤ v) : (funcOf State.reset v).created = false := by
  have hfirst : ¬ 0 = v := by omega
  have hsecond : ¬ 1 = v := by omega
  simp [funcOf, State.reset, State.resetFuncs, Store.get, hfirst, hsecond]

/-- Settles O3, field by field. -/
theorem resetIsPriming : Obligations.ResetIsPriming :=
  ⟨rfl, rfl, rfl, rfl, rfl, rfl, rfl, rfl, reset_chanEntry, reset_evtEnable, rfl, fun _ => reset_physical, fun _ => reset_virtual⟩

/-- Neither physical function's INTx line is asserted or due after reset. -/
theorem intxLaw_reset : IntxLaw State.reset := by
  intro pf h
  obtain rfl | rfl : pf = 0 ∨ pf = 1 := by omega
  · decide
  · decide

/-- No watermark slot has a source after reset. -/
theorem watermarkLaw_reset : WatermarkLaw State.reset := by
  intro n w hkind
  have hnone : ¬ 1 ≤ wmKind ({} : Wm) := by decide
  exact absurd hkind hnone

/-- Settles O7, one invariant after the other. -/
theorem invariantsAtReset : Obligations.InvariantsAtReset :=
  ⟨⟨rfl, fun _ h => absurd h (by simp [State.reset]), fun _ h => absurd h (by simp [State.reset])⟩, intxLaw_reset, watermarkLaw_reset, reset_clay_wf⟩

/-! ## Answers -/

/-- An answer that its channel takes back leaves the units of the state it is given in. -/
theorem sameUnits_answered {u t : State} {a : Answer} (hquiet : Quiet u) (hback : tooMuchBack c.chan a = false) (h : answered op c s a u = .next t) :
    SameUnits u t := by
  rw [answered, if_neg (ne_true_of_eq_false hback)] at h
  exact sameUnits_done (answers_reply _ _ _).kept hquiet h

/-- A command whose output its link does not take back leaves the units as it found them (R387). -/
theorem sameUnits_answered_tooMuch {u t : State} {a : Answer} (hquiet : Quiet s) (hback : tooMuchBack c.chan a = true)
    (h : answered op c s a u = .next t) : SameUnits s t := by
  rw [answered, if_pos hback] at h
  exact sameUnits_done ((answers_taken op c s).trans (answers_reply _ _ _)).kept hquiet h

theorem sameUnits_runsOn {u t : State} (hquiet : Quiet u) (h : runsOn op c s u = .next t) : SameUnits u t :=
  sameUnits_done (answers_markStage _ _ _).kept hquiet h

/-- Settles O15: taking a command, answering it and marking that it runs on are all operations that only answer. -/
theorem answerTouchesNoUnit : Obligations.AnswerTouchesNoUnit := by
  intro op c s u t a
  exact ⟨(answers_taken op c s).units, quiet_of_answers (answers_taken op c s), sameUnits_answered, sameUnits_answered_tooMuch, sameUnits_runsOn⟩

/-- Settles O16: a row that only reads is the shared run with a body that changes no unit. -/
theorem readingRowsChangeNoUnit : Obligations.ReadingRowsChangeNoUnit := by
  intro i s t hreads hquiet hexec
  obtain ⟨op, c, -, body, hkeeps, hrun⟩ := row_reads hreads
  exact sameUnits_done (kept_runCommand (.inl hkeeps)) hquiet (hrun s ▸ hexec)

end Sys2Proof.Machine
end

section
/-! SUPPORT. The events of a mode change and of wake (R17, R22, R23, R107 to R110, R406, R407), with the obligation on them. -/

namespace Sys2Proof.Machine

open Sys2Proof

variable {s : State}

/-! ## A timed change falls due (R17, R57) -/

@[simp] theorem advanceNs_mode (t : Nat) (s : State) : (advanceNs t s).mode = s.mode := by
  obtain ⟨u, hu⟩ := advanceTo_frame (t * 65536) s
  rw [advanceNs, hu]

@[simp] theorem advanceNs_transit (t : Nat) (s : State) : (advanceNs t s).transit = s.transit := by
  obtain ⟨u, hu⟩ := advanceTo_frame (t * 65536) s
  rw [advanceNs, hu]

@[simp] theorem advanceNs_aq (t : Nat) (s : State) : (advanceNs t s).aq = s.aq := by
  obtain ⟨u, hu⟩ := advanceTo_frame (t * 65536) s
  rw [advanceNs, hu]

/-- A device's own change that is still one that MODE_SET may make begins at its instant. -/
theorem modeSetAtTime_begins {a : ArmedMode} (harmed : s.armedMode = some a) (hgroup : s.aq.change = none) (htransit : s.transit = none)
    (hnew : s.mode ≠ a.target) (hown : a.cause ≠ 5) (hkept : a.abandon = false)
    (hchange : modeChange { advanceNs a.atNs s with armedMode := none } a.target = .ok ()) :
    exec .modeSetAtTime s = .next (settle (beginMode a.ref a.target a.cause { advanceNs a.atNs s with armedMode := none })) := by
  have halone : ¬ (advanceNs a.atNs s).aq.change.any (fun x => x.isMode && !x.waiting.isEmpty) = true := by simp [hgroup]
  have hfree : ¬ (advanceNs a.atNs s).transit.isSome = true := by simp [htransit]
  have hother : ¬ a.target = (advanceNs a.atNs s).mode := by simpa using hnew.symm
  show execModeSetAtTime s = _
  simp only [execModeSetAtTime, harmed, if_neg halone, if_neg hown, if_neg (ne_true_of_eq_false hkept), if_neg hfree, if_neg hother, hchange, done]

/-! ## The gate decides (R101, R107) -/

section
variable {x : Transit} (htransit : s.transit = some x)
include htransit

theorem gateDecided_fails {v : Nat} (hgate : x.gate = true) (hreason : gateReason s = some v) : exec .gateDecided s =
    .next (settle (answerMode x.ref { status := stState, detail := v, r0 := s.mode.code } (gateFails v { s with transit := none }))) := by
  show execGateDecided s = _
  simp only [execGateDecided, htransit, hgate, Bool.not_true, Bool.false_eq_true, if_false, hreason, done]

theorem gateDecided_passes {r : CmdRef} (hgate : x.gate = true) (hreason : gateReason s = none) (href : x.ref = some r) : exec .gateDecided s =
    .next (settle (markStage r 1 { s with blocked := false, blockReason := 0, transit := some { x with gate := false } })) := by
  show execGateDecided s = _
  simp only [execGateDecided, htransit, hgate, Bool.not_true, Bool.false_eq_true, if_false, hreason, href, done]

/-! ## A change is complete (R22, R26, R107, R108) -/

variable (hopen : x.gate = false)
include hopen

theorem modeTransitionComplete_priming (htarget : x.target = .priming) : exec .modeTransitionComplete s =
    .next (settle (answerMode x.ref (ok 1 0) (setMode .priming x.cause (leaveService s)))) := by
  show execModeTransitionComplete s = _
  simp only [execModeTransitionComplete, htransit, hopen, htarget, Bool.false_eq_true, if_false, done, Mode.code]

theorem modeTransitionComplete_flowing (htarget : x.target = .flowing) (hmode : s.mode = .proving) : exec .modeTransitionComplete s =
    .next (settle (answerMode x.ref (ok 3 0) (setMode .flowing x.cause s))) := by
  show execModeTransitionComplete s = _
  simp only [execModeTransitionComplete, htransit, hopen, htarget, hmode, reduceCtorEq, decide_false, Bool.false_eq_true, if_false, done, Mode.code]

/-- The first entry into service sets CHAN_LOCK (R73), and the rings go on. -/
theorem modeTransitionComplete_proving (htarget : x.target = .proving) (hmode : s.mode = .priming) : exec .modeTransitionComplete s =
    .next (settle (answerMode x.ref (ok 2 0) (resumeRings { setMode .proving x.cause s with served := true }))) := by
  show execModeTransitionComplete s = _
  simp only [execModeTransitionComplete, htransit, hopen, htarget, hmode, decide_true, Bool.false_eq_true, if_false, if_true, done, Mode.code]

variable (htarget : x.target = .dormant)
include htarget

/-- DORMANT waits for the transmit descriptors that are being processed. -/
theorem modeTransitionComplete_waits (hreading : txReading s = true) : exec .modeTransitionComplete s = .next (settle s) := by
  show execModeTransitionComplete s = _
  simp only [execModeTransitionComplete, htransit, hopen, htarget, hreading, Bool.false_eq_true, if_false, if_true, done]

/-- Once none is, and no wake event has overtaken the entry (R31), the reply goes out and the device rests. -/
theorem modeTransitionComplete_dormant (hreading : txReading s = false) (hkept : (parkDevice s).transit.any (·.abandon) = false) :
    let u := answerMode x.ref (ok 4 0) (raise 69 0 { parkDevice s with transit := none })
    exec .modeTransitionComplete s = .next (settle (restDevice { u with mode := .dormant, entryCause := x.cause, dormantFrom := u.mode })) := by
  show execModeTransitionComplete s = _
  simp only [execModeTransitionComplete, htransit, hopen, htarget, hreading, hkept, Bool.false_eq_true, if_false, done, Mode.code]

end

/-! ## DORMANT and wake (R108 to R110, R342, R406, R407) -/

theorem portSignalDetect_armed {port : Nat} (harm : (portAt s port).cfg.wakeArm = true) (hlane : port < laneCount s) :
    exec (.portSignalDetect port) s = .next (settle (latchWake 3 s)) :=
  congrArg done (if_pos (by simp [harm, hlane]))

section
variable (hmode : s.mode = .dormant)
include hmode

theorem dormantClocksStop_stops (hrun : s.wh.clocksStopped = false) (hasleep : s.wh.waking = false) :
    exec .dormantClocksStop s = .next (settle {
      s with wh := { s.wh with clocksStopped := true, ticks := 0, tickAcc := 0, timerFired := false }, time := { s.time with coarse := s.time.t } }) :=
  congrArg done (if_neg (by simp [hmode, hrun, hasleep]))

/-- A wake that no SPDM request waits for only wakes the device. -/
theorem wakeDone_wakes (hwaking : s.wh.waking = true) (hheld : s.spdm.held = []) :
    exec .wakeDone s = .next (settle (updSpdm (fun x => { x with held := [] }) (wakeUp s))) := by
  have hwake : s.mode = .dormant ∧ s.wh.waking = true := ⟨hmode, hwaking⟩
  show execWakeDone s = _
  simp only [execWakeDone, if_pos hwake, hheld, List.foldl_nil, done]

theorem whWake_latches {fn : Nat} {value : Word} (hfrozen : frozen s fn = false) (hpf : isVf fn = false) (hbit : value.getLsbD 0 = true) :
    exec (.whWake fn value) s = .next (settle (latchWake 1 s)) :=
  congrArg done ((if_neg (by simp [hmode])).trans ((if_neg (by simp [hfrozen])).trans ((if_neg (by simp [hpf])).trans (if_pos ⟨hmode, hbit⟩))))

theorem wakeTimer_fires (hstopped : s.wh.clocksStopped = true) (hticks : s.wh.timer ≠ 0) (hfirst : s.wh.timerFired = false) :
    exec .wakeTimer s =
      .next (settle (latchWake 5 { s with wh := { s.wh with timerFired := true, ticks := max s.wh.ticks s.wh.timer.toNat } })) :=
  congrArg done (if_neg (by simpa [hmode, hstopped, hfirst] using hticks))

end

/-- Settles O28, row by row; MODE_TRANSITION_COMPLETE by the mode that it reaches. -/
theorem modeAndWakeEvents : Obligations.ModeAndWakeEvents := by
  intro s
  exact ⟨fun a => modeSetAtTime_begins, fun x v htransit => gateDecided_fails htransit, fun x r htransit => gateDecided_passes htransit, fun x => modeTransitionComplete_priming,
    fun x => modeTransitionComplete_flowing, fun x => modeTransitionComplete_proving, fun x => modeTransitionComplete_waits,
    fun x => modeTransitionComplete_dormant, dormantClocksStop_stops, wakeDone_wakes, rfl, fun fn value hmode => whWake_latches hmode, wakeTimer_fires,
    fun port => portSignalDetect_armed⟩

end Sys2Proof.Machine
end

section
/-! SUPPORT. The rows of the host links and of function resets (R76, R108, R125, R126, R133 to R141, R475), with the obligation on them. -/

namespace Sys2Proof.Machine

open Sys2Proof

variable {s : State}

/-! ## A link of the arrangement (R76, R112, R137, R140, R475) -/

section
variable {link : Nat} (hlink : (linkList s).contains link = true)
include hlink

theorem perst_resets : exec (.perst link) s = .next (settle (resetLink link s)) := congrArg done (if_pos hlink)

theorem hotReset_resets : exec (.hotReset link) s = .next (settle (resetLink link s)) := congrArg done (if_pos hlink)

theorem linkTrained_trains {rate width : Nat} (flit : Bool) (hwidth : width ∈ [1, 2, 4, 8, 16])
    (hmost : width ≤ (if s.boot.straps.hostBif then 8 else 16)) (hlo : 1 ≤ rate) (hhi : rate ≤ 7) :
    exec (.linkTrained link rate width flit) s = .next (settle (updLink link (fun x =>
      { x with up := true, lstate := 0, l1sub := 0, rate := rate, width := width, flit := decide (6 ≤ rate) || flit }) s)) := by
  have hwidth' : [1, 2, 4, 8, 16].contains width = true := List.contains_iff_mem.mpr hwidth
  exact congrArg done (if_neg (by simp only [hlink, hwidth', decide_eq_true hmost]; simp; omega))

/-- A link that goes down does so with an error, which freezes it. -/
theorem link_down : let down := aerError link 1 (updLink link (fun x => { x with up := false, lstate := 3, l1sub := 0 }) s)
    exec (.surpriseDown link) s = .next (settle (freezeLink link 1 down)) ∧ exec (.hostRefclkLoss link) s = .next (settle (freezeLink link 1 down)) := by
  have hthere : ¬ (!(linkList s).contains link) = true := by rw [hlink]; decide
  exact ⟨congrArg done (if_neg hthere), congrArg done (if_neg hthere)⟩

theorem pcieUncorrectableError_freezes {code : Nat} (hlo : 2 ≤ code) (hhi : code ≤ 7) : exec (.pcieUncorrectableError link code) s =
    .next (settle (freezeLink link code (aerError link code (emit (.pcieError link code) s)))) :=
  congrArg done (if_neg (by simp only [hlink]; simp; omega))

end

/-! ## CONT_RELEASE (R140, R141) -/

section
variable {fn : Nat} (hfn : fn < 2) (hfrozen : (linkAt s (linkOf s fn)).frozen = true) (hdry : s.mode ≠ .dry)
include hfn hfrozen hdry

/-- A release of a frozen link is refused, or leaves SHUT-IN, or thaws the link. -/
theorem contRelease_frozen : let x := linkAt s (linkOf s fn)
    exec (.contRelease fn 0xA5) s = .next (settle (
      if !x.up ∨ x.lstate ≠ 0 ∨ (s.mode = .shutIn ∧ !coolEnough s) then updCfg fn (fun c => { c with relRefused := true }) s
      else if s.mode = .shutIn then releaseShutIn s
      else thawLink (linkOf s fn) ((linkPfs s (linkOf s fn)).foldl (fun t f => flrAll f t) s))) :=
  congrArg done (if_neg (by simp [hfrozen, hdry]; omega))

theorem contRelease_refused (hwhy : (linkAt s (linkOf s fn)).up = false ∨ (linkAt s (linkOf s fn)).lstate ≠ 0 ∨
    (s.mode = .shutIn ∧ coolEnough s = false)) :
    exec (.contRelease fn 0xA5) s = .next (settle (updCfg fn (fun c => { c with relRefused := true }) s)) := by
  rw [contRelease_frozen hfn hfrozen hdry, if_pos (by simpa using hwhy)]

variable (hup : (linkAt s (linkOf s fn)).up = true) (hactive : (linkAt s (linkOf s fn)).lstate = 0)
include hup hactive

theorem contRelease_thaws (hmode : s.mode ≠ .shutIn) : exec (.contRelease fn 0xA5) s =
    .next (settle (thawLink (linkOf s fn) ((linkPfs s (linkOf s fn)).foldl (fun t f => flrAll f t) s))) := by
  rw [contRelease_frozen hfn hfrozen hdry, if_neg (by simp [hup, hactive, hmode]), if_neg hmode]

theorem contRelease_leavesShutIn (hmode : s.mode = .shutIn) (hcool : coolEnough s = true) :
    exec (.contRelease fn 0xA5) s = .next (settle (releaseShutIn s)) := by
  rw [contRelease_frozen hfn hfrozen hdry, if_neg (by simp [hup, hactive, hcool]), if_pos hmode]

end

/-! ## Configuration writes and FLR (R108, R130, R133 to R136) -/

/-- An FLR that comes while one of the function runs is ignored. -/
theorem flr_ignored {fn : Nat} (hflr : (cfgOf s fn).flr = true) : exec (.flr fn) s = .next (settle s) := congrArg done (if_pos (.inr hflr))

section
variable {fn : Nat} (hanswers : answersCfg s fn = true)
include hanswers

theorem busMasterEnable_sets (on : Bool) : exec (.busMasterEnable fn on) s = .next (settle (setBme fn on s)) := congrArg done (if_pos hanswers)

theorem atsEnableClear_clears (hats : (cfgOf s fn).ats = true) : exec (.atsEnableClear fn) s = .next (settle (atsOff fn s)) :=
  congrArg done (if_pos (by simp [hanswers, hats]))

theorem flr_begins (hflr : (cfgOf s fn).flr = false) (hmode : s.mode ≠ .dormant) : exec (.flr fn) s =
    .next (settle (flrBegin fn (if isVf fn then s else (vfsOf s fn).foldl (fun t v => flrBegin v t) s))) :=
  congrArg done ((if_neg (by simp [hanswers, hflr])).trans (if_neg hmode))

theorem flr_dormant (hflr : (cfgOf s fn).flr = false) (hmode : s.mode = .dormant) :
    exec (.flr fn) s = .next (settle (latchWake 7 (updCfg fn (fun c => { c with deferFlr := true }) s))) :=
  congrArg done ((if_neg (by simp [hanswers, hflr])).trans (if_pos hmode))

/-- Function Mask and MSI-X Enable are written in configuration space. -/
theorem msixUnmask_cfg (hdry : s.mode ≠ .dry) : exec (.msixUnmask fn 0 1) s = .next (settle (setMsixCtl fn (cfgOf s fn).msixEn false s)) ∧
    exec (.msixUnmask fn 0 2) s = .next (settle (setMsixCtl fn true (cfgOf s fn).fnMask s)) := by
  have hhere : ¬ ((!answersCfg s fn) = true ∨ s.mode = .dry) := by simp [hanswers, hdry]
  exact ⟨congrArg done (if_neg hhere), congrArg done (if_neg hhere)⟩

end

/-- An entry's Mask is written in BAR4, in which only backed entries are there. -/
theorem msixUnmask_bar {fn : Nat} (hup : HostUp fn s) (entry : Nat) :
    exec (.msixUnmask fn entry 0) s = .next (settle (if vecBacked s fn ≤ entry then s else unmaskEntry fn entry s)) := by
  show done (onHostWrite fn (fun s => if vecBacked s fn ≤ entry then s else unmaskEntry fn entry s) s) = _
  rw [onHostWrite_up hup, done]

theorem flrComplete_ends {fn : Nat} (hflr : (cfgOf s fn).flr = true) : let vs := if isVf fn then [] else vfsOf s fn
    exec (.flrComplete fn) s =
      .next (settle ((fn :: vs).foldl (fun t f => destroyDone f t) (flrEnd fn (vs.foldl (fun t v => flrWhole v t) s)))) :=
  congrArg done (if_neg (by simp [hflr]))

section
variable {pf : Nat} (hpf : pf < 2)
include hpf

theorem vfEnableClear_clears (hon : (cfgOf s pf).vfEnable = true) :
    exec (.vfEnableClear pf) s = .next (settle (updCfg pf (fun c => { c with vfEnable := false }) (flrVfs pf s))) :=
  congrArg done (if_neg (by simp [hon]; omega))

theorem vfEnableSet_sets {n : Nat} (hn : n ≤ 512) (hoff : (cfgOf s pf).vfEnable = false) :
    exec (.vfEnableSet pf n) s = .next (settle (updCfg pf (fun c => { c with vfEnable := true, numVfs := n }) s)) :=
  congrArg done (if_neg (by simp [hoff]; omega))

end

/-- Settles O35, row by row; an FLR by whether it takes the virtual functions with it. -/
theorem linkAndFlrRows : Obligations.LinkAndFlrRows := by
  intro s link fn
  refine ⟨fun hlink => ⟨perst_resets hlink, hotReset_resets hlink, fun rate width flit => linkTrained_trains hlink flit, ?_⟩,
    fun hfn hfrozen hdry => ⟨contRelease_thaws hfn hfrozen hdry, contRelease_leavesShutIn hfn hfrozen hdry, contRelease_refused hfn hfrozen hdry⟩,
    fun hanswers => ⟨busMasterEnable_sets hanswers, atsEnableClear_clears hanswers, flr_ignored, fun hflr => ⟨fun hmode hvf => ?_,
        fun hmode hpf => ?_, flr_dormant hanswers hflr⟩, fun hup entry => ⟨fun hbacked => ?_, fun hbeyond => ?_⟩, msixUnmask_cfg hanswers⟩,
    flrComplete_ends, fun hpf => ⟨vfEnableClear_clears hpf, fun n => vfEnableSet_sets hpf⟩⟩
  · exact ⟨(link_down hlink).1, (link_down hlink).2, fun code => pcieUncorrectableError_freezes hlink⟩
  · rw [flr_begins hanswers hflr hmode, if_pos hvf]
  · rw [flr_begins hanswers hflr hmode, if_neg (ne_true_of_eq_false hpf)]
  · rw [msixUnmask_bar hup, if_neg (Nat.not_le.mpr hbacked)]
  · rw [msixUnmask_bar hup, if_pos hbeyond]

end Sys2Proof.Machine
end

section
/-! SUPPORT. The tenancy commands (R147 to R158, R162, R165), with the obligation on them; before them, how a row whose body answers or runs on ends. -/

namespace Sys2Proof.Machine

open Sys2Proof

variable {t : Target} {c : Cmd} {s u : State}

/-! ## How a row whose checks pass ends -/

/-- A row whose body answers is answered so, in the state that the body leaves. -/
theorem ready_replies {op : OpInfo} (h : Ready op t c s) {body : Body} {v : State} {a : Answer}
    (hbody : body (refAt op c s) t c (taken op c s) = (v, some a)) : done (runCommand op body c s) = answered op c s a v := by
  rw [ready_run h, hbody, ends]

/-- A row whose body does not answer runs on. -/
theorem ready_runsOn {op : OpInfo} (h : Ready op t c s) {body : Body} {v : State}
    (hbody : body (refAt op c s) t c (taken op c s) = (v, none)) : done (runCommand op body c s) = runsOn op c s v := by
  rw [ready_run h, hbody, ends]

/-! ## FUNC_CREATE (R150 to R156) -/

section
variable (h : Ready infoFuncCreate t c s) (hu : taken infoFuncCreate c s = u)
include h hu

/-- A record in range that fits the device's pools is placed and installed. -/
theorem funcCreate_installs {f : Nat} (hf : arg c 0 2 = f) (hrights : funcRefused (refAt infoFuncCreate c s) f u = none)
    (hrange : allocInRange f (readAlloc c.payload) = true) (hmode : isVf f = false → u.mode = .priming)
    (hnew : isVf f = true → (funcOf u f).created = false) (hcipher : (readAlloc c.payload).cipherCtx = 0 ∨ hasCipher u = true)
    (hfits : allocMisfit u f (readAlloc c.payload) = none) : let p := placeAlloc u f (readAlloc c.payload)
    exec (.funcCreate c) s = answered infoFuncCreate c s (ok (p.qpBase + 65536 * p.vecBase) f) (clearFnCounters f (installFunc f p u)) := by
  subst hf
  have hpriming : ¬ ((!isVf (arg c 0 2)) = true ∧ u.mode ≠ .priming) := fun ⟨hpf, hm⟩ => hm (hmode (by simpa using hpf))
  have hfree : ¬ (isVf (arg c 0 2) = true ∧ (funcOf u (arg c 0 2)).created = true) := fun ⟨hvf, hcreated⟩ => by simp [hnew hvf] at hcreated
  have hunits : ¬ ((readAlloc c.payload).cipherCtx ≠ 0 ∧ (!hasCipher u) = true) := by
    rintro ⟨hsome, hnone⟩
    rcases hcipher with hzero | hthere
    · exact hsome hzero
    · simp [hthere] at hnone
  exact ready_replies h (by simp only [hu, hrights, hrange, Bool.not_true, Bool.false_eq_true, if_false, if_neg hpriming, if_neg hfree,
    if_neg hunits, hfits])

end

/-! ## FUNC_DESTROY (R157, R158) -/

section
variable (h : Ready infoFuncDestroy t c s) (hu : taken infoFuncDestroy c s = u) (hvf : 2 ≤ arg c 0 8)
  (hrights : funcRefused (refAt infoFuncDestroy c s) (arg c 0 8) u = none) (hcreated : (funcOf u (arg c 0 8)).created = true)
include h hu hvf hrights hcreated

theorem funcDestroy_destroys (hflr : (cfgOf u (arg c 0 8)).flr = false) : exec (.funcDestroy c) s =
    answered infoFuncDestroy c s (ok (destroyFn (arg c 0 8) (pfOf (arg c 0 8)) u).1 0) (destroyFn (arg c 0 8) (pfOf (arg c 0 8)) u).2 :=
  ready_replies h (by simp only [hu, if_neg (Nat.not_lt.mpr hvf), hrights, hcreated, hflr, Bool.not_true, Bool.false_eq_true, if_false])

/-- While an FLR of the function runs, its destruction waits. -/
theorem funcDestroy_waits (hflr : (cfgOf u (arg c 0 8)).flr = true) : exec (.funcDestroy c) s =
    runsOn infoFuncDestroy c s (updFunc (arg c 0 8) (fun x => { x with destroying := some (refAt infoFuncDestroy c s) }) u) :=
  ready_runsOn h (by simp only [hu, if_neg (Nat.not_lt.mpr hvf), hrights, hcreated, hflr, Bool.not_true, Bool.false_eq_true, if_false, if_true])

end

/-! ## FUNC_QUERY and SPOOF_SET (R150, R155, R162, R165) -/

theorem funcQuery_reads (h : Ready infoFuncQuery t c s) (hu : taken infoFuncQuery c s = u)
    (hrights : funcRefused (refAt infoFuncQuery c s) (arg c 0 8) u = none) : exec (.funcQuery c) s = answered infoFuncQuery c s
      (okOut (b2n (funcOf u (arg c 0 8)).created) 0 (arg c 8 8) (allocBytes (arg c 0 8) (funcOf u (arg c 0 8)))) u :=
  ready_replies h (by simp only [hu, hrights])

/-- A whole allow list in range, within the function's quota, replaces the one in force. -/
theorem spoofSet_replaces (h : Ready infoSpoofSet t c s) (hu : taken infoSpoofSet c s = u) {f l n : Nat} {es : List Bytes}
    (hf : arg c 0 2 = f) (hl : arg c 2 1 = l) (hn : arg c 4 2 = n)
    (hes : records (spoofSize l) (n + 1) (slice c.payload 8 (n * spoofSize l)) = es) (hrights : funcRefused (refAt infoSpoofSet c s) f u = none)
    (hlist : l ≤ 4) (hquota : l = 4 → n ≤ (funcOf u f).eaxcEntries) (hmost : n ≤ spoofMost l) (hlen : c.payloadLen = 8 + n * spoofSize l)
    (hprefix : es.any (badPrefix l) = false) : exec (.spoofSet c) s = answered infoSpoofSet c s (ok n 0)
      (updFunc f (fun x => { x with spoof := Store.set {} l { enable := bit (arg c 3 1) 0, entries := es } x.spoof }) u) := by
  subst hf hl hn
  have hgood : ¬ (4 < arg c 2 1 ∨ spoofMost (arg c 2 1) < arg c 4 2 ∨ c.payloadLen ≠ 8 + arg c 4 2 * spoofSize (arg c 2 1) ∨
      es.any (badPrefix (arg c 2 1)) = true) := by
    simp [hlen, hprefix, Nat.not_lt.mpr hlist, Nat.not_lt.mpr hmost]
  have hwithin : ¬ (arg c 2 1 = 4 ∧ (funcOf u (arg c 0 2)).eaxcEntries < arg c 4 2) := fun ⟨heaxc, hover⟩ => Nat.not_lt.mpr (hquota heaxc) hover
  exact ready_replies h (by simp only [hu, hrights, hes, if_neg hgood, if_neg hwithin])

/-- Settles O39, row by row; FUNC_DESTROY by whether an FLR of the function runs. -/
theorem tenancyCommands : Obligations.TenancyCommands := by
  intro t c s
  refine ⟨fun h hrights hrange hkind => funcCreate_installs h rfl rfl hrights hrange (fun hpf => ?_) (fun hvf => ?_),
    fun h hvf hrights hcreated => ⟨funcDestroy_destroys h rfl hvf hrights hcreated, funcDestroy_waits h rfl hvf hrights hcreated⟩,
    fun h => funcQuery_reads h rfl, fun h => spoofSet_replaces h rfl rfl rfl rfl rfl⟩
  · rwa [if_neg (ne_true_of_eq_false hpf)] at hkind
  · rwa [if_pos hvf] at hkind

end Sys2Proof.Machine
end

section
/-! SUPPORT. The rows of a port's sender (R25, R169, R175, R182, R264 to R270, R309), with the obligation on them. -/

namespace Sys2Proof.Machine

open Sys2Proof

variable {s : State} {port : Nat}

/-! ## The dequeue (R264 to R268) -/

theorem egressDequeue_port (hport : port < 16) (hfree : portFree s port = true) :
    exec (.egressDequeue port) s = .next (settle (portDequeue port s)) :=
  congrArg done ((if_neg (Nat.ne_of_lt hport)).trans (if_pos ⟨hport, hfree⟩))

/-! ## Low-power idle (R175) -/

/-- An idle port of an Ethernet link rests, when its PHY type defines low-power idle. -/
theorem lpiEntry_idle (hlpi : (portAt s port).cfg.lpi = true) (hup : lineUp s port = true) (hawake : (portAt s port).lpiOn = false)
    (hlb : (portAt s port).lb ≠ 3) (hidle : portIdle s port = true) :
    exec (.lpiEntry port) s = .next (settle (if phyWake s port = 0 then s else updPort port (fun p => { p with lpiOn := true })
      (advanceTo ((portAt s port).idleSince + (portAt s port).cfg.lpiIdle * 1000 * 65536) s))) := by
  show execLpiEntry port s = _
  by_cases hphy : phyWake s port = 0
  · simp [execLpiEntry, hphy, done]
  · simp only [execLpiEntry, hlpi, hup, hawake, hidle, bne_iff_ne.mpr hlb, bne_iff_ne.mpr hphy, Bool.not_false, Bool.and_self, if_true,
      if_neg hphy, done]

/-- The transmitter wakes ahead of the first timed packet of its port. -/
theorem lpiWake_resting {l : Nat} (hresting : (portAt s port).lpiOn = true) (hnext : ((freeHeads s port).map (·.1)).min? = some l) :
    exec (.lpiWake port) s = .next (settle (updPort port (fun p => { p with lpiOn := false }) (advanceTo (l * 65536 - phyWake s port) s))) := by
  show execLpiWake port s = _
  simp only [execLpiWake, hresting, Bool.not_true, Bool.false_eq_true, if_false, hnext, done]

/-! ## The timed band (R269, R270) -/

/-- The state at the instant at which a timed packet can start on its port: at L, or as soon after it as the port can send. -/
def timedFrom (port : Nat) (p : Packet) (s : State) : State := advanceTo (max (launchAt p * 65536) (txReady s port)) s

/-- The state in which the packet at the head of a timed queue has left it to start. -/
def timedTaken (port queue : Nat) (p : Packet) (s : State) : State :=
  popQueue queue (sample 2 queue ((((timedFrom port p s).time.t : Int) - p.joined) / 65536) (timedFrom port p s))

section
variable {queue : Nat} {p : Packet} {rest : List Packet} (hport : portOfQueue s.tables.active queue = some port)
  (hhead : Store.get [] queue s.cis.queues = p :: rest) (hlisted : (freeHeads s port).contains (launchAt p, queue) = true)
  (hfirst : ∀ x ∈ freeHeads s port, launchAt p < x.1 ∨ (launchAt p = x.1 ∧ queue ≤ x.2)) (hfree : portFree s port = true)
  (hstitch : (portAt s port).cfg.mode = 2 → stitchTakes s port p = true)
include hport hhead hlisted hfirst hfree hstitch

/-- The packet that goes next of its port leaves its queue; one that is late counts, and is dropped where its queue's record says so. -/
theorem timedLaunch_next : let r := netRec s.tables.active queue
    let late := decide ((launchAt p + r.lateTol) * 65536 < (timedFrom port p s).time.t)
    let u := if late then count (cPort port 22) (timedTaken port queue p s) else timedTaken port queue p s
    exec (.timedLaunch queue) s = .next (settle (if late && r.lateDrop then endPkt p qLate 0 none u
      else launchPkt port { p with late := late } (if goesOut u port p then chargeTimed queue (wireSize p) u else u))) := by
  have hnext : ((freeHeads s port).all fun x => decide (launchAt p < x.1 ∨ (launchAt p = x.1 ∧ queue ≤ x.2))) = true :=
    List.all_eq_true.mpr fun x hx => decide_eq_true (hfirst x hx)
  have hroom : ((portAt s port).cfg.mode == 2 && !stitchTakes s port p) = false := by
    by_cases hmode : (portAt s port).cfg.mode = 2
    · simp [hstitch hmode]
    · simp [hmode]
  show execTimedLaunch queue s = _
  simp only [execTimedLaunch, hport, hhead, hlisted, hnext, hfree, hroom, Bool.not_true, Bool.or_self, Bool.false_eq_true, if_false, done]
  rfl

theorem timedLaunch_onTime (hontime : (timedFrom port p s).time.t ≤ (launchAt p + (netRec s.tables.active queue).lateTol) * 65536) :
    let w := timedTaken port queue p s
    exec (.timedLaunch queue) s =
      .next (settle (launchPkt port { p with late := false } (if goesOut w port p then chargeTimed queue (wireSize p) w else w))) := by
  have hlate := decide_eq_false (Nat.not_lt.mpr hontime)
  rw [timedLaunch_next hport hhead hlisted hfirst hfree hstitch]
  simp only [hlate, Bool.false_and, Bool.false_eq_true, if_false]

theorem timedLaunch_late (hpast : (launchAt p + (netRec s.tables.active queue).lateTol) * 65536 < (timedFrom port p s).time.t) :
    let u := count (cPort port 22) (timedTaken port queue p s)
    exec (.timedLaunch queue) s = .next (settle (if (netRec s.tables.active queue).lateDrop then endPkt p qLate 0 none u
      else launchPkt port { p with late := true } (if goesOut u port p then chargeTimed queue (wireSize p) u else u))) := by
  have hlate := decide_eq_true hpast
  rw [timedLaunch_next hport hhead hlisted hfirst hfree hstitch]
  simp only [hlate, Bool.true_and, if_true]

end

/-! ## The test generator (R182) -/

/-- A generator that runs on a port with a free wire sends its next frame between the scheduler's. -/
theorem testgenFrame_sends {gen : Nat} (hrun : (genAt s gen).run = true) (hup : lineUp s (genAt s gen).port = true)
    (hwire : (portAt s (genAt s gen).port).onWire = none) :
    let g := genAt s gen
    let len := testLen g g.sent
    let v := advanceTo (max g.nextAt (txReady s g.port)) s
    let start := v.time.t
    let rate := portMbps (portAt s g.port)
    let pace := if g.rateKbps = 0 then rate * 1000 else g.rateKbps
    let w := updGen gen (fun g => { g with sent := (g.sent + 1) % 2 ^ 64, run := !(g.count != 0 && decide (g.count ≤ g.sent + 1)),
                                           nextAt := start + (if pace = 0 then 0 else 8 * (len + 20) * 65536 * 1000000 / pace) })
      (updPort g.port (fun p => { p with lpiOn := false, txFree := start + bitTime (8 * (len + 20)) rate, idleSince := start + bitTime (8 * len) rate }) v)
    let d := testFrame g gen g.sent (start / 65536)
    beforeTimed v g.port (len + 20) = true → exec (.testgenFrame gen) s = .next (settle (
      if (portAt s g.port).lb = 1 ∨ (portAt s g.port).lb = 2 then arrive g.port { data := d, fcs := BitVec.ofNat 32 (fcs32 d) } start (wireOut g.port d false w)
      else wireOut g.port d false w)) := by
  intro g len v start rate pace w d hbefore
  have hready : ¬ (!(genAt s gen).run || !lineUp s (genAt s gen).port || (portAt s (genAt s gen).port).onWire.isSome) = true := by
    simp [hrun, hup, hwire]
  have hfits : ¬ (!beforeTimed v g.port (len + 20)) = true := by simp [hbefore]
  exact congrArg done ((if_neg hready).trans (if_neg hfits))

/-- Settles O41, row by row; a timed packet by whether it is late, and a test frame by whether its port loops it back. -/
theorem egressRows : Obligations.EgressRows := by
  intro port s
  refine ⟨rfl, egressDequeue_port, rfl, lpiEntry_idle, fun l => lpiWake_resting,
    fun queue p rest hport hhead hlisted hfirst hfree hstitch => ⟨timedLaunch_onTime hport hhead hlisted hfirst hfree hstitch,
      fun hpast => ⟨fun hdrop => ?_, fun hkeep => ?_⟩⟩, fun gen hrun hup hwire => fun hbefore => ⟨fun hone htwo => ?_, fun hloops => ?_⟩⟩
  · exact (timedLaunch_late hport hhead hlisted hfirst hfree hstitch hpast).trans (congrArg done (if_pos hdrop))
  · exact (timedLaunch_late hport hhead hlisted hfirst hfree hstitch hpast).trans (congrArg done (if_neg (ne_true_of_eq_false hkeep)))
  · exact (testgenFrame_sends hrun hup hwire hbefore).trans (congrArg done (if_neg (by simp [hone, htwo])))
  · exact (testgenFrame_sends hrun hup hwire hbefore).trans (congrArg done (if_pos hloops))

end Sys2Proof.Machine
end

section
/-! SUPPORT. Port links, width steps and the module buses (R167, R168, R174 to R179, R187, R475), with the obligation on them. -/

namespace Sys2Proof.Machine

open Sys2Proof

variable {s : State} {port bus : Nat}

theorem widthDownshiftTrigger_wide (hwide : 2 ≤ (portAt s port).width) :
    exec (.widthDownshiftTrigger port) s = .next (settle (proposeWidth port ((portAt s port).width / 2) 0 s)) :=
  congrArg done (if_pos hwide)

theorem lineRefclkLoss_running (hdry : s.mode ≠ .dry) : exec .lineRefclkLoss s = .next (settle (portsDown s)) := congrArg done (if_neg hdry)

/-! ## MODULE_POLL (R178) -/

/-- The record of a module bus once the monitors of its module and the data path state of its lanes have been read. -/
def busPolled (bus : Nat) (bytes : List (Nat × Byte)) (states : List Nat) (s : State) : State :=
  updBus bus (fun b => {
    b with pages := bytes.foldl (fun st (x : Nat × Byte) => Store.set 0 x.1 x.2 st) b.pages, dataPath := Store.setMany 0 0 (states.take 4) [] }) s

/-- Flags among the monitors raise MOD_ALARM. -/
def busAlarmed (bus : Nat) (v : State) : State :=
  if (List.range 4).any (fun i => Store.get 0 (pageKey 0x50 0 0 (8 + i)) (busAt v bus).pages != 0) then raise (448 + bus) 0 v else v

section
variable (hmode : modeTalks s = true) (hlane : 4 * bus < laneCount s) (hfree : (busAt s bus).xfer = none)
include hmode hlane hfree

/-- A bus of a lane that is there, with no transfer in hand, is polled. -/
theorem modulePoll_due : ¬ (!modeTalks s || decide (laneCount s ≤ 4 * bus) || (busAt s bus).xfer.isSome) = true := by
  simp [hmode, hfree, hlane]

theorem modulePoll_absent (bytes : List (Nat × Byte)) (states : List Nat) :
    exec (.modulePoll bus false bytes states) s = .next (settle (updBus bus (fun b => { b with pages := [], dataPath := [] }) s)) :=
  congrArg done (if_neg (modulePoll_due hmode hlane hfree))

/-- Where every lane's data path is as its port wants it, nothing is driven. -/
theorem modulePoll_matching (bytes : List (Nat × Byte)) (states : List Nat) : let w := busAlarmed bus (busPolled bus bytes states s)
    (∀ j, j < 4 → Store.get 0 j (busAt w bus).dataPath = if laneUsed w (4 * bus + j) then 4 else 1) →
      exec (.modulePoll bus true bytes states) s = .next (settle w) := by
  intro w hright
  have hnone : ¬ ((List.range 4).any fun j => Store.get 0 j (busAt w bus).dataPath != (if laneUsed w (4 * bus + j) then 4 else 1)) = true := by
    simpa using hright
  exact congrArg done ((if_neg (modulePoll_due hmode hlane hfree)).trans (if_neg hnone))

end

/-! ## A transfer on a module bus (R179, R187) -/

section
variable {x : ModXfer} (hxfer : (busAt s bus).xfer = some x)
include hxfer

theorem modBusStretchTimeout_abandons :
    exec (.modBusStretchTimeout bus) s = .next (settle (emit (.moduleBus bus 2 []) (abandonXfer bus 0x12 1 x s))) := by
  show execModBusStretchTimeout bus s = _
  simp only [execModBusStretchTimeout, hxfer, done]

theorem modBusArbitrationLost_backsOff (hdriving : (busAt s bus).backOff = false) (hfew : (busAt s bus).lost < 3) :
    exec (.modBusArbitrationLost bus) s =
      .next (settle (updBus bus (fun b => { b with lost := b.lost + 1, backOff := true }) (emit (.moduleBus bus 1 []) s))) := by
  have hagain : ¬ 3 ≤ (busAt s bus).lost := Nat.not_le.mpr hfew
  show execModBusArbitrationLost bus s = _
  simp only [execModBusArbitrationLost, hxfer, hdriving, Bool.false_eq_true, if_false, done]
  exact congrArg done (if_neg hagain)

theorem modBusIdle_retries {got : ModReply} {v : State} {a : Answer} (hoff : (busAt s bus).backOff = true)
    (hend : xferOutcome bus x got (startXfer bus x s) = (v, some a)) :
    exec (.modBusIdle bus got) s = .next (settle (replyIfRunning x.ref a v)) := by
  show execModBusIdle bus got s = _
  simp only [execModBusIdle, hxfer, hoff, Bool.not_true, Bool.false_eq_true, if_false, hend, done]

end

/-- Settles O42, row by row. -/
theorem portLinkAndModuleRows : Obligations.PortLinkAndModuleRows := by
  intro port bus s
  exact ⟨fun _ => ⟨rfl, rfl⟩, widthDownshiftTrigger_wide, rfl, rfl, lineRefclkLoss_running, rfl,
    fun bytes states hmode hlane hfree => ⟨modulePoll_absent hmode hlane hfree bytes states, modulePoll_matching hmode hlane hfree bytes states⟩,
    fun x hxfer => ⟨modBusStretchTimeout_abandons hxfer, modBusArbitrationLost_backsOff hxfer, fun got v a => modBusIdle_retries hxfer⟩⟩

end Sys2Proof.Machine
end

section
/-! SUPPORT. The port commands (R178 to R188), with the obligation on them. -/

namespace Sys2Proof.Machine

open Sys2Proof

variable {t : Target} {c : Cmd} {s u : State}

/-! ## PORT_CONFIG and PORT_STATUS (R186 to R188) -/

section
variable (h : Ready infoPortConfig t c s) (hu : taken infoPortConfig c s = u) {p : Nat} (hp : arg c 0 1 = p) {r : PortCfg}
  (hr : readPortCfg c.payload = r) (hrange : portCfgBad p r = false) (hlane : p < laneCount u) (hstitch : r.mode = 2 → hasStitch u = true)
  (hclash : portClash u p r = false)
include h hu hp hr hrange hlane hstitch hclash

/-- A record in range, of a port that is there and clashes with none, retrains the port, unless only the width limits change. -/
theorem portConfig_sets : exec (.portConfig c) s = answered infoPortConfig c s (ok p 0)
    (if onlyWidths u p r then setWidths p r.widthFloor r.widthCeil (stopGens p u)
      else bumpGen (ownPort p) (updPort p (fun x => { x with cfg := r, lb := 0, width := 0, lpiOn := false })
        (stopGens p (clearPause p (if inService u then flushPort p (linkDown p (cutWire p u)) else u))))) := by
  subst hp hr
  have hthere : ¬ (laneCount u ≤ arg c 0 1 ∨ ((readPortCfg c.payload).mode = 2 ∧ (!hasStitch u) = true)) := by
    rintro (habsent | ⟨hmode, hno⟩)
    · omega
    · simp [hstitch hmode] at hno
  refine ready_answers h ?_
  simp only [hu, hrange, hclash, Bool.false_eq_true, if_false, if_neg hthere]
  split <;> rfl

end

theorem portStatus_reads (h : Ready infoPortStatus t c s) (hu : taken infoPortStatus c s = u) {p : Nat} (hp : arg c 0 8 = p) (hport : p ≤ 15)
    (hlane : p < laneCount u) : let x := portAt u p
    let w := if x.cfg.mode = 0 then 0 else if x.cfg.mode = 2 then x.width else x.cfg.lanes
    let held := ((List.range 8).filter (prioHeld u p)).foldl (fun a k => a + 2 ^ k) 0
    exec (.portStatus c) s = answered infoPortStatus c s
      (ok (b2n x.up + 2 * w + 16 * b2n ((List.range 8).any fun k => (heldAt u p k).tripped) + 32 * b2n x.lpiOn + 256 * held) 0) u := by
  subst hu hp
  exact (ready_read h _).trans (congrArg (answered infoPortStatus c s · _)
    ((if_neg (Nat.not_lt.mpr hport)).trans (if_neg (Nat.not_le.mpr hlane))))

/-! ## MOD_READ and MOD_WRITE (R178, R187) -/

/-- A transfer on the pages that a module has (R178). -/
structure ModXfer.Fits (q most : Nat) (x : ModXfer) (u : State) : Prop where
  bus : q ≤ 3
  page : pageOk x.bank x.page = true
  some : 1 ≤ x.len
  most : x.len ≤ most
  last : x.offset + x.len ≤ 256
  lane : 4 * q < laneCount u
  free : (busAt u q).xfer = none

/-- A transfer that fits starts on its bus. -/
theorem modBody_starts (write : Bool) (got : ModReply) (r : CmdRef) (t : Target) {q : Nat} {x : ModXfer} (hq : arg c 0 1 = q)
    (hx : { ref := r, write := write, dev := arg c 1 1 % 128, bank := arg c 2 1, page := arg c 3 1, offset := arg c 4 1, len := arg c 5 1,
            data := if write then slice c.payload 8 (arg c 5 1) else [], outAddr := if write then 0 else arg c 8 8 } = x)
    (hfits : x.Fits q (if write then 8 else 128) u) : modBody write got r t c u = xferOutcome q x got (startXfer q x u) := by
  obtain ⟨hbus, hpage, hsome, hmost, hlast, hlane, hfree⟩ := hfits
  have hrange : ¬ (3 < q ∨ (!pageOk x.bank x.page) = true ∨ x.len = 0 ∨ (if write then 8 else 128) < x.len ∨ 256 < x.offset + x.len) := by
    simp only [hpage, Bool.not_true, Bool.false_eq_true, false_or]
    omega
  have hbusy : ¬ (busAt u q).xfer.isSome = true := by simp [hfree]
  subst hq hx
  exact (if_neg hrange).trans ((if_neg (Nat.not_le.mpr hlane)).trans (if_neg hbusy))

theorem xferOutcome_read {q : Nat} {x : ModXfer} (hread : x.write = false) {d : Bytes} (hlen : d.length = x.len) (u : State) :
    xferOutcome q x { outcome := 1, data := d } u = (keepPages q x d (freeBus q u), some (okOut d.length 0 x.outAddr d)) := by
  have hall : d.take x.len = d := List.take_of_length_le (Nat.le_of_eq hlen)
  simp [xferOutcome, hread, hall]

theorem xferOutcome_write {q : Nat} {x : ModXfer} (hwrite : x.write = true) (d : Bytes) (u : State) :
    xferOutcome q x { outcome := 1, data := d } u = (keepPages q x x.data (freeBus q u), some (ok x.data.length 0)) := by
  simp [xferOutcome, hwrite]

theorem modRead_reads (h : Ready infoModRead t c s) (hu : taken infoModRead c s = u) {q : Nat} {x : ModXfer} (hq : arg c 0 1 = q)
    (hx : { ref := refAt infoModRead c s, write := false, dev := arg c 1 1 % 128, bank := arg c 2 1, page := arg c 3 1, offset := arg c 4 1,
            len := arg c 5 1, data := [], outAddr := arg c 8 8 } = x)
    (hfits : x.Fits q 128 u) {d : Bytes} (hlen : d.length = x.len) :
    exec (.modRead c { outcome := 1, data := d }) s =
      answered infoModRead c s (okOut d.length 0 x.outAddr d) (keepPages q x d (freeBus q (startXfer q x u))) := by
  subst hu
  have hread : x.write = false := by rw [← hx]
  exact ready_replies h ((modBody_starts false _ _ t hq hx hfits).trans (xferOutcome_read hread hlen _))

theorem modWrite_writes (h : Ready infoModWrite t c s) (hu : taken infoModWrite c s = u) {q : Nat} {x : ModXfer} (hq : arg c 0 1 = q)
    (hx : { ref := refAt infoModWrite c s, write := true, dev := arg c 1 1 % 128, bank := arg c 2 1, page := arg c 3 1, offset := arg c 4 1,
            len := arg c 5 1, data := slice c.payload 8 (arg c 5 1), outAddr := 0 } = x)
    (hfits : x.Fits q 8 u) (d : Bytes) : exec (.modWrite c { outcome := 1, data := d }) s =
      answered infoModWrite c s (ok x.data.length 0) (keepPages q x x.data (freeBus q (startXfer q x u))) := by
  subst hu
  have hwrite : x.write = true := by rw [← hx]
  exact ready_replies h ((modBody_starts true _ _ t hq hx hfits).trans (xferOutcome_write hwrite d _))

/-! ## PORT_LOOPBACK (R180, R181, R185) -/

section
variable (h : Ready infoPortLoopback t c s) (hu : taken infoPortLoopback c s = u) {p m : Nat} (hp : arg c 0 1 = p) (hm : arg c 1 1 = m)
  (hport : p ≤ 15) (hloop : m ≤ 3) (hlane : p < laneCount u) (hmode : m = 0 ∨ u.mode = .proving) (hline : (portAt u p).cfg.mode = 1)
include h hu hp hm hport hloop hlane hmode hline

/-- A loopback of an Ethernet port changes after the frame on the wire; a change to or from the SerDes' retrains the link. -/
theorem portLoopback_sets : exec (.portLoopback c) s = answered infoPortLoopback c s (ok m 0)
    (if (portAt u p).lb = m then u else updPort p (fun x => { x with lb := m })
      (if (portAt u p).lb = 2 ∨ m = 2 then linkDown p (wireDone p u) else wireDone p u)) := by
  subst hp hm
  have hrange : ¬ (15 < arg c 0 1 ∨ 3 < arg c 1 1) := by omega
  have hservice : ¬ (arg c 1 1 ≠ 0 ∧ u.mode ≠ .proving) := by
    rintro ⟨hon, hother⟩
    exact hmode.elim hon hother
  refine ready_answers h ?_
  simp only [hu, if_neg hrange, if_neg (Nat.not_le.mpr hlane), if_neg hservice, if_neg (not_not_intro hline)]
  split <;> rfl

end

/-! ## The test generators (R182, R184, R185) -/

theorem testgenSet_sets (h : Ready infoTestgenSet t c s) (hu : taken infoTestgenSet c s = u) (hrange : testgenBad u c.payload = false)
    (hlane : 4 * arg c 0 1 < laneCount u) (hmode : arg c 2 1 % 4 = 0 ∨ u.mode = .proving) :
    exec (.testgenSet c) s = answered infoTestgenSet c s (ok 0 0) (updGen (arg c 0 1) (setGen c.payload u.time.t) u) := by
  have hservice : ¬ (arg c 2 1 % 4 ≠ 0 ∧ u.mode ≠ .proving) := by
    rintro ⟨hon, hother⟩
    exact hmode.elim hon hother
  exact ready_answers h (by simp only [hu, hrange, Bool.false_eq_true, if_false, if_neg (Nat.not_le.mpr hlane), if_neg hservice])

theorem testgenStatus_reads (h : Ready infoTestgenStatus t c s) (hu : taken infoTestgenStatus c s = u) {q : Nat} (hq : arg c 0 8 = q) (hgen : q ≤ 3)
    (hlane : 4 * q < laneCount u) : let g := genAt u q
    exec (.testgenStatus c) s = answered infoTestgenStatus c s (okOut (b2n g.run + 2 * b2n g.check) 0 (arg c 8 8)
      (toLe 8 g.sent ++ toLe 8 g.checked ++ toLe 8 g.seqGap ++ toLe 8 g.seqOoo ++ toLe 8 g.payErr ++ toLe 8 (unsigned 64 g.latMin) ++
        toLe 8 (unsigned 64 g.latMax) ++ toLe 8 (unsigned 64 g.latSum))) u := by
  subst hu hq
  exact (ready_read h _).trans (congrArg (answered infoTestgenStatus c s · _)
    ((if_neg (Nat.not_lt.mpr hgen)).trans (if_neg (Nat.not_le.mpr hlane))))

/-- Settles O43, row by row; PORT_CONFIG by whether only the width limits change, and PORT_LOOPBACK by whether anything does. -/
theorem portCommands : Obligations.PortCommands := by
  intro t c s
  refine ⟨fun h hrange hlane hstitch hclash => ⟨fun honly => ?_, fun hmore => ?_⟩, fun h => portStatus_reads h rfl rfl,
    fun d h hbus hpage hsome hmost hlast hlane hfree => modRead_reads h rfl rfl rfl ⟨hbus, hpage, hsome, hmost, hlast, hlane, hfree⟩,
    fun d h hbus hpage hsome hmost hlast hlane hfree => modWrite_writes h rfl rfl rfl ⟨hbus, hpage, hsome, hmost, hlast, hlane, hfree⟩ d,
    fun h hport hloop hlane hmode hline => ⟨fun hsame => ?_, fun hother => ?_⟩, fun h => testgenSet_sets h rfl, fun h => testgenStatus_reads h rfl rfl⟩
  · exact (portConfig_sets h rfl rfl rfl hrange hlane hstitch hclash).trans (congrArg _ (if_pos honly))
  · exact (portConfig_sets h rfl rfl rfl hrange hlane hstitch hclash).trans (congrArg _ (if_neg (ne_true_of_eq_false hmore)))
  · exact (portLoopback_sets h rfl rfl rfl hport hloop hlane hmode hline).trans (congrArg _ (if_pos hsame))
  · exact (portLoopback_sets h rfl rfl rfl hport hloop hlane hmode hline).trans (congrArg _ (if_neg hother))

end Sys2Proof.Machine
end

section
/-! SUPPORT. The table writes and reads (R189 to R218, R263, R266, R276), with the obligation on them. -/

namespace Sys2Proof.Machine

open Sys2Proof

variable {t : Target} {c : Cmd} {s u : State}

/-! ## The shared write form (R216) -/

/-- A row that runs the shared write body is a table write. -/
theorem writesTable {row : Cmd → Instr} {op : OpInfo} {w : Writer} {size : Cmd → Nat} {r0 : Nat → Nat}
    (hrow : ∀ c s, exec (row c) s = done (runCommand op (writeBody w size r0) c s)) : WritesTable row op w size r0 := by
  intro t c s h u
  refine ⟨fun hlocked => ?_, fun hopen => ⟨fun v hw => ?_, fun i hw => ?_⟩⟩ <;> rw [hrow]
  · exact ready_answers h (if_pos hlocked)
  · exact ready_answers h ((if_neg (ne_true_of_eq_false hopen)).trans (by simp only [u, hw]))
  · exact ready_answers h ((if_neg (ne_true_of_eq_false hopen)).trans (by simp only [u, hw]))

/-! ## ALIST_WRITE (R206, R217) -/

section
variable (h : Ready infoAlistWrite t c s) (hu : taken infoAlistWrite c s = u) (hopen : tablesLocked u = false) {v : State}
  (hw : writeAlist (arg c 0 2) (arg c 4 4) (writeRecs 8 c) u = .ok v)
include h hu hopen hw

theorem alistWrite_writes (hthere : (alistWords (writeRecs 8 c)).findSome? (fun x => wordAbsent u x.2) = none) :
    exec (.alistWrite c) s = answered infoAlistWrite c s (ok (arg c 8 4) 0) v :=
  ready_answers h (by simp only [hu, hopen, hw, hthere, Bool.false_eq_true, if_false])

/-- A list that names an absent unit is not written. -/
theorem alistWrite_absent {b : Nat} (habsent : (alistWords (writeRecs 8 c)).findSome? (fun x => wordAbsent u x.2) = some b) :
    exec (.alistWrite c) s = answered infoAlistWrite c s (err stNoUnit b) u :=
  ready_answers h (by simp only [hu, hopen, hw, habsent, Bool.false_eq_true, if_false])

end

/-! ## The reads -/

theorem flowcntRead_reads (h : Ready infoFlowcntRead t c s) (hu : taken infoFlowcntRead c s = u) {first n : Nat} (hfirst : arg c 0 4 = first)
    (hn : arg c 4 2 = n) (hsome : 1 ≤ n) (hmost : n ≤ 4096) (hrange : first + n ≤ 65536) :
    let out := ((List.range n).map fun i =>
      let x := Store.get (0, 0) (first + i) u.tables.flowCnt
      toLe 8 x.1 ++ toLe 8 x.2).flatten
    let cnt := if bit (arg c 6 2) 0 then u.tables.flowCnt.filter fun x => !(decide (first ≤ x.1) && decide (x.1 < first + n)) else u.tables.flowCnt
    exec (.flowcntRead c) s = answered infoFlowcntRead c s (okOut n 0 (arg c 8 8) out) { u with tables := { u.tables with flowCnt := cnt } } := by
  subst hu hfirst hn
  have hin : ¬ (arg c 4 2 = 0 ∨ 4096 < arg c 4 2 ∨ 65536 < arg c 0 4 + arg c 4 2) := by omega
  exact ready_answers h (if_neg hin)

theorem policerRead_reads (h : Ready infoPolicerRead t c s) (hu : taken infoPolicerRead c s = u) {first n : Nat} (hfirst : arg c 0 4 = first)
    (hn : arg c 4 4 = n) (hsome : 1 ≤ n) (hmost : n ≤ 4096) (hrange : first + n ≤ 16384) :
    exec (.policerRead c) s = answered infoPolicerRead c s (okOut n 0 (arg c 8 8) ((List.range n).map fun i =>
      let x := Store.get (0, 0, 0) (first + i) u.cis.polCnt
      toLe 8 x.1 ++ toLe 8 x.2.1 ++ toLe 8 x.2.2).flatten) u := by
  subst hu hfirst hn
  have hin : ¬ (arg c 4 4 = 0 ∨ 4096 < arg c 4 4 ∨ 16384 < arg c 0 4 + arg c 4 4) := by omega
  exact (ready_read h _).trans (congrArg (answered infoPolicerRead c s · _) (if_neg hin))

theorem queueStatus_reads (h : Ready infoQueueStatus t c s) (hu : taken infoQueueStatus c s = u) {k q : Nat} (hk : arg c 0 4 = k)
    (hq : arg c 4 4 = q) (hkind : k ≤ 2) (hrange : q < (if k = 0 then 256 else if k = 1 then 4096 else 16384)) :
    let x : SchedNode × NodeState := if k = 0 then (groupRec u.tables.active q, groupSt u q)
      else if k = 1 then (netRec u.tables.active q, Store.get {} q u.cis.netQs) else (hostRec u.tables.active q, Store.get {} q u.cis.hostQs)
    let n := fillNode (nowNs u) x.1 x.2
    exec (.queueStatus c) s = answered infoQueueStatus c s (okOut 0 0 (arg c 8 8)
      (toLe 8 (statusDepth u k q) ++ toLe 8 n.deficit ++ toLe 8 (unsigned 64 (n.tc / 8000000)) ++ toLe 8 (unsigned 64 (n.tp / 8000000)) ++
        toLe 8 n.dropG ++ toLe 8 n.dropY ++ toLe 8 n.dropR ++ toLe 8 n.sent)) u := by
  subst hu hk hq
  have hin : ¬ (2 < arg c 0 4 ∨ (if arg c 0 4 = 0 then 256 else if arg c 0 4 = 1 then 4096 else 16384) ≤ arg c 4 4) :=
    not_or.mpr ⟨Nat.not_lt.mpr hkind, Nat.not_le.mpr hrange⟩
  exact (ready_read h _).trans (congrArg (answered infoQueueStatus c s · _) (if_neg hin))

/-- Settles O44: the rows of the shared write form at once, the others one by one. -/
theorem tableRows : Obligations.TableRows := by
  refine ⟨writesTable fun _ _ => rfl, writesTable fun _ _ => rfl, writesTable fun _ _ => rfl, writesTable fun _ _ => rfl,
    writesTable fun _ _ => rfl, writesTable fun _ _ => rfl, writesTable fun _ _ => rfl, writesTable fun _ _ => rfl,
    writesTable fun _ _ => rfl, writesTable fun _ _ => rfl, writesTable fun _ _ => rfl, fun t c s => ?_⟩
  refine ⟨fun h hopen v hw => ⟨alistWrite_writes h rfl hopen hw, fun b => alistWrite_absent h rfl hopen hw⟩,
    fun h => flowcntRead_reads h rfl rfl rfl, fun h hroom => ?_, fun h => policerRead_reads h rfl rfl rfl,
    fun h => queueStatus_reads h rfl rfl rfl⟩
  exact (ready_read h _).trans (congrArg (answered infoProgramList c s · _) (if_neg (Nat.not_lt.mpr hroom)))

end Sys2Proof.Machine
end

section
/-! SUPPORT. The exact-match and Sieve commands (R219 to R247), with the obligation on them. -/

namespace Sys2Proof.Machine

open Sys2Proof

variable {t : Target} {c : Cmd} {s u : State}

/-! ## Exact-match tables (R219 to R231) -/

section
variable (h : Ready infoEmDefine t c s) (hu : taken infoEmDefine c s = u)
include h hu

theorem emDefine_defines {v : State} (hdef : emDefine c.payload u = .ok v) :
    exec (.emDefine c) s = answered infoEmDefine c s (ok (emCapacity (readEm c.payload)) 0) v :=
  ready_answers h (by simp only [hu, hdef])

theorem emDefine_refuses {a : Answer} (hdef : emDefine c.payload u = .error a) : exec (.emDefine c) s = answered infoEmDefine c s a u :=
  ready_answers h (by simp only [hu, hdef])

end

/-- Records that are all applied are counted, with the entries then valid. -/
theorem emUpdate_applies (h : Ready infoEmUpdate t c s) (hu : taken infoEmUpdate c s = u) {l : List Bytes}
    (hl : records 80 (arg c 4 4) (c.payload.drop 16) = l) (hdef : emDefined u (arg c 0 4) = true)
    (hops : ∀ b ∈ l, fld b 0 1 = 1 ∨ fld b 0 1 = 2) {k : Nat} {v : State} (happly : applyRecords (emRecord (arg c 0 4)) 0 l u = (k, none, v)) :
    exec (.emUpdate c) s = answered infoEmUpdate c s (ok k (emValid v (arg c 0 4))) v := by
  have hgood : l.findIdx? (fun b => !(fld b 0 1 == 1 || fld b 0 1 == 2)) = none := by
    simpa [List.findIdx?_eq_none_iff, or_iff_not_imp_left] using hops
  refine ready_answers h ?_
  simp only [hu, hl, hdef, hgood, happly, Bool.not_true, Bool.false_eq_true, if_false, Option.map_none, reduceCtorEq]
  rfl

section
variable (h : Ready infoEmLookup t c s) (hu : taken infoEmLookup c s = u) {n : Nat} {k : Bytes} (hn : arg c 0 8 = n)
  (hk : emKey (emAt u n) (slice c.payload 8 64) = k) (hdef : emDefined u n = true) (hclean : emPoisoned u n k = false)
include h hu hn hk hdef hclean

theorem emLookup_misses (hfind : emFind (emAt u n) k = none) : exec (.emLookup c) s = answered infoEmLookup c s (ok 0 0) u :=
  ready_answers h (by simp only [hu, hn, hk, hdef, hclean, hfind, Bool.not_true, Bool.false_eq_true, if_false])

theorem emLookup_finds {i : Nat} (hfind : emFind (emAt u n) k = some i) : let e := Store.get {} i (emAt u n).entries
    exec (.emLookup c) s = answered infoEmLookup c s
      (ok (1 + 2 ^ 16 * e.rule + 2 ^ 32 * b2n e.static + 2 ^ 33 * b2n e.learned + 2 ^ 34 * e.idle) e.user) u :=
  ready_answers h (by simp only [hu, hn, hk, hdef, hclean, hfind, Bool.not_true, Bool.false_eq_true, if_false])

end

theorem emAgedRead_reads (h : Ready infoEmAgedRead t c s) (hu : taken infoEmAgedRead c s = u) {m : Nat} (hm : arg c 8 8 = m) (hsome : 1 ≤ m)
    (hmost : m ≤ 1024) : exec (.emAgedRead c) s = answered infoEmAgedRead c s
      (okOut (u.tables.aged.take m).length (u.tables.aged.drop m).length (arg c 0 8) ((u.tables.aged.take m).map agedBytes).flatten)
      { u with tables := { u.tables with aged := u.tables.aged.drop m } } := by
  subst hu hm
  exact ready_answers h (if_neg (show ¬ (arg c 8 8 = 0 ∨ 1024 < arg c 8 8) by omega))

/-! ## The Sieve (R232 to R238) -/

section
variable (h : Ready infoSieveDefine t c s) (hu : taken infoSieveDefine c s = u)
include h hu

theorem sieveDefine_defines {v : State} (hdef : sieveDefine c.payload u = .ok v) :
    exec (.sieveDefine c) s = answered infoSieveDefine c s (ok (sieveCapacity (readSieve c.payload)) 0) v :=
  ready_answers h (by simp only [hu, hdef])

theorem sieveDefine_refuses {a : Answer} (hdef : sieveDefine c.payload u = .error a) :
    exec (.sieveDefine c) s = answered infoSieveDefine c s a u :=
  ready_answers h (by simp only [hu, hdef])

end

/-- Records that are all well-formed are applied up to the first that finds no room. -/
theorem sieveUpdate_applies (h : Ready infoSieveUpdate t c s) (hu : taken infoSieveUpdate c s = u) {l : List Bytes}
    (hl : records 48 (arg c 4 4) (c.payload.drop 16) = l) (hdef : sieveDefined u (arg c 0 4) = true)
    (hgood : ∀ b ∈ l, sieveBad (sieveAt u (arg c 0 4)) b = false) {k mv : Nat} {f : Option Answer} {v : State}
    (happly : applySieve (arg c 0 4) 0 0 l u = (k, mv, f, v)) :
    exec (.sieveUpdate c) s = answered infoSieveUpdate c s { f.getD (ok 0 0) with r0 := k, r1 := mv } v := by
  have hall : l.findIdx? (sieveBad (sieveAt u (arg c 0 4))) = none := List.findIdx?_eq_none_iff.mpr hgood
  exact ready_answers h (by simp only [hu, hl, hdef, hall, happly, Bool.not_true, Bool.false_eq_true, if_false])

/-- A search in rows that hold no poison answers with the first row it hits from row `lo` on. -/
theorem sieveAnswer_clean {n lo : Nat} {k : BitVec 160} (hclean : sievePoisoned u (sieveAt u n) k = false) : sieveAnswer n lo k u =
    match (sieveHits (sieveAt u n) k).filter fun r => decide (lo ≤ r.1) with
    | [] => (u, ok 0xFFFFFFFF 0)
    | r :: rest => (u, ok (r.1 + 2 ^ 32 * b2n (!rest.isEmpty)) r.2.rule) :=
  if_neg (ne_true_of_eq_false hclean)

theorem sieveAnswer_misses {n lo : Nat} {k : BitVec 160} (hclean : sievePoisoned u (sieveAt u n) k = false)
    (hhits : (sieveHits (sieveAt u n) k).filter (fun r => decide (lo ≤ r.1)) = []) : sieveAnswer n lo k u = (u, ok 0xFFFFFFFF 0) :=
  (sieveAnswer_clean hclean).trans (by rw [hhits])

theorem sieveAnswer_hits {n lo : Nat} {k : BitVec 160} {r : Nat × SieveRow} {rest : List (Nat × SieveRow)}
    (hclean : sievePoisoned u (sieveAt u n) k = false) (hhits : (sieveHits (sieveAt u n) k).filter (fun r => decide (lo ≤ r.1)) = r :: rest) :
    sieveAnswer n lo k u = (u, ok (r.1 + 2 ^ 32 * b2n (!rest.isEmpty)) r.2.rule) :=
  (sieveAnswer_clean hclean).trans (by rw [hhits])

/-- SIEVE_SEARCH on a table that is there searches from its first row on. -/
theorem sieveSearch_answers (h : Ready infoSieveSearch t c s) (hu : taken infoSieveSearch c s = u) (hdef : sieveDefined u (arg c 0 8) = true)
    {a : Answer} (ha : sieveAnswer (arg c 0 8) 0 (sieveKey (slice c.payload 8 20)) u = (u, a)) :
    exec (.sieveSearch c) s = answered infoSieveSearch c s a u :=
  ready_answers h (by simp only [hu, hdef, ha, Bool.not_true, Bool.false_eq_true, if_false])

/-- SIEVE_STEP on a row that is there searches from the row after it on. -/
theorem sieveStep_answers (h : Ready infoSieveStep t c s) (hu : taken infoSieveStep c s = u) (hdef : sieveDefined u (arg c 0 4) = true)
    (hrow : arg c 4 4 < sieveCapacity (sieveAt u (arg c 0 4))) {a : Answer}
    (ha : sieveAnswer (arg c 0 4) (arg c 4 4 + 1) (sieveKey (slice c.payload 8 20)) u = (u, a)) :
    exec (.sieveStep c) s = answered infoSieveStep c s a u :=
  ready_answers h (by simp [hu, hdef, Nat.not_le.mpr hrow, ha])

/-- Every row counts from row 0 on. -/
theorem filter_from_zero (l : List (Nat × SieveRow)) : l.filter (fun r => decide (0 ≤ r.1)) = l := by simp

/-- Settles O46, row by row; the searches by what `sieveAnswer` hits. -/
theorem matchTableCommands : Obligations.MatchTableCommands := by
  intro t c s
  refine ⟨fun h => ⟨fun v => emDefine_defines h rfl, fun a => emDefine_refuses h rfl⟩, fun h hdef hops k v => emUpdate_applies h rfl rfl hdef hops,
    fun h hdef hclean => ⟨emLookup_misses h rfl rfl rfl hdef hclean, fun i => emLookup_finds h rfl rfl rfl hdef hclean⟩,
    fun h => emAgedRead_reads h rfl rfl, fun h => ⟨fun v => sieveDefine_defines h rfl, fun a => sieveDefine_refuses h rfl⟩,
    fun h hdef hgood k mv f v => sieveUpdate_applies h rfl rfl hdef hgood, fun h hdef hclean => ⟨fun hhits => ?_, fun r rest hhits => ?_⟩,
    fun h hdef hrow hclean => ⟨fun hhits => ?_, fun r rest hhits => ?_⟩⟩
  · exact sieveSearch_answers h rfl hdef (sieveAnswer_misses hclean ((filter_from_zero _).trans hhits))
  · exact sieveSearch_answers h rfl hdef (sieveAnswer_hits hclean ((filter_from_zero _).trans hhits))
  · exact sieveStep_answers h rfl hdef hrow (sieveAnswer_misses hclean hhits)
  · exact sieveStep_answers h rfl hdef hrow (sieveAnswer_hits hclean hhits)

end Sys2Proof.Machine
end

section
/-! SUPPORT. The Cistern's commands and its audit (R248 to R259, R272, R275), with the obligation on them. -/

namespace Sys2Proof.Machine

open Sys2Proof

variable {t : Target} {c : Cmd} {s u : State}

/-! ## Layouts, quotas and owners (R249, R252, R258) -/

theorem quotaSet_sets (h : Ready infoQuotaSet t c s) (hfirst : 1026 ≤ arg c 0 4) (hlast : arg c 0 4 ≤ 1058) :
    exec (.quotaSet c) s = answered infoQuotaSet c s (ok 0 0) (setQuota (arg c 0 4) (arg c 4 4) (taken infoQuotaSet c s)) :=
  ready_answers h (if_neg (show ¬ (arg c 0 4 < 1026 ∨ 1058 < arg c 0 4) by omega))

theorem ownerQuery_reads (h : Ready infoOwnerQuery t c s) (hu : taken infoOwnerQuery c s = u) {o : Nat} (ho : arg c 0 8 = o) (hlast : o ≤ 1058) :
    exec (.ownerQuery c) s = answered infoOwnerQuery c s (ok (chargeOf u o % 2 ^ 48 + 2 ^ 48 * genOf u o)
      (quotaOf u o + 2 ^ 32 * (u.cis.bufs.filter fun b => b.owner == o && orphaned u b).length)) u := by
  subst hu ho
  exact (ready_read h _).trans (congrArg (answered infoOwnerQuery c s · _) (if_neg (Nat.not_lt.mpr hlast)))

/-- FORFEIT takes the orphans of an owner, and all that a function which is not there holds. -/
theorem forfeit_takes (h : Ready infoForfeit t c s) (hu : taken infoForfeit c s = u) {o : Nat} (ho : arg c 0 8 = o) (hlast : o ≤ 1058) :
    let l := u.cis.bufs.filter fun b => b.owner == o && ((decide (o < 1026) && !(funcOf u o).created) || orphaned u b)
    exec (.forfeit c) s = answered infoForfeit c s (ok l.length 0) (l.foldl (fun t b => takeBuf b.num (forfeitTo u c.chan) t) u) := by
  subst hu ho
  exact ready_answers h (if_neg (Nat.not_lt.mpr hlast))

/-! ## The silt audit (R259) -/

theorem siltAuditRefresh_refreshes (hdry : s.mode ≠ .dry) (hdormant : s.mode ≠ .dormant) :
    exec .siltAuditRefresh s = .next (settle (siltRefresh s)) :=
  congrArg done (if_neg (not_or.mpr ⟨hdry, hdormant⟩))

theorem siltRead_reads (h : Ready infoSiltRead t c s) (hu : taken infoSiltRead c s = u) {f n : Nat} (hf : arg c 0 2 = f) (hn : arg c 2 2 = n)
    (hsome : 1 ≤ n) (hmost : n ≤ 256) (hrange : f + n ≤ 4096) : exec (.siltRead c) s =
      answered infoSiltRead c s (okOut n 0 (arg c 8 8) ((List.range n).map fun i => siltBytes u (f + i)).flatten) u := by
  subst hu hf hn
  have hin : ¬ (arg c 2 2 = 0 ∨ 256 < arg c 2 2 ∨ 4096 < arg c 0 2 + arg c 2 2) := by omega
  exact (ready_read h _).trans (congrArg (answered infoSiltRead c s · _) (if_neg hin))

theorem siltReclaim_sets (h : Ready infoSiltReclaim t c s) (hu : taken infoSiltReclaim c s = u) (hsome : 1 ≤ arg c 4 4)
    (hmost : arg c 4 4 ≤ 3600000) : exec (.siltReclaim c) s = answered infoSiltReclaim c s (ok 0 0)
      { u with cis := { u.cis with reclaim := bit (arg c 0 1) 0, reclaimMs := arg c 4 4 } } := by
  subst hu
  exact ready_answers h (if_neg (show ¬ (arg c 4 4 = 0 ∨ 3600000 < arg c 4 4) by omega))

/-! ## Watermarks (R272) -/

theorem wmSet_sets (h : Ready infoWmSet t c s) (hslot : arg c 0 4 ≤ 63) (hkind : arg c 4 4 / 2 ^ 28 ≤ 7) (hhyst : arg c 8 4 / 2 ^ 24 ≤ 100) :
    exec (.wmSet c) s = answered infoWmSet c s (ok 0 0)
      (wmWrite (arg c 0 4) (some (BitVec.ofNat 32 (arg c 4 4))) (some (BitVec.ofNat 32 (arg c 8 4))) (taken infoWmSet c s)) := by
  have hin : ¬ (63 < arg c 0 4 ∨ 7 < arg c 4 4 / 2 ^ 28 ∨ 100 < arg c 8 4 / 2 ^ 24) := by omega
  exact ready_answers h (if_neg hin)

theorem wmRead_reads (h : Ready infoWmRead t c s) (hu : taken infoWmRead c s = u) {n : Nat} (hn : arg c 0 4 = n) (hslot : n ≤ 63) :
    let w := Store.get ({} : Wm) n u.cis.wms
    exec (.wmRead c) s = answered infoWmRead c s (ok (wmLive u w + 2 ^ 32 * b2n w.crossed + 2 ^ 33 * b2n w.above) w.count)
      (if bit (arg c 4 4) 0 then { u with cis := { u.cis with wms := Store.set {} n { w with crossed := false, count := 0 } u.cis.wms } } else u) := by
  subst hu hn
  exact ready_answers h (if_neg (Nat.not_lt.mpr hslot))

/-- Settles O49, row by row; POOL_LAYOUT and POOL_STATUS answer whatever their operands. -/
theorem cisternRows : Obligations.CisternRows := by
  refine ⟨fun s => siltAuditRefresh_refreshes, fun t c s => ?_⟩
  exact ⟨fun h => ready_answers h rfl, quotaSet_sets, fun h => ownerQuery_reads h rfl rfl, fun h => forfeit_takes h rfl rfl,
    fun h => siltRead_reads h rfl rfl rfl, fun h => siltReclaim_sets h rfl, fun h => ready_answers h rfl, wmSet_sets,
    fun h => wmRead_reads h rfl rfl⟩

end Sys2Proof.Machine
end

section
/-! SUPPORT. The time commands (R336 to R348), with the obligation on them. -/

namespace Sys2Proof.Machine

open Sys2Proof

variable {t : Target} {c : Cmd} {s u : State}

/-! ## TIME_CONFIG and TIME_ADJUST (R337 to R339) -/

section
variable (h : Ready infoTimeConfig t c s)
include h

theorem timeConfig_applies (hok : timeCfgOk (readTimeCfg c.payload) = true) :
    exec (.timeConfig c) s = answered infoTimeConfig c s (ok 0 0) (applyTimeCfg (readTimeCfg c.payload) (taken infoTimeConfig c s)) :=
  ready_answers h (if_pos hok)

theorem timeConfig_refuses (hbad : timeCfgOk (readTimeCfg c.payload) = false) :
    exec (.timeConfig c) s = answered infoTimeConfig c s (err stBadLength 0) (taken infoTimeConfig c s) :=
  ready_answers h (if_neg (ne_true_of_eq_false hbad))

end

theorem enterTState_same {st : TState} (hst : u.time.state = st) : enterTState st u = u := if_pos hst

/-- Under SOURCE 1 and out of FREE, FREQ alone (flag 1) sets the frequency correction. -/
theorem timeAdjust_freq {flags : Nat} {step freq : Int} (hflags : flags = 2) (hsource : u.time.cfg.source = 1) (hstate : u.time.state ≠ .free) (hleast : -500000000 ≤ freq)
    (hmost : freq ≤ 500000000) : let v := { u with time := { u.time with freqPpt := freq } }
    timeAdjust flags step freq u = (v, ok (nowNs v) 0) := by
  have hbits : bit 2 0 = false ∧ bit 2 1 = true ∧ bit 2 2 = false ∧ bit 2 3 = false ∧ bit 2 4 = false := by decide
  obtain ⟨hstep, hfreq, hlock, hacquire, hhold⟩ := hbits
  subst hflags
  simp [timeAdjust, flagMove, hstep, hfreq, hlock, hacquire, hhold, hsource, hstate, Int.not_lt.mpr hleast, Int.not_lt.mpr hmost, b2n, enterTState_same]

/-- A step moves device time and counts, and changes no more of the time unit. -/
theorem stepTime_time (d : Int) (s : State) :
    (stepTime d s).time = { s.time with t := ((s.time.t : Int) + d).toNat, steps := min 0xFFFF (s.time.steps + 1) } :=
  (outward_raise 899 0 _).units.time

/-- In ACQUIRING under SOURCE 1, STEP alone (flag 0) moves device time. -/
theorem timeAdjust_step {flags : Nat} {step freq : Int} (hflags : flags = 1) (hsource : u.time.cfg.source = 1) (hstate : u.time.state = .acquiring) (hleast : -500000000 ≤ freq)
    (hmost : freq ≤ 500000000) (hlow : 0 ≤ (u.time.t : Int) + step * 65536) (hhigh : (u.time.t : Int) + step * 65536 < 2 ^ 80) :
    let v := stepTime (step * 65536) u
    timeAdjust flags step freq u = (v, ok (nowNs v) 0) := by
  have hbits : bit 1 0 = true ∧ bit 1 1 = false ∧ bit 1 2 = false ∧ bit 1 3 = false ∧ bit 1 4 = false := by decide
  obtain ⟨hstep, hfreq, hlock, hacquire, hhold⟩ := hbits
  have hsame : (stepTime (step * 65536) u).time.state = .acquiring := by rw [stepTime_time, ← hstate]
  subst hflags
  simp [timeAdjust, flagMove, hstep, hfreq, hlock, hacquire, hhold, hsource, hstate, Int.not_lt.mpr hleast, Int.not_lt.mpr hmost, b2n,
    Int.not_lt.mpr hlow, enterTState_same hsame]
  omega

section
variable (h : Ready infoTimeAdjust t c s) (hu : taken infoTimeAdjust c s = u) {freq : Int} (hfreq : signed 32 (arg c 16 4) = freq)
  (hsource : u.time.cfg.source = 1) (hleast : -500000000 ≤ freq) (hmost : freq ≤ 500000000)
include h hu hfreq hsource hleast hmost

theorem timeAdjust_setsFreq (hflags : arg c 0 1 = 2) (hstate : u.time.state ≠ .free) :
    ∃ v, exec (.timeAdjust c) s = answered infoTimeAdjust c s (ok (nowNs v) 0) v ∧ v.time.freqPpt = freq ∧ v.time.t = u.time.t := by
  subst hu hfreq
  exact ⟨_, ready_answers h (timeAdjust_freq hflags hsource hstate hleast hmost), rfl, rfl⟩

theorem timeAdjust_steps {step : Int} (hstep : signed 64 (arg c 8 8) = step) (hflags : arg c 0 1 = 1) (hstate : u.time.state = .acquiring)
    (hlow : 0 ≤ (u.time.t : Int) + step * 65536)
    (hhigh : (u.time.t : Int) + step * 65536 < 2 ^ 80) : ∃ v, exec (.timeAdjust c) s = answered infoTimeAdjust c s (ok (nowNs v) 0) v ∧
      (v.time.t : Int) = u.time.t + step * 65536 := by
  subst hu hstep hfreq
  refine ⟨_, ready_answers h (timeAdjust_step hflags hsource hstate hleast hmost hlow hhigh), ?_⟩
  rw [stepTime_time]
  exact Int.toNat_of_nonneg hlow

end

/-! ## The other commands (R336, R343 to R347) -/

theorem timePortSet_sets (h : Ready infoTimePortSet t c s) (hu : taken infoTimePortSet c s = u) {p : Nat} (hp : arg c 0 1 = p) (hport : p ≤ 15)
    (hok : ptpPortOk (readPtpPort c.payload) = true) (hlane : p < laneCount u) :
    let v := updPort p (fun x => { x with ptp := readPtpPort c.payload }) u
    exec (.timePortSet c) s = answered infoTimePortSet c s (ok 0 0)
      (if v.time.bestPort = some p then { v with time := { v.time with bestPort := none } } else v) := by
  subst hu hp
  have hrange : ¬ (15 < arg c 0 1 ∨ (!ptpPortOk (readPtpPort c.payload)) = true) := by simp [hok, hport]
  exact ready_answers h ((if_neg hrange).trans (if_neg (Nat.not_le.mpr hlane)))

theorem ppsInRead_reads (h : Ready infoPpsInRead t c s) (hu : taken infoPpsInRead c s = u) {n : Nat} (hn : arg c 8 8 = n) (hsome : 1 ≤ n)
    (hmost : n ≤ 16) : exec (.ppsInRead c) s = answered infoPpsInRead c s
      (okOut (u.time.ppsFifo.take n).length u.time.ppsLost (arg c 0 8) ((u.time.ppsFifo.take n).map edgeBytes).flatten)
      { u with time := { u.time with ppsFifo := u.time.ppsFifo.drop n } } := by
  subst hu hn
  exact ready_answers h (if_neg (show ¬ (arg c 8 8 = 0 ∨ 16 < arg c 8 8) by omega))

theorem synceSet_sets (h : Ready infoSynceSet t c s) (hu : taken infoSynceSet c s = u) {k lane : Nat} (hk : arg c 0 1 = k)
    (hl : arg c 1 1 = lane) (hpin : k ≤ 1) (hport : lane ≤ 15) (hdiv : arg c 2 1 ≤ 7) (hlane : lane < laneCount u) :
    let on := bit (arg c 3 1) 0
    let v := { u with time := { u.time with synce := Store.upd {} k (fun r => { r with enable := on, lane := lane, div := arg c 2 1 }) u.time.synce } }
    exec (.synceSet c) s = answered infoSynceSet c s (ok 0 0) (synceDrive k (!(on && laneLocked v lane)) v) := by
  subst hu hk hl
  have hrange : ¬ (1 < arg c 0 1 ∨ 15 < arg c 1 1 ∨ 7 < arg c 2 1) := by omega
  exact ready_answers h ((if_neg hrange).trans (if_neg (Nat.not_le.mpr hlane)))

/-- Settles O53, row by row; TIME_ADJUST by its flags. -/
theorem timeCommands : Obligations.TimeCommands := by
  intro t c s
  refine ⟨fun h => ⟨timeConfig_applies h, timeConfig_refuses h⟩, fun h => ready_read h _, fun h hsource hleast hmost => ⟨?_, ?_⟩,
    fun h => timePortSet_sets h rfl rfl, fun h => ppsInRead_reads h rfl rfl, fun h => synceSet_sets h rfl rfl rfl⟩
  · exact timeAdjust_setsFreq h rfl rfl hsource hleast hmost
  · exact timeAdjust_steps h rfl rfl hsource hleast hmost rfl

end Sys2Proof.Machine
end

section
/-! SUPPORT. The Pump commands and a channel's start and end (R320 to R332), with the obligation on them. -/

namespace Sys2Proof.Machine

open Sys2Proof

variable {t : Target} {c : Cmd} {s u : State}

/-! ## The commands (R325, R328, R332) -/

theorem pumpAssign_assigns (h : Ready infoPumpAssign t c s) (hu : taken infoPumpAssign c s = u) {n : Nat} (hn : arg c 0 2 = n) (hlast : n < 255)
    (hpf : arg c 2 2 ≤ 1) (hidle : (pumpAt u n).state = 0) : exec (.pumpAssign c) s = answered infoPumpAssign c s (ok 0 0)
      (updPump n (fun x => { x with pf := if arg c 2 2 = (if n < 128 then 0 else 1) then none else some (arg c 2 2) }) u) := by
  subst hu hn
  have hrange : ¬ (254 < arg c 0 2 ∨ 1 < arg c 2 2) := by omega
  exact ready_answers h ((if_neg (Nat.ne_of_lt hlast)).trans ((if_neg hrange).trans (if_neg (not_not_intro hidle))))

/-- A queue in range that no running channel uses is set afresh. -/
theorem pcqSet_sets (h : Ready infoPcqSet t c s) (hu : taken infoPcqSet c s = u) {m : Nat} (hm : arg c 0 1 = m) (hlast : m ≤ 31)
    (hpf : arg c 1 1 ≤ 1) (hleast : 4 ≤ arg c 2 2) (hmost : arg c 2 2 ≤ 16) (hvector : arg c 4 2 = 0xFFFF ∨ arg c 4 2 ≤ 2047)
    (hpage : arg c 8 8 % 4096 = 0) (hfree : ∀ x ∈ u.rings.chans, x.2.state = 0 ∨ chPcq x.2 ≠ m) :
    exec (.pcqSet c) s = answered infoPcqSet c s (ok 0 0)
      (updPcq m (fun _ => { pf := arg c 1 1, log2 := arg c 2 2, vector := arg c 4 2, addr := arg c 8 8 }) u) := by
  subst hu hm
  have hrange : ¬ (31 < arg c 0 1 ∨ 1 < arg c 1 1 ∨ arg c 2 2 < 4 ∨ 16 < arg c 2 2 ∨ (arg c 4 2 ≠ 0xFFFF ∧ 2047 < arg c 4 2) ∨
      arg c 8 8 % 4096 ≠ 0) := by omega
  have hidle : ¬ ((taken infoPcqSet c s).rings.chans.any fun x => x.2.state != 0 && chPcq x.2 == arg c 0 1) = true := by
    simpa [or_iff_not_imp_left] using hfree
  exact ready_answers h ((if_neg hrange).trans (if_neg hidle))

section
variable (h : Ready infoPumpRecover t c s) (hu : taken infoPumpRecover c s = u) {pf : Nat} {ch : PumpCh} (hpf : pfOfChan u c.chan = pf)
  (hch : { src := BitVec.ofNat 64 (arg c 0 8), dst := BitVec.ofNat 64 (arg c 8 8), count := BitVec.ofNat 32 (arg c 16 4),
           shape := BitVec.ofNat 32 (arg c 20 4), ctrl := BitVec.ofNat 32 (4 * (arg c 24 1 % 16)) } = ch)
include h hu hpf hch

/-- A malformed transfer is answered in RESULT1. -/
theorem pumpRecover_malformed {d : Nat} (hbad : chBad u pf ch = some d) :
    exec (.pumpRecover c) s = answered infoPumpRecover c s (ok 0 (qMalformed + 2 ^ 32 * d)) u :=
  ready_replies h (by simp only [hu, hpf, hch, hbad])

/-- A transfer joins the line of channel 255, and starts when it is the first. -/
theorem pumpRecover_queues (hgood : chBad u pf ch = none) (hreach : (sidebandCut u c.chan && (chSrcSpace ch == 0 || chDstSpace ch == 0)) = false) :
    let v := { u with rings := { u.rings with recover := u.rings.recover ++ [{ ref := refAt infoPumpRecover c s, pf := pf, ch := ch }] } }
    exec (.pumpRecover c) s = runsOn infoPumpRecover c s (if u.rings.recover.isEmpty then recoverStart v else v) :=
  ready_runsOn h (by simp only [hu, hpf, hch, hgood, hreach, Bool.false_eq_true, if_false])

end

/-! ## A channel's start (R321) -/

section
variable {ch : Nat} (hservice : inService s = true)
include hservice

/-- A channel that waits for sump space tries again. -/
theorem channelStart_retries (hstate : (pumpAt s ch).state = 4) : exec (.channelStart ch) s = .next (settle (pumpBegin ch s)) := by
  have hin : ¬ (!inService s) = true := by simp [hservice]
  exact congrArg done ((if_neg hin).trans (if_pos hstate))

/-- A queued channel with a free record slot reserves it, then ends for an abort or a parameter fault, or begins. -/
theorem channelStart_reserves (hstate : (pumpAt s ch).state = 1) (hfree : pcqFree (pcqAt s (chPcq (pumpAt s ch))) = true) :
    let c := pumpAt s ch
    let v := updPcq (chPcq c) (fun p => { p with reserved := p.reserved + 1 }) s
    exec (.channelStart ch) s = .next (settle (
      if c.ctrl.getLsbD 1 then endPump ch qAborted 0 0 v
      else match chBad v (pumpPf ch c) c with
        | some d => endPump ch qMalformed d 0 v
        | none => pumpBegin ch v)) := by
  have hin : ¬ (!inService s) = true := by simp [hservice]
  have hfirst : ¬ (pumpAt s ch).state = 4 := by simp [hstate]
  have hslot : ¬ ((pumpAt s ch).state ≠ 1 ∨ (!pcqFree (pcqAt s (chPcq (pumpAt s ch)))) = true) := by simp [hstate, hfree]
  exact congrArg done ((if_neg hin).trans ((if_neg hfirst).trans (if_neg hslot)))

end

/-! ## A transfer's end (R323) -/

/-- The writes of a transfer whose good source is all there, and that has not written its last byte, are posted, and it completes OK unless one of
them waits. -/
theorem pumpClose_good {n pf : Nat} {ch : PumpCh} {src : Bytes} (set : PumpCh → State → State) (fin : Nat → State → State)
    (hmore : ch.done ≠ ch.count.toNat) (hclean : pumpPoisoned s ch = false) :
    let w := set { ch with state := 3, done := ch.count.toNat, early := [], bad := false }
      (pumpWrite n pf ch ch.done ((reshuffle (chMode ch) (chK ch) (chCell ch) src).drop ch.done) s)
    pumpClose n pf ch src set fin s = if destHeld w n then w else fin qOk w := by
  have hposted : pumpFinish n pf ch src s =
      (qOk, pumpWrite n pf ch ch.done ((reshuffle (chMode ch) (chK ch) (chCell ch) src).drop ch.done) s) :=
    if_neg (ne_true_of_eq_false hclean)
  have hfine : decide (qOk = qPoisoned) = false := by decide
  simp only [pumpClose, if_neg hmore, hposted, hfine]

/-- A register channel whose whole source is there closes its transfer. -/
theorem pumpTransferComplete_closes {n : Nat} {data : Bytes} (hlast : n < 255) (hruns : (pumpAt s n).state = 2 ∨ (pumpAt s n).state = 3)
    (hwhole : (pumpAt s n).count.toNat ≤ (pumpSource s (pumpAt s n) data).length) : let c := pumpAt s n
    exec (.pumpTransferComplete n data) s = .next (settle (pumpClose n (pumpPf n c) c (pumpSource s c data)
      (fun c s => updPump n (fun _ => c) s) (fun st s => endPump n st 0 c.count.toNat s) s)) := by
  have hready : ((pumpAt s n).state = 2 ∨ (pumpAt s n).state = 3) ∧ pumpWhole (pumpAt s n) (pumpSource s (pumpAt s n) data) = true :=
    ⟨hruns, by simp [pumpWhole, hwhole]⟩
  exact congrArg done ((if_neg (Nat.ne_of_lt hlast)).trans (if_pos hready))

/-- Settles O52, row by row; CHANNEL_START by the state of the channel, PUMP_TRANSFER_COMPLETE by whether a write of it waits. -/
theorem pumpRows : Obligations.PumpRows := by
  refine ⟨fun t c s => ⟨fun h => pumpAssign_assigns h rfl rfl, fun h => pcqSet_sets h rfl rfl,
    fun h => ⟨fun d => pumpRecover_malformed h rfl rfl rfl, pumpRecover_queues h rfl rfl rfl⟩, fun h => ready_read h _⟩, fun ch s => ?_⟩
  refine ⟨channelStart_retries, fun hservice hstate hfree => ?_, fun data hlast hruns hmore hwhole hclean => ?_⟩
  · have hstart := channelStart_reserves hservice hstate hfree
    refine ⟨fun habort => ?_, fun d hon hbad => ?_, fun hon hgood => ?_⟩
    · rw [hstart, if_pos habort]
    · rw [hstart, if_neg (ne_true_of_eq_false hon), hbad]
    · rw [hstart, if_neg (ne_true_of_eq_false hon), hgood]
  · have hend := pumpTransferComplete_closes hlast hruns hwhole
    refine ⟨fun hposted => ?_, fun hheld => ?_⟩
    · rw [hend, pumpClose_good _ _ hmore hclean, if_neg (ne_true_of_eq_false hposted)]
    · rw [hend, pumpClose_good _ _ hmore hclean, if_pos hheld]

end Sys2Proof.Machine
end

section
/-! SUPPORT. The queue commands and the events of a queue pair (R297 to R316, R330, R331), with the obligation on them. -/

namespace Sys2Proof.Machine

open Sys2Proof

variable {t : Target} {c : Cmd} {s u : State} {f n : Nat}

/-! ## QUEUE_CREATE, QUEUE_START and QUEUE_QUERY (R330, R331) -/

/-- A queue pair in range that does not exist, and is no physical function's admin ring, is created running. -/
theorem queueCreate_creates (h : Ready infoQueueCreate t c s) (hu : taken infoQueueCreate c s = u) (hqueue : queueOf u c = .ok (f, n))
    (hrange : queueBad u f c = false) (hadmin : isVf f = true ∨ arg c 2 2 ≠ 0) (hnew : qpExists u n = false) :
    let q : Qp := { fn := f, idx := arg c 2 2, ty := arg c 4 1, keepErr := bit (arg c 5 1) 0, log2Sq := arg c 6 1, log2Cq := arg c 7 1,
                    sqAddr := arg c 8 8, cqAddr := arg c 16 8, vector := arg c 24 2, modUs := arg c 26 2, modCount := arg c 28 2, state := 1 }
    exec (.queueCreate c) s = answered infoQueueCreate c s (ok n 0) { u with rings := { u.rings with qps := Store.set {} n q u.rings.qps } } := by
  have hother : ¬ ((!isVf f) = true ∧ arg c 2 2 = 0) := by
    rintro ⟨hpf, hzero⟩
    rcases hadmin with hvf | hmore
    · simp [hvf] at hpf
    · exact hmore hzero
  exact ready_answers h (by simp only [hu, hqueue, hrange, hnew, Bool.false_eq_true, if_false, if_neg hother])

section
variable (h : Ready infoQueueStart t c s) (hu : taken infoQueueStart c s = u) (hqueue : queueOf u c = .ok (f, n))
include h hu hqueue

theorem queueStart_restarts (hstate : (qpAt u n).state = 2) :
    exec (.queueStart c) s = answered infoQueueStart c s (ok 0 0) (admReady f n true (updQp n restartQp u)) := by
  have hthere : ¬ (qpAt u n).state = 0 := by omega
  have hdone : ¬ (qpAt u n).state = 3 := by omega
  have hrests : ¬ (qpAt u n).state = 1 := by omega
  exact ready_answers h (by simp only [hu, hqueue, if_neg hthere, if_neg hdone, if_neg hrests])

theorem queueStart_refuses (hstate : (qpAt u n).state = 1) :
    exec (.queueStart c) s = answered infoQueueStart c s { status := stState } u := by
  have hthere : ¬ (qpAt u n).state = 0 := by omega
  have hdone : ¬ (qpAt u n).state = 3 := by omega
  refine ready_answers h ?_
  simp only [hu, hqueue, if_neg hthere, if_neg hdone, if_pos hstate]
  rfl

end

theorem queueQuery_reads (h : Ready infoQueueQuery t c s) (hu : taken infoQueueQuery c s = u) (hqueue : queueOf u c = .ok (f, n)) :
    exec (.queueQuery c) s = answered infoQueueQuery c s (okOut 0 0 (arg c 8 8) (queueRecord (qpAt u n))) u :=
  ready_replies h (by simp only [readBody, hu, hqueue])

/-! ## QUEUE_STOP and QUEUE_DESTROY (R315, R316) -/

section
variable {gone : Bool} {r : CmdRef} (hqueue : queueOf s c = .ok (f, n))
include hqueue

theorem stopBody_absent (hstate : (qpAt s n).state = 0) : stopBody gone r t c s = (s, some (err stState 1)) := by
  simp only [stopBody, hqueue, if_pos hstate]

variable (hother : ownRing s c n = false)
include hother

/-- A data ring that runs begins to stop. -/
theorem stopBody_begins (hstate : (qpAt s n).state = 1) (hdata : (qpAt s n).ty ≠ 2) :
    stopBody gone r t c s = (beginStop n r gone s, none) := by
  have hthere : ¬ (qpAt s n).state = 0 := by omega
  have hnot : ¬ (qpAt s n).state = 3 := by omega
  simp only [stopBody, hqueue, if_neg hthere, if_neg hnot, hother, Bool.false_eq_true, if_false, if_pos (And.intro hstate hdata)]

/-- An admin ring that runs stops at once. -/
theorem stopBody_admin (hstate : (qpAt s n).state = 1) (hadmin : (qpAt s n).ty = 2) : stopBody gone r t c s =
    (admReady f n false (if gone then removeQp n (stopAdmin f n s).2 else (stopAdmin f n s).2), some (ok (stopAdmin f n s).1 0)) := by
  have hthere : ¬ (qpAt s n).state = 0 := by omega
  have hnot : ¬ (qpAt s n).state = 3 := by omega
  have hdata : ¬ ((qpAt s n).state = 1 ∧ (qpAt s n).ty ≠ 2) := fun ⟨_, hty⟩ => hty hadmin
  have hruns : ¬ (qpAt s n).state = 2 := by omega
  simp only [stopBody, hqueue, if_neg hthere, if_neg hnot, hother, Bool.false_eq_true, if_false, if_neg hdata, if_neg hruns]

/-- One that rests has nothing to complete. -/
theorem stopBody_resting (hstate : (qpAt s n).state = 2) :
    stopBody gone r t c s = (admReady f n false (if gone then removeQp n s else s), some (ok 0 0)) := by
  have hthere : ¬ (qpAt s n).state = 0 := by omega
  have hnot : ¬ (qpAt s n).state = 3 := by omega
  have hdata : ¬ ((qpAt s n).state = 1 ∧ (qpAt s n).ty ≠ 2) := by omega
  simp only [stopBody, hqueue, if_neg hthere, if_neg hnot, hother, Bool.false_eq_true, if_false, if_neg hdata, if_pos hstate]

end

/-! ## Fetches (R303, R304, R313) -/

/-- What a queue pair does with the bytes of the entries it has read. -/
def useFetched (qp : Nat) (q : Qp) (data : Bytes) (bad : Bool) (s : State) : State :=
  if !qpRuns s q then s
  else if bad then updQp qp (fun q => { q with due := 0 }) s
  else if q.ty = 2 then useCmds qp (sqSize q) (data.take (64 * q.asked)) s
  else useDescs qp ((records 32 (data.length / 32) data).take q.asked) s

theorem descriptorFetchComplete_uses {qp : Nat} (hfetching : (qpAt s qp).fetching = true) (data : Bytes) (bad : Bool) :
    exec (.descriptorFetchComplete qp data bad) s =
      .next (settle (endFetch qp (useFetched qp (qpAt s qp) data bad (finishReads (.fetch qp) s)))) :=
  congrArg done (if_neg (by simp [hfetching]))

section
variable {qp : Nat} {q : Qp} {data : Bytes}

theorem useFetched_stopped {bad : Bool} (hruns : qpRuns s q = false) : useFetched qp q data bad s = s := if_pos (by simp [hruns])

variable (hruns : qpRuns s q = true)
include hruns

theorem useFetched_failed : useFetched qp q data true s = updQp qp (fun q => { q with due := 0 }) s := by
  simp [useFetched, hruns]

theorem useFetched_descs (hdata : q.ty ≠ 2) :
    useFetched qp q data false s = useDescs qp ((records 32 (data.length / 32) data).take q.asked) s := by
  simp [useFetched, hruns, hdata]

theorem useFetched_cmds (hadmin : q.ty = 2) : useFetched qp q data false s = useCmds qp (sqSize q) (data.take (64 * q.asked)) s := by
  simp [useFetched, hruns, hadmin]

end

/-! ## Transmit reads (R254, R301) -/

section
variable {qp frame : Nat} {x : TxFrame} {data : Bytes}
  (hframe : (qpAt s qp).frames.find? (fun (f : TxFrame) => f.reading && f.tx.tag == frame) = some x) (hup : fnUp s (qpAt s qp).fn = true)
  (hservice : inService s = true)
include hframe hup hservice

theorem txDataReadComplete_fails {bad : Bool} (hbad : bad = true ∨ data.length < x.tx.len) :
    exec (.txDataReadComplete qp frame data bad) s = .next (settle (failTxRead qp frame qDmaFault 3 s)) := by
  have hfails : (bad || decide (data.length < x.tx.len)) = true := by simpa using hbad
  show execTxDataReadComplete qp frame data bad s = _
  simp only [execTxDataReadComplete, hframe, hup, hservice, hfails, Bool.not_true, Bool.or_self, Bool.false_eq_true, if_false, if_true, done]

theorem txDataReadComplete_sends (hlen : x.tx.len ≤ data.length) {g : TxFrame} {v : State} (htake : takeRead qp frame s = some (g, v)) :
    exec (.txDataReadComplete qp frame data false) s = .next (settle (hostFrame (qpAt v qp).fn g (data.take g.tx.len) v)) := by
  have hgood : (false || decide (data.length < x.tx.len)) = false := by simp [hlen]
  show execTxDataReadComplete qp frame data false s = _
  simp only [execTxDataReadComplete, hframe, hup, hservice, hgood, htake, Bool.not_true, Bool.or_self, Bool.false_eq_true, if_false, done]

end

theorem txReadRetry_starts {qp : Nat} (hruns : qpRuns s (qpAt s qp) = true) (hty : (qpAt s qp).ty = 0)
    (hwaits : ∃ f ∈ (qpAt s qp).frames, f.waits = true ∧ f.reading = false) : exec (.txReadRetry qp) s = .next (settle (startTxRead qp s)) := by
  have hsome : ((qpAt s qp).frames.any fun f => f.waits && !f.reading) = true := by simpa [List.any_eq_true] using hwaits
  exact congrArg done (if_pos (by simp [hruns, hty, hsome]))

/-! ## Moderation (R311) -/

theorem moderationTimeout_fires {qp at_ : Nat} (hmod : (qpAt s qp).modAt = some at_) (harm : (qpAt s qp).arm = true) :
    exec (.moderationTimeout qp) s = .next (settle (fireQp qp (advanceTo (at_ + (qpAt s qp).modUs * 1000 * 65536) s))) := by
  show execModerationTimeout qp s = _
  simp only [execModerationTimeout, hmod, harm, if_true, done]

/-- Settles O51, row by row; a stop by the state and the type of its queue pair, a fetch by what its queue pair does with the bytes. -/
theorem ringRows : Obligations.RingRows := by
  refine ⟨fun t c s => ⟨fun h f n => queueCreate_creates h rfl, fun f n h hqueue hother => ?_, fun f n h hqueue hother => ?_,
    fun f n h hqueue => ⟨queueStart_restarts h rfl hqueue, queueStart_refuses h rfl hqueue⟩, fun f n h => queueQuery_reads h rfl⟩,
    fun qp s => ⟨fun hfetching => ⟨fun data bad hruns => ?_, fun data hruns => ⟨?_, fun hdata => ?_, fun hadmin => ?_⟩⟩,
      fun frame x data hframe hup hservice => ⟨fun hshort => ?_, ?_, fun g v hlen => txDataReadComplete_sends hframe hup hservice hlen⟩,
      txReadRetry_starts, fun at_ => moderationTimeout_fires⟩⟩
  · exact ⟨fun hstate => ready_replies h (stopBody_absent hqueue hstate),
      fun hstate hdata => ready_runsOn h (stopBody_begins hqueue hother hstate hdata),
      fun hstate hadmin => ready_replies h (stopBody_admin hqueue hother hstate hadmin),
      fun hstate => ready_replies h (stopBody_resting hqueue hother hstate)⟩
  · exact ⟨fun hstate hdata => ready_runsOn h (stopBody_begins hqueue hother hstate hdata),
      fun hstate hadmin => ready_replies h (stopBody_admin hqueue hother hstate hadmin),
      fun hstate => ready_replies h (stopBody_resting hqueue hother hstate)⟩
  · rw [descriptorFetchComplete_uses hfetching, useFetched_stopped hruns]
  · rw [descriptorFetchComplete_uses hfetching, useFetched_failed hruns]
  · rw [descriptorFetchComplete_uses hfetching, useFetched_descs hruns hdata]
  · rw [descriptorFetchComplete_uses hfetching, useFetched_cmds hruns hadmin]
  · exact txDataReadComplete_fails hframe hup hservice (.inr hshort)
  · exact txDataReadComplete_fails hframe hup hservice (.inl rfl)

end Sys2Proof.Machine
end

section
/-! SUPPORT. The Combiner's commands (R362 to R370, R380 to R383), with the obligation on them. -/

namespace Sys2Proof.Machine

open Sys2Proof

variable {t : Target} {c : Cmd} {s u : State} {n : Nat} {x : CombSet}

/-! ## COMB_SET_WRITE (R362, R370, R380, R382) -/

section
variable (h : Ready infoCombSetWrite t c s) (hu : taken infoCombSetWrite c s = u) (hn : arg c 0 1 = n) (hx : readSet c.payload = x)
  (hrange : setBad u x = false)
include h hu hn hx hrange

/-- A set that is not enabled takes a record that does not enable it. -/
theorem combSetWrite_sets (hoff : (combSet u n).enable = false) (hrest : x.enable = false) : exec (.combSetWrite c) s =
    answered infoCombSetWrite c s (setAnswer (updSet n (fun _ => x) u) n) (updSet n (fun _ => x) u) :=
  ready_replies h (by simp only [hu, hn, hx, hrange, hoff, hrest, Bool.false_and, Bool.not_false, Bool.false_eq_true, if_false, if_true])

theorem combSetWrite_enables {clay : Bool} (hoff : (combSet u n).enable = false) (hstart : x.enable = true) (hadmit : admitSet u x = .ok clay) :
    let v := combPoint (updSet n (fun _ => { x with inClay := clay, enabledAt := u.time.t }) u)
    exec (.combSetWrite c) s = answered infoCombSetWrite c s (setAnswer v n) v :=
  ready_replies h (by
    simp only [hu, hn, hx, hrange, hoff, hstart, hadmit, Bool.false_and, Bool.not_true, Bool.false_eq_true, if_false])

theorem combSetWrite_refuses {d : Nat} (hoff : (combSet u n).enable = false) (hstart : x.enable = true) (hadmit : admitSet u x = .error d) :
    exec (.combSetWrite c) s = answered infoCombSetWrite c s (err stNoResource d) u :=
  ready_replies h (by
    simp only [hu, hn, hx, hrange, hoff, hstart, hadmit, Bool.false_and, Bool.not_true, Bool.false_eq_true, if_false])

/-- An enabled set is disabled at the next slot boundary of its carrier. -/
theorem combSetWrite_disables (hon : (combSet u n).enable = true) (hstays : (combSet u n).disabling = none) (hstop : x.enable = false) :
    let k := carrierAt u (combSet u n).carrier
    exec (.combSetWrite c) s = runsOn infoCombSetWrite c s (updSet n (fun y => {
      y with disabling := some (refAt infoCombSetWrite c s),
             stopAt := if k.dirs.isEmpty then u.time.t else (boundaryFrom k 1 u.time.t).toNat, nextRec := c.payload }) u) :=
  ready_runsOn h (by
    simp only [hu, hn, hx, hrange, hon, hstays, hstop, Option.isSome_none, Bool.or_self, Bool.and_false, Bool.false_eq_true, if_false, if_true])

theorem combSetWrite_rewrites (hon : (combSet u n).enable = true) (hstart : x.enable = true) :
    exec (.combSetWrite c) s = answered infoCombSetWrite c s (err stState 1) u :=
  ready_replies h (by simp only [hu, hn, hx, hrange, hon, hstart, Bool.true_or, Bool.and_self, Bool.false_eq_true, if_false, if_true])

end

/-! ## COMB_CFLOW_WRITE (R363) -/

section
variable (h : Ready infoCombCflowWrite t c s) (hu : taken infoCombCflowWrite c s = u)
include h hu

theorem combCflowWrite_writes {v : State} (hw : writeCflows (arg c 0 2) (arg c 4 4) (records 32 (arg c 8 4) (c.payload.drop 16)) u = .ok v) :
    exec (.combCflowWrite c) s = answered infoCombCflowWrite c s (ok (arg c 8 4) 0) v :=
  ready_answers h (by simp only [hu, hw])

theorem combCflowWrite_refuses {i : Nat} (hw : writeCflows (arg c 0 2) (arg c 4 4) (records 32 (arg c 8 4) (c.payload.drop 16)) u = .error i) :
    exec (.combCflowWrite c) s = answered infoCombCflowWrite c s (err stBadLength i) u :=
  ready_answers h (by simp only [hu, hw])

end

/-! ## Weight banks (R367 to R369) -/

/-- An enabled set with its inactive bank free reads a new one from host memory. -/
theorem combWeights_reads (h : Ready infoCombWeights t c s) (hu : taken infoCombWeights c s = u) (hn : arg c 0 2 = n) (hx : combSet u n = x)
    (hon : x.enable = true) (harmed : x.armed = none) (hloading : x.loading = none) (hfree : inactiveBusy u n x = false)
    (hlen : arg c 16 4 = bankBytes x) (hreach : sidebandCut u c.chan = false) :
    exec (.combWeights c) s = runsOn infoCombWeights c s (hostRead (readerOf u c.chan) (.weights n) (arg c 8 8) (arg c 16 4)
      (updSet n (fun x => { x with loading := some (refAt infoCombWeights c s), loadLen := arg c 16 4 })
        (updSet n (fun x => { x with spare := none, oldBank := none }) u))) :=
  ready_runsOn h (by
    simp only [hu, hn, hx, hon, harmed, hloading, hfree, if_neg (not_not_intro hlen), hreach, Option.isSome_none, Bool.or_self, Bool.not_true,
      Bool.false_eq_true, if_false])

section
variable (h : Ready infoCombSwitch t c s) (hu : taken infoCombSwitch c s = u) (hn : arg c 0 8 = n) (hx : combSet u n = x)
include h hu hn hx

theorem combSwitch_busy (harmed : x.armed.isSome = true) : exec (.combSwitch c) s = answered infoCombSwitch c s { status := stBusy } u := by
  refine ready_replies h ?_
  simp only [hu, hn, hx, harmed, if_true]
  rfl

theorem combSwitch_unloaded (harmed : x.armed = none) (hspare : x.spare = none) :
    exec (.combSwitch c) s = answered infoCombSwitch c s (err stState 1) u :=
  ready_replies h (by simp only [hu, hn, hx, harmed, hspare, Option.isSome_none, Option.isNone_none, Bool.false_eq_true, if_false, if_true])

/-- A loaded bank is switched to at the first slot boundary from 100 us on. -/
theorem combSwitch_arms (harmed : x.armed = none) (hspare : x.spare.isSome = true) :
    let at_ := max (arg c 8 8 * 65536) (u.time.t + 100000 * 65536)
    exec (.combSwitch c) s = runsOn infoCombSwitch c s (updSet n (fun x => {
      x with armed := some (refAt infoCombSwitch c s), armedAt := at_, switchAt := (boundaryFrom (carrierAt u x.carrier) 1 at_).toNat }) u) := by
  have hthere : x.spare.isNone = false := by simpa using hspare
  exact ready_runsOn h (by simp only [hu, hn, hx, harmed, hthere, Option.isSome_none, Bool.false_eq_true, if_false])

end

/-- Settles O56, row by row; COMB_SET_WRITE by whether the set is enabled and is to be. -/
theorem combinerCommands : Obligations.CombinerCommands := by
  intro t c s
  refine ⟨fun h hrange => ⟨combSetWrite_sets h rfl rfl rfl hrange, fun clay => combSetWrite_enables h rfl rfl rfl hrange,
      fun d => combSetWrite_refuses h rfl rfl rfl hrange, combSetWrite_disables h rfl rfl rfl hrange, combSetWrite_rewrites h rfl rfl rfl hrange⟩,
    fun h => ⟨fun v => combCflowWrite_writes h rfl, fun i => combCflowWrite_refuses h rfl⟩, fun h => combWeights_reads h rfl rfl rfl,
    fun h => ⟨combSwitch_busy h rfl rfl rfl, combSwitch_unloaded h rfl rfl rfl, combSwitch_arms h rfl rfl rfl⟩,
    fun h => ready_answers h rfl⟩

end Sys2Proof.Machine
end

section
/-! SUPPORT. The Combiner's events (R368 to R378, R382), with the obligation on them. -/

namespace Sys2Proof.Machine

open Sys2Proof

variable {s : State} {n : Nat} {x : CombSet}

/-! ## Sets and weight banks (R368, R369, R382) -/

/-- A set whose symbols have all ended is disabled at its boundary, and takes the record that waits. -/
theorem combSetDisableDone_disables (hx : combSet s n = x) {r : CmdRef} (hstop : x.disabling = some r) (hended : ∀ y ∈ s.comb.syms, y.set ≠ n)
    (hruns : timeRuns s = true) :
    let v := disarmSwitch n (some (err stAborted 0)) (advanceTo x.stopAt s)
    let v := updSet n (fun y => { readSet x.nextRec with loading := y.loading, loadLen := y.loadLen }) v
    exec (.combSetDisableDone n) s = .next (settle (replyIfRunning r (setAnswer v n) v)) := by
  have hgo : ¬ ((s.comb.syms.any fun c => c.set == n) || !timeRuns s) = true := by simpa [hruns] using hended
  show execCombSetDisableDone n s = _
  simp only [execCombSetDisableDone, hx, hstop, if_neg hgo, done]

section
variable (hx : combSet s n = x) {r : CmdRef} (hloading : x.loading = some r) {data : Bytes}
include hx hloading

theorem weightBankLoaded_short (hshort : data.length < x.loadLen) : exec (.weightBankLoaded n { data := data }) s =
    .next (settle (replyIfRunning r (err stRetry 0x20)
      (endReads (.weights n) (updSet n (fun x => { x with loading := none, loadLen := 0 }) s)))) := by
  show execWeightBankLoaded n { data := data } s = _
  simp only [execWeightBankLoaded, hx, hloading, decide_eq_true hshort, Bool.true_or, if_true, done]

theorem weightBankLoaded_loads (hlen : x.loadLen ≤ data.length) (hon : x.enable = true) (hset : fld data 0 1 = n)
    (hshifts : (readBank x (spareHalf x) data).shifts.any (fun v => decide (24 < v)) = false) :
    let v := endReads (.weights n) (updSet n (fun x => { x with loading := none, loadLen := 0 }) s)
    let b := readBank x (spareHalf x) data
    exec (.weightBankLoaded n { data := data }) s = .next (settle (replyIfRunning r (ok x.loadLen 0)
      (clearPoison (weightMem x) (combMem n b.half) 1073741824 (updSet n (fun x => { x with spare := some b }) v)))) := by
  have hgood : ¬ (fld data 0 1 ≠ n ∨ (readBank x (spareHalf x) data).shifts.any (fun v => decide (24 < v)) = true) := by
    simp only [hset, hshifts, ne_eq, not_true, Bool.false_eq_true, or_self, not_false_eq_true]
  show execWeightBankLoaded n { data := data } s = _
  simp only [execWeightBankLoaded, hx, hloading, decide_eq_false (Nat.not_lt.mpr hlen), hon, if_neg hgood, Bool.or_self, Bool.not_true,
    Bool.false_eq_true, if_false, done]

end

theorem combBankSwitch_switches (hx : combSet s n = x) (hruns : combRuns s = true) {r : CmdRef} (harmed : x.armed = some r) :
    exec (.combBankSwitch n) s =
      .next (settle (replyIfRunning r (ok (x.switchAt / 65536) ((x.spare.map (·.wepoch)).getD 0)) (switchBank n s))) := by
  show execCombBankSwitch n s = _
  simp only [execCombBankSwitch, hx, hruns, harmed, if_true, done]

/-! ## Uplink symbols (R372 to R375) -/

section
variable (hx : combSet s n = x) (hruns : combRuns s = true) (hdir : x.dir = 0)
include hx hruns hdir

theorem uplinkSymbolClose_closes {c : SymCtx} (hfirst : firstSym s n (fun c => !c.closed) = some c) :
    let v := advanceTo (closeInstant x c.tSym) s
    let m := (missingOf x c).length
    let v := noteEnded n c.tSym (combCount n 8 m v)
    let v := releaseClaims c (if m = 0 then v else raise (1056 + n) 0 (combCount n 9 1 v))
    exec (.uplinkSymbolClose n) s = .next (settle (updSym n c.tSym (fun y =>
      { y with closed := true, closeAt := closeInstant x c.tSym, unlocked := unlocked v, claims := [] }) v)) := by
  show execUplinkSymbolClose n s = _
  simp only [execUplinkSymbolClose, hx, hruns, hdir, hfirst, beq_self_eq_true, Bool.and_self, if_true, done]

/-- The records of a closed symbol are written, layer by layer, from good weights. -/
theorem uplinkRecordWrite_writes {c : SymCtx} {b : WBank} (hfirst : firstSym s n (·.closed) = some c)
    (hbank : bankOfSlot x c.slotAt = some b) (hclean : symPoisoned (removeSym n c.tSym s) x n b = none) :
    let v := removeSym n c.tSym s
    let behind := decide (1000000000 * 65536 < (v.time.t - c.closeAt) * 14000 * 2 ^ c.mu)
    exec (.uplinkRecordWrite n) s = .next (settle ((List.range x.layers).foldl (writeLayer n x b c behind) v)) := by
  show execUplinkRecordWrite n s = _
  simp only [execUplinkRecordWrite, hx, hruns, hdir, hfirst, hbank, hclean, beq_self_eq_true, Bool.and_self, if_true, done]

end

/-! ## Downlink symbols (R376 to R378) -/

section
variable (hx : combSet s n = x) (hruns : combRuns s = true) (hdir : x.dir = 1) {c : SymCtx} {b : WBank}
include hx hruns hdir

/-- The symbol that is combined, and the state at its instant: the first that is complete, else the next one at its lead time. -/
theorem downlinkCombine_combines {v0 : State}
    (hfirst : (firstSym s n (fun c => !c.closed && dlComplete x c) = some c ∧ v0 = s) ∨
      (firstSym s n (fun c => !c.closed && dlComplete x c) = none ∧ firstSym s n (fun c => !c.closed) = some c ∧
        v0 = advanceTo (c.tSym - x.dlLead * 65536) s))
    (hbank : bankOfSlot x c.slotAt = some b) :
    let v := noteEnded n c.tSym (combCount n 11 ((List.range x.layers).filter fun l => decide (gotOf c l < x.numPrb)).length v0)
    let sat := ((List.range x.antennas).map fun a => (combRow x b c a x.startPrb x.numPrb).2).sum
    symPoisoned v x n b = none → exec (.downlinkCombine n) s = .next (settle (endDl n c.tSym x
      (updSym n c.tSym (fun c => { c with closed := true, closeAt := v.time.t }) (combCount n 10 sat v)))) := by
  intro v sat hclean
  have hgo : ¬ (!combRuns s || x.dir != 1) = true := by simp [hruns, hdir]
  show execDownlinkCombine n s = _
  rcases hfirst with ⟨hfull, rfl⟩ | ⟨hnone, hnext, rfl⟩
  · simp only [execDownlinkCombine, hx, if_neg hgo, hfull, Option.isSome_some, if_true, hbank, v, sat, done] at hclean ⊢
    simp only [hclean]
  · simp only [execDownlinkCombine, hx, if_neg hgo, hnone, hnext, Option.isSome_none, Bool.false_eq_true, if_false, hbank, v, sat, done] at hclean ⊢
    simp only [hclean]

theorem dlFrameReady_sends {antenna : Nat} (hfirst : firstSym s n (fun c => c.closed && (dlPending s n x c).contains antenna) = some c)
    (hbank : bankOfSlot x c.slotAt = some b) : exec (.dlFrameReady n antenna) s = .next (settle (endDl n c.tSym x
      (updSym n c.tSym (fun c => { c with doneAnt := antenna :: c.doneAnt }) (sendAntenna n antenna x b c s)))) := by
  show execDlFrameReady n antenna s = _
  simp only [execDlFrameReady, hx, hruns, hdir, hfirst, hbank, beq_self_eq_true, Bool.and_self, if_true, done]

end

/-- Settles O57, row by row. -/
theorem combinerEvents : Obligations.CombinerEvents := by
  intro n s
  exact ⟨fun r => combSetDisableDone_disables rfl,
    fun r data hloading => ⟨weightBankLoaded_short rfl hloading, weightBankLoaded_loads rfl hloading⟩,
    fun hruns => ⟨fun r => combBankSwitch_switches rfl hruns, fun c hdir => uplinkSymbolClose_closes rfl hruns hdir,
      fun c b hdir hfirst hbank => uplinkRecordWrite_writes rfl hruns hdir hfirst hbank,
      fun c b v0 hdir hfirst hbank => downlinkCombine_combines rfl hruns hdir hfirst hbank,
      fun c b antenna hdir => dlFrameReady_sends rfl hruns hdir⟩⟩

end Sys2Proof.Machine
end

section
/-! SUPPORT. The frames and timers of a stitch link, and the aquifer's deadlines (R384 to R403), with the obligation on them. -/

namespace Sys2Proof.Machine

open Sys2Proof

variable {s : State} {port : Nat}

/-! ## Frames (R384, R389, R390) -/

/-- Every row of the frames of a stitch link receives its frame. -/
theorem frameRow_receives {k : Nat → StitchFrame → Instr}
    (hk : k ∈ ([.pkt, .cmd, .rsp, .null, .hello, .cert, .proof, .admitted, .leave, .widthPropose, .widthAccept, .widthRefuse, .widthSwitch, .rest,
      .restAck, .ping, .pong, .prepare, .confirm, .refuse, .abort, .stitchCtrlBad] : List (Nat → StitchFrame → Instr)))
    (port : Nat) (f : StitchFrame) (s : State) : exec (k port f) s = .next (settle (stitchReceive port f s)) := by
  fin_cases hk <;> rfl

/-- The state after the frame expected next has been counted and its credits taken. -/
def frameCounted (port : Nat) (b : Bytes) (s : State) : State :=
  updStitch port (fun x => {
    x with rxSeq := (x.rxSeq + 1) % 4096, rxAny := true,
           owe0 := if fld b 0 1 % 16 = uPkt ∨ fld b 0 1 % 16 = uCmd then x.owe0 + creditsFor (fld b 4 2 % 16384) else x.owe0,
           owe1 := if fld b 0 1 % 16 = uRsp then x.owe1 + creditsFor (fld b 4 2 % 16384) else x.owe1,
           lastTraffic := if fld b 0 1 % 16 = uCtrl then x.lastTraffic else s.time.t }) s

section
variable {f : StitchFrame} (hup : stitchUp s port = true) (htalks : modeTalks s = true)
include hup htalks

theorem stitchReceive_bad (hbad : frameGood f.data = false) : stitchReceive port f s = sendNull port true (count (cPort port 18) s) := by
  simp only [stitchReceive, hup, htalks, hbad, Bool.not_true, Bool.or_self, Bool.not_false, Bool.false_eq_true, if_false, if_true]

variable (hgood : frameGood f.data = true) (hawake : (stitchAt s port).resting = false) (hack : bit (fld f.data 2 2) 13 = false)
include hgood hawake hack

theorem stitchReceive_null (hnull : fld f.data 0 1 % 16 = uNull) : stitchReceive port f s = takeAck port f.data s := by
  simp only [stitchReceive, hup, htalks, hgood, hawake, hack, Bool.not_true, Bool.or_self, Bool.false_eq_true, if_false, hnull, true_or, if_true]

/-- The frame expected next is delivered, and acknowledged while the link stands. -/
theorem stitchReceive_next (hlink : (stitchAt (takeAck port f.data s) port).lost = false) (hother : fld f.data 0 1 % 16 ≠ uNull)
    (hseq : fld f.data 0 2 / 16 = (stitchAt (takeAck port f.data s) port).rxSeq) :
    let w := takeFrame port (fld f.data 0 1 % 16) (slice f.data 8 (fld f.data 4 2 % 16384)) (frameCounted port f.data (takeAck port f.data s))
    stitchReceive port f s = if (stitchAt w port).lost then w else sendNull port false w := by
  simp only [stitchReceive, hup, htalks, hgood, hawake, hack, hlink, Bool.not_true, Bool.or_self, Bool.false_eq_true, if_false, hother, or_self,
    hseq, if_true, frameCounted]
  rfl

end

/-! ## Retry and loss (R389, R401) -/

section
variable {u : StitchSt} (hu : stitchAt s port = u) (hup : stitchUp s port = true)
include hu hup

theorem stitchRetryTimeout_replays (hsome : u.retry ≠ []) (hfew : u.replays < 8) :
    exec (.stitchRetryTimeout port) s = .next (settle (u.retry.foldl (fun t f => putFrame port f.ty f.seq f.payload false t)
      (count (cPort port 19) (updStitch port (fun u => { u with replays := u.replays + 1 }) s)))) := by
  subst hu
  have hwaits : ¬ (stitchAt s port).retry.isEmpty = true := by simpa using hsome
  exact congrArg done ((if_pos hup).trans ((if_neg hwaits).trans (if_neg (Nat.not_le.mpr hfew))))

theorem stitchRetryTimeout_loses (hsome : u.retry ≠ []) (hmany : 8 ≤ u.replays) :
    exec (.stitchRetryTimeout port) s = .next (settle (loseLink port s)) := by
  subst hu
  have hwaits : ¬ (stitchAt s port).retry.isEmpty = true := by simpa using hsome
  exact congrArg done ((if_pos hup).trans ((if_neg hwaits).trans (if_pos hmany)))

end

theorem stitchSignalLoss_loses (hup : stitchUp s port = true) (hmode : s.mode ≠ .dormant) :
    exec (.stitchSignalLoss port) s = .next (settle (loseLink port s)) :=
  congrArg done (if_pos (by simp [hup, hmode]))

/-! ## Rests (R402, R403) -/

theorem wake_dormant (hmode : s.mode = .dormant) (hstitch : (portAt s port).cfg.mode = 2) :
    exec (.wake port) s = .next (settle (latchWake 4 (endRest port s))) :=
  congrArg done ((if_pos hmode).trans (if_pos hstitch))

section
variable {u : StitchSt} (hu : stitchAt s port = u)
include hu

theorem restIdle_asks (hup : stitchUp s port = true) (hservice : inService s = true) (hticks : s.aq.cfg.restTicks ≠ 0) (hawake : u.resting = false)
    (hpend : u.restPend = false) (hidle : u.waiting = []) :
    let v := advanceTo (u.lastTraffic + s.aq.cfg.restIdleUs * 1000 * 65536) s
    exec (.restIdle port) s = .next (settle (sendCtrl port 0x20 (toLe 2 (restWant v port) ++ toLe 4 (seepCount v))
      (updStitch port (fun u => { u with restPend := true }) v))) := by
  subst hu
  exact congrArg done (if_neg (by simp [hup, hservice, hticks, hawake, hpend, hidle]))

theorem wakePatternTimeout_retrains {t : Nat} (hlisten : u.listenAt = some t) : exec (.wakePatternTimeout port) s =
    .next (settle (emit (.stitchSignal port 1 0) (driftWake port 2 (advanceTo (t + 4 * s.aq.cfg.guardUs * 1000 * 65536) s)))) := by
  show execWakePatternTimeout port s = _
  simp only [execWakePatternTimeout, hu, hlisten, done]

variable (hmode : s.mode ≠ .dormant) (hup : stitchUp s port = true) (hrests : u.resting = true)
include hmode hup hrests

theorem wake_ends : exec (.wake port) s = .next (settle (endRest port s)) :=
  congrArg done ((if_neg hmode).trans (if_pos (by simp [hup, hu, hrests])))

theorem restScheduledWake_listens (hlisten : u.listenAt = none) :
    let v := advanceTo (u.lastTraffic + seepTicks u.restPeriod - s.aq.cfg.guardUs * 1000 * 65536) s
    exec (.restScheduledWake port) s =
      .next (settle (emit (.stitchSignal port 0 0) (updStitch port (fun u => { u with listenAt := some v.time.t }) v))) := by
  subst hu
  exact congrArg done (if_neg (by simp [hup, hrests, hlisten, hmode]))

/-- An end that did not begin to listen only wakes. -/
theorem wakePatternHeard_wakes (hlisten : u.listenAt = none) :
    exec (.wakePatternHeard port) s = .next (settle (emit (.stitchSignal port 0 0) (endRest port s))) := by
  have hgo : ¬ (!stitchUp s port || !u.resting || s.mode == .dormant) = true := by simp [hup, hrests, hmode]
  show execWakePatternHeard port s = _
  simp only [execWakePatternHeard, hu, if_neg hgo, hlisten, done]

/-- The end that listens judges how late the pattern is. -/
theorem wakePatternHeard_judges {t : Nat} (hlisten : u.listenAt = some t) : let guard := s.aq.cfg.guardUs * 1000 * 65536
    exec (.wakePatternHeard port) s = .next (settle (if s.time.t - t ≤ guard then cleanWake port s
      else if s.time.t - t ≤ 4 * guard then driftWake port 1 s else emit (.stitchSignal port 1 0) (driftWake port 2 s))) := by
  have hgo : ¬ (!stitchUp s port || !u.resting || s.mode == .dormant) = true := by simp [hup, hrests, hmode]
  show execWakePatternHeard port s = _
  simp only [execWakePatternHeard, hu, if_neg hgo, hlisten, done]

end

/-! ## The aquifer's deadlines (R396 to R401) -/

theorem skewMeasure_measures (hservice : inService s = true) (hgroup : s.aq.group.isSome = true) (hgateway : s.aq.gateway = s.aq.index) :
    let v := (otherMembers s 0).foldl (fun t k => judgeSkew k t) s
    exec .skewMeasure s = .next (settle (((otherMembers v 0).filterMap (routeTo v)).eraseDups.foldl
      (fun t p => sendCtrl p 0x30 (toLe 8 (nowNs t)) t) v)) := by
  have hjoined : s.aq.group.isNone = false := by simpa using hgroup
  exact congrArg done (if_neg (by simp [hservice, hjoined, hgateway]))

theorem confirmDeadline_aborts {x : Change} (hchange : s.aq.change = some x) (hwaits : x.waiting ≠ []) :
    exec .confirmDeadline s = .next (settle (abortChange (advanceNs x.deadline s))) := by
  have hsome : ¬ x.waiting.isEmpty = true := by simpa using hwaits
  show execConfirmDeadline s = _
  simp only [execConfirmDeadline, hchange, if_neg hsome, done]

section
variable {m : Nat} (hgroup : s.aq.group.isSome = true)
include hgroup

theorem memberRouteTimeout_leaves (hself : m = s.aq.index) (hmember : s.aq.gateway ≠ s.aq.index) (hroute : routeTo s s.aq.gateway = none) :
    exec (.memberRouteTimeout m) s = .next (settle (raise 1089 m (standAlone s))) := by
  have hjoined : ¬ s.aq.group.isNone = true := by simp [Option.isSome_iff_ne_none.mp hgroup]
  have hcut : ¬ (s.aq.gateway = s.aq.index ∨ (routeTo s s.aq.gateway).isSome = true) := by simp [hmember, hroute]
  exact congrArg done ((if_neg hjoined).trans ((if_pos hself).trans (if_neg hcut)))

theorem memberRouteTimeout_drops (hother : m ≠ s.aq.index) (hpresent : (memberAt s m).present = true) (hroute : routeTo s m = none) :
    exec (.memberRouteTimeout m) s = .next (settle (memberGone m s)) := by
  have hjoined : ¬ s.aq.group.isNone = true := by simp [Option.isSome_iff_ne_none.mp hgroup]
  have hcut : ((memberAt s m).present && (routeTo s m).isNone) = true := by simp [hpresent, hroute]
  exact congrArg done ((if_neg hjoined).trans ((if_neg hother).trans (if_pos hcut)))

end

/-- Settles O58: the frames at once, each timer by the state of its link, each deadline by the state of the aquifer. -/
theorem stitchRows : Obligations.StitchRows := by
  refine ⟨fun k hk port f s hup htalks => ?_, fun port s => ?_, fun s => ?_⟩
  · rw [frameRow_receives hk]
    refine ⟨fun hbad => ?_, fun hgood hawake hack hlink => ⟨fun hnull => ?_, fun hother hseq => ?_⟩⟩
    · rw [stitchReceive_bad hup htalks hbad]
    · rw [stitchReceive_null hup htalks hgood hawake hack hnull]
    · rw [stitchReceive_next hup htalks hgood hawake hack hlink hother hseq]
      rfl
  · refine ⟨fun hup hsome => ⟨stitchRetryTimeout_replays rfl hup hsome, stitchRetryTimeout_loses rfl hup hsome⟩, stitchSignalLoss_loses,
      restIdle_asks rfl, wake_dormant, fun hmode hup hrests => ⟨wake_ends rfl hmode hup hrests, fun hlisten => ?_, fun t hlisten => ?_⟩,
      fun t => wakePatternTimeout_retrains rfl⟩
    · exact ⟨restScheduledWake_listens rfl hmode hup hrests hlisten, wakePatternHeard_wakes rfl hmode hup hrests hlisten⟩
    · have hjudge := wakePatternHeard_judges rfl hmode hup hrests hlisten
      refine ⟨fun hclean => ?_, fun hlate hsome => ?_, fun hlate => ?_⟩
      · rw [hjudge, if_pos hclean]
      · rw [hjudge, if_neg (Nat.not_le.mpr hlate), if_pos hsome]
      · rw [hjudge, if_neg (by omega), if_neg (Nat.not_le.mpr hlate)]
  · exact ⟨skewMeasure_measures, fun x => confirmDeadline_aborts, fun m hgroup => ⟨memberRouteTimeout_leaves hgroup, memberRouteTimeout_drops hgroup⟩⟩

end Sys2Proof.Machine
end

section
/-! SUPPORT. Gates and wakes, points and samples, memory protection and fatal errors (R408 to R433), with the obligation on them. -/

namespace Sys2Proof.Machine

open Sys2Proof

variable {s : State}

/-! ## Gates and wakes (R408, R409) -/

section
variable (hruns : pumpRuns s = true)
include hruns

theorem engineClockGate_gates {e : Nat} (hwell : e / 8 < wellCount s) (hopen : s.power.engGated.getLsbD e = false)
    (hrests : isWaking s wkEngine e = false) (hspare : packetsAt s (e / 8) < (enginesAwake s (e / 8)).length) :
    exec (.engineClockGate e) s = .next (settle { s with power := { s.power with engGated := s.power.engGated ||| (1#96 <<< e) } }) :=
  congrArg done (if_neg (by simp [hruns, hwell, hopen, hrests, hspare]))

theorem wellClockGate_gates {w : Nat} (hwell : w < wellCount s) (hawake : wellAwake s w = true) (hrests : isWaking s wkWell w = false)
    (hengines : enginesAwake s w = []) (hidle : packetsAt s w = 0) (hplan : bit (planWells s) w = false) :
    exec (.wellClockGate w) s = .next (settle { s with power := { s.power with wellCg := s.power.wellCg ||| (1#12 <<< w) } }) :=
  congrArg done (if_neg (by simp [hruns, hwell, hawake, hrests, hengines, hidle, hplan]))

theorem wellPowerGate_gates {w : Nat} (hgated : s.power.wellCg.getLsbD w = true) (hrests : isWaking s wkWell w = false)
    (hfloor : (wellFloor s).getLsbD w = false) (hplan : bit (planWells s) w = false) : exec (.wellPowerGate w) s = .next (settle {
      s with power := { s.power with wellCg := s.power.wellCg &&& ~~~(1#12 <<< w), wellPg := s.power.wellPg ||| (1#12 <<< w) } }) :=
  congrArg done (if_neg (by simp [hruns, hgated, hrests, hfloor, hplan]))

theorem cipherUnitGate_stream {n : Nat} (hthere : hasCipher s = true) (hawake : cipherAwake s true n = true) (hrests : isWaking s wkStream n = false)
    (hidle : unitMsgs s true n = []) :
    exec (.cipherUnitGate true n) s = .next (settle { s with cipher := { s.cipher with strAwake := s.cipher.strAwake &&& ~~~(1#4 <<< n) } }) :=
  congrArg done ((if_neg (by simp [hruns, hthere, hawake, hrests, hidle])).trans (if_pos rfl))

/-- An AES pipeline is gated only above the floor and the plan. -/
theorem cipherUnitGate_aes {n : Nat} (hthere : hasCipher s = true) (hawake : cipherAwake s false n = true) (hrests : isWaking s wkAes n = false)
    (hidle : unitMsgs s false n = []) (hmore : max (aesFloor s) (planAes s) < popcount s.cipher.aesAwake.toNat 12) :
    exec (.cipherUnitGate false n) s = .next (settle { s with cipher := { s.cipher with aesAwake := s.cipher.aesAwake &&& ~~~(1#12 <<< n) } }) :=
  congrArg done ((if_neg (by simp [hruns, hthere, hawake, hrests, hidle])).trans
    ((if_neg Bool.false_ne_true).trans (if_neg (Nat.not_le.mpr hmore))))

theorem mgmtCoreGate_gates {k : Nat} (hfirst : 1 ≤ k) (hlast : k ≤ 3) (hidle : commandWork s = false) :
    exec (.mgmtCoreGate k) s = .next (settle { s with power := { s.power with mgmtCg := s.power.mgmtCg ||| (1#4 <<< k) } }) :=
  congrArg done (if_neg (by simp [hruns, hlast, hidle]; omega))

theorem clayChannelPowerDown_powersDown {ch : Nat} (hlast : ch < 16) :
    exec (.clayChannelPowerDown ch) s = .next (settle { s with power := { s.power with clayPd := s.power.clayPd ||| (1#16 <<< ch) } }) :=
  congrArg done (if_neg (by simp [hruns, hlast]))

theorem combinerGroupGate_gates {g : Nat} (hthere : hasCombiner s = true) (hawake : s.comb.awake.getLsbD g = true) (hidle : s.comb.syms = [])
    (hlast : g < 16) (hmore : max s.power.policy.combFloor (groupsDue s) < groupsAwake s) :
    exec (.combinerGroupGate g) s = .next (settle { s with comb := { s.comb with awake := s.comb.awake &&& ~~~(1#16 <<< g) } }) := by
  have hdry : (s.mode == .dry) = false := by
    simp only [pumpRuns, Bool.and_eq_true, bne_iff_ne] at hruns
    exact beq_eq_false_iff_ne.mpr hruns.1
  exact congrArg done ((if_neg (by simp [hthere, hdry, hawake, hidle, hlast])).trans (if_neg (Nat.not_le.mpr hmore)))

theorem unitWakeComplete_opens {k i : Nat} (hwaking : isWaking s k i = true) :
    exec (.unitWakeComplete k i) s = .next (settle (openGate k i (sampleWake k i s))) :=
  congrArg done (if_pos (by simp [hruns, hwaking]))

theorem pointChangeDone_falls {d : Nat} (haim : Store.get 0 d s.power.pointTo ≠ 0) :
    let v := {
      s with power := { s.power with points := Store.set 15 d (Store.get 0 d s.power.pointTo - 1) s.power.points, pointTo := Store.set 0 d 0 s.power.pointTo } }
    exec (.pointChangeDone d) s = .next (settle (askMv (neededMv v) v)) :=
  congrArg done (if_neg (by simp [hruns, haim]))

theorem accountingInterval_begins (util : List Nat) :
    let a := autoCal (advanceNs ((nowNs s / 500000 + 1) * 500000) s)
    let v := nextTables { a with power := { a.power with lastUj := a.power.accUj / 1000, accUj := 0 } }
    let w := { v with power := { v.power with intervals := v.power.intervals + 1, overrun := false, r := plannedFj v (nowNs v), n := 0 } }
    exec (.accountingInterval util) s = .next (settle (retryHeld (wmCheck (applyFloors
      ((List.range 14).foldl boundPoint ((List.range 14).foldl (adaptPoint util) w)))))) :=
  congrArg done (if_neg (by simp [hruns]))

/-- The wake plan of a carrier runs LEAD_US before its next slot with such a symbol. -/
theorem plannedWake_wakes {c : Nat} {uplink : Bool} {i : Nat} {k : Carrier} (hk : carrierAt s c = k) (hon : k.enable = true) (hdirs : k.dirs ≠ [])
    (hfirst : ((List.range (k.dirs.length + 20)).find? fun (i : Nat) => slotHolds k (slotAtTime k (s.time.t : Int) + (i : Int)) uplink) = some i) :
    let v := advanceTo (slotStart k (slotAtTime k (s.time.t : Int) + (i : Int)) - leadTime s).toNat s
    let p := Store.get ({} : Plan) c v.power.plans
    let w := wakeAes (if uplink then p.ulAes else p.dlAes) true (wakeWells (if uplink then p.ulWells else p.dlWells).toNat true v)
    exec (.plannedWake c uplink) s = .next (settle (if hasCombiner w then wakeGroups (groupsDue w) w else w)) := by
  have hgo : ¬ (!pumpRuns s || !k.enable || k.dirs.isEmpty) = true := by simp [hruns, hon, hdirs]
  show execPlannedWake c uplink s = _
  simp only [execPlannedWake, hk, if_neg hgo, hfirst, done]

end

/-! ## Samples (R413, R414, R421) -/

theorem limitStep_rests (now : Nat) (below : Bool) (since : Option Nat) : limitStep now false false below since = (false, none, false) := rfl

theorem limitStep_begins (now : Nat) (below : Bool) (since : Option Nat) : limitStep now false true below since = (true, none, true) := rfl

section
variable (hdry : s.mode ≠ .dry)
include hdry

section
variable {l : List Int} {v : State} (hv : { s with power := { s.power with sensors := l.take 24 } } = v) (hclamp : s.power.clamp = false)
  (hshed : s.power.shed = false)
include hv hclamp hshed

theorem sensorSample_cool (hcool : hottest v < 100 * 16) : exec (.sensorSample l) s = .next (settle ((List.range 14).foldl boundPoint {
    v with power := { v.power with clamp := false, clampBelow := none, shed := false, shedBelow := none } })) := by
  have hwarm : decide (105 * 16 ≤ hottest v) = false := decide_eq_false (by omega)
  have hhot : decide (115 * 16 ≤ hottest v) = false := decide_eq_false (by omega)
  subst hv
  show execSensorSample l s = _
  simp only [execSensorSample, if_neg hdry, hwarm, hhot, done]
  simp only [hclamp, hshed, limitStep_rests, Bool.false_and, Bool.false_eq_true, if_false]

/-- At 105 degrees the clamp begins. -/
theorem sensorSample_clamps (hwarm : 105 * 16 ≤ hottest v) (hbelow : hottest v < 110 * 16) :
    exec (.sensorSample l) s = .next (settle ((List.range 14).foldl boundPoint (raise 1152 0 {
      v with power := { v.power with clamp := true, clampBelow := none, shed := false, shedBelow := none } }))) := by
  have habove : decide (105 * 16 ≤ hottest v) = true := decide_eq_true hwarm
  have hhot : decide (115 * 16 ≤ hottest v) = false := decide_eq_false (by omega)
  subst hv
  show execSensorSample l s = _
  simp only [execSensorSample, if_neg hdry, habove, hhot, done]
  simp only [hclamp, hshed, limitStep_rests, limitStep_begins, Bool.false_and, Bool.false_eq_true, if_false, if_true]

end

section
variable {l pkgs : List Nat} (hpkgs : ((l.take 8).sum :: s.power.pkgs).take 4 = pkgs) (hcap : s.power.cap = false)
include hpkgs hcap

theorem powerSample_within (hwithin : pkgs.sum ≤ s.power.policy.capMw * pkgs.length) : exec (.powerSample l) s = .next (settle {
    s with power := { s.power with rails := l.take 8, pkgs := pkgs, accUj := s.power.accUj + (l.take 8).sum * 100, cap := false, capBelow := none } }) := by
  have habove : decide (s.power.policy.capMw * pkgs.length < pkgs.sum) = false := decide_eq_false (Nat.not_lt.mpr hwithin)
  show execPowerSample l s = _
  simp only [execPowerSample, if_neg hdry, hpkgs, hcap, habove, limitStep_rests, Bool.false_and, Bool.false_eq_true, if_false, done]

/-- Above CAP_MW the power cap begins. -/
theorem powerSample_caps (hover : s.power.policy.capMw * pkgs.length < pkgs.sum) : exec (.powerSample l) s = .next (settle (capStep (raise 1155 0 {
    s with power := { s.power with rails := l.take 8, pkgs := pkgs, accUj := s.power.accUj + (l.take 8).sum * 100, cap := true, capBelow := none } }))) := by
  have habove : decide (s.power.policy.capMw * pkgs.length < pkgs.sum) = true := decide_eq_true hover
  show execPowerSample l s = _
  simp only [execPowerSample, if_neg hdry, hpkgs, hcap, habove, limitStep_begins, Bool.false_and, Bool.false_eq_true, if_false, if_true, done]

end

/-! ## Memory protection and fatal errors (R421, R426, R427, R433) -/

theorem thermalTrip_fatal {n : Nat} (hlast : n ≤ 23) : exec (.thermalTrip n) s = .next (settle (fatal 4 0 0 (raise 1154 0 s))) :=
  congrArg done (if_neg (not_or.mpr ⟨hdry, Nat.not_lt.mpr hlast⟩))

theorem supplyFault_fatal {r : Nat} (hlast : r ≤ 7) : exec (.supplyFault r) s = .next (settle (fatal 5 0 0 s)) :=
  congrArg done ((if_neg (Nat.not_lt.mpr hlast)).trans (if_neg hdry))

section
variable {m a : Nat} (hthere : memPresent s m = true)
include hthere

/-- A word that holds the poison marker stays poisoned. -/
theorem patrolScrub_poisoned (hpoison : (Store.get [] m s.fault.poison).contains a = true) (n : Nat) :
    exec (.patrolScrub m a n) s = .next (settle (wordLost m a s)) :=
  congrArg done ((if_neg (by simp [hdry, hthere])).trans (if_pos hpoison))

/-- Any other is judged by its syndrome. -/
theorem patrolScrub_clean (hclean : (Store.get [] m s.fault.poison).contains a = false) (n : Nat) : exec (.patrolScrub m a n) s = .next (settle (
    if n = 0 then s else if n = 1 then raise 320 m (count (cMem m 0) s) else if n = 2 then raise 321 m (count (cMem m 1) s) else wordLost m a s)) :=
  congrArg done ((if_neg (by simp [hdry, hthere])).trans (if_neg (ne_true_of_eq_false hclean)))

theorem patrolScrub_uncorrectable (hclean : (Store.get [] m s.fault.poison).contains a = false) {n : Nat} (hn : 3 ≤ n) :
    exec (.patrolScrub m a n) s = .next (settle (wordLost m a s)) := by
  rw [patrolScrub_clean hdry hthere hclean, if_neg (by omega), if_neg (by omega), if_neg (by omega)]

end

end

/-- In DRY a supply that leaves its band stops the boot. -/
theorem supplyFault_dry (hdry : s.mode = .dry) {r : Nat} (hlast : r ≤ 7) :
    exec (.supplyFault r) s = .next (settle { s with boot := { s.boot with supplyStopped := true } }) :=
  congrArg done ((if_neg (Nat.not_lt.mpr hlast)).trans (if_pos hdry))

/-- Settles O60, row by row; PATROL_SCRUB by the syndrome of the word. -/
theorem gateSampleAndFaultRows : Obligations.GateSampleAndFaultRows := by
  intro s
  refine ⟨fun hruns => ⟨fun e => engineClockGate_gates hruns, fun w => wellClockGate_gates hruns, fun w => wellPowerGate_gates hruns,
      fun n => cipherUnitGate_stream hruns, fun n => cipherUnitGate_aes hruns, fun k => mgmtCoreGate_gates hruns,
      fun ch => clayChannelPowerDown_powersDown hruns, fun g => combinerGroupGate_gates hruns, fun k i => unitWakeComplete_opens hruns,
      fun d => pointChangeDone_falls hruns, accountingInterval_begins hruns, fun c uplink i => plannedWake_wakes hruns rfl⟩,
    fun hdry => ⟨fun l hcool hclamp hshed => sensorSample_cool hdry rfl hclamp hshed hcool,
      fun l hwarm hbelow hclamp hshed => sensorSample_clamps hdry rfl hclamp hshed hwarm hbelow,
      fun l hwithin hcap => powerSample_within hdry rfl hcap hwithin, fun l hover hcap => powerSample_caps hdry rfl hcap hover,
      fun n => thermalTrip_fatal hdry, fun m a hthere => ⟨fun hclean => ?_, patrolScrub_poisoned hdry hthere⟩, fun r => supplyFault_fatal hdry⟩,
    fun hdry r => supplyFault_dry hdry, fun a => rfl, rfl⟩
  have hscrub := patrolScrub_clean hdry hthere hclean
  exact ⟨hscrub 0, hscrub 1, hscrub 2, fun n => patrolScrub_uncorrectable hdry hthere hclean⟩

end Sys2Proof.Machine
end

section
/-! SUPPORT. POWER_PLAN_SET (R420, R425) with a byte set that R425 leaves unnamed, with the obligation it refutes. -/

namespace Sys2Proof.Machine

open Sys2Proof

/-- POWER_PLAN_SET reads DL_AES from the bytes 2 and 3 of its payload. -/
theorem powerPlanSet_refuses {t : Target} {c : Cmd} {s : State} (h : Ready infoPowerPlanSet t c s) (hmany : 12 < arg c 2 2) :
    exec (.powerPlanSet c) s = answered infoPowerPlanSet c s (err stBadLength 0) (taken infoPowerPlanSet c s) :=
  ready_answers h (if_pos (.inr (.inr hmany)))

/-- Two answers that go back whole and leave the same state were given in states of the same power. -/
theorem power_of_answered_eq {op : OpInfo} {c : Cmd} {s u v : State} {a b : Answer} (hu : Quiet u) (hv : Quiet v)
    (hback : ∀ a, tooMuchBack c.chan a = false) (h : answered op c s a u = answered op c s b v) : u.power = v.power := by
  have hnext : answered op c s a u = .next (settle (reply (refAt op c s) a u)) := if_neg (ne_true_of_eq_false (hback a))
  exact (sameUnits_answered hu (hback a) hnext).power.symm.trans (sameUnits_answered hv (hback b) (h ▸ hnext)).power

/-- Writing a plan that was not there changes power. -/
theorem power_ne_planned {p : PowerSt} {k : Nat} {x : Plan} (hnew : Store.get none k p.plansNext = none) :
    p ≠ { p with plansNext := Store.set none k (some x) p.plansNext } := by
  intro h
  have hplan := congrArg (fun p : PowerSt => Store.get none k p.plansNext) h
  simp [hnew] at hplan

/-- A POWER_PLAN_SET of carrier 0 on the sideband transport that names no unit, with byte 3 of its payload set; its CRC is still to come. -/
def strayPlanBody : Cmd := { chan := .sideband, seq := 1, payloadLen := 8, payload := [0, 0, 0, 1, 0, 0, 0, 0] }

/-- The same packet with its CRC. -/
def strayPlan : Cmd := { strayPlanBody with crc := BitVec.ofNat 32 (cmdCrc infoPowerPlanSet.code strayPlanBody) }

/-- It passes every check on the device after reset. -/
theorem strayPlan_ready : Ready infoPowerPlanSet .device strayPlan State.reset where
  arrives := {
    own := fun _ h => by cases h
    reads := by decide +kernel
    idle := by decide +kernel
    crc := by decide +kernel
    fresh := by decide +kernel
    room := by decide +kernel }
  reaches := by
    unfold Reaches
    decide +kernel
  target := by decide +kernel
  unit := ⟨by decide, fun _ _ h => by cases h⟩
  alone := by decide
  passes := by decide +kernel

/-- Refutes O59: the fields of POWER_PLAN_SET are in range in `strayPlan`, whose DL_AES, byte 2, is 0. The model takes byte 3 for a part of DL_AES,
answers BAD_LENGTH and writes no plan, where the statement has the plan written. -/
theorem not_aquiferPowerAndCounterCommands : ¬ Obligations.AquiferPowerAndCounterCommands := by
  intro hall
  obtain ⟨-, -, -, -, -, -, -, hplan, -⟩ := hall .device strayPlan State.reset
  have hwrites := hplan strayPlan_ready (by decide) (by decide) (by decide)
  have hrefuses := powerPlanSet_refuses strayPlan_ready (by decide)
  have hquiet : Quiet (taken infoPowerPlanSet strayPlan State.reset) := quiet_of_answers (answers_taken ..) ⟨rfl, rfl, rfl⟩
  have hback : ∀ a, tooMuchBack strayPlan.chan a = false := fun _ => rfl
  have hpower := power_of_answered_eq hquiet (by exact ⟨hquiet.1, hquiet.2.1, hquiet.2.2⟩) hback (hrefuses.symm.trans hwrites)
  refine power_ne_planned ?_ hpower
  rw [(answers_taken infoPowerPlanSet strayPlan State.reset).units.power]
  rfl

end Sys2Proof.Machine
end

section
/-! SUPPORT. How a packet comes back from a well's engine, from LEARN and from the cipher (R209 to R214, R228, R291 to R294), with the obligation on
it. -/

namespace Sys2Proof.Machine

open Sys2Proof

variable {n w : Nat} {p : Packet} {s u : State}

/-! ## Engines (R209, R213, R214) -/

/-- A packet that leaves its engine was held there. -/
theorem enginePkt_of_takeEngine (htake : takeEngine n s = some (p, w, u)) : ∃ q, enginePkt s n = some q := by
  cases hheld : enginePkt s n with
  | none => simp [takeEngine, hheld] at htake
  | some q => exact ⟨q, rfl⟩

/-- The packet that ENGINE_RETURN takes, when no earlier one of its program and hash is still out. -/
theorem returned_of_takeEngine (horder : ((enginePkt s n).any fun p => earlierOut s p) = false) (htake : takeEngine n s = some (p, w, u)) :
    ((enginePkt s n).bind fun p => if earlierOut s p then none else takeEngine n s) = some (p, w, u) := by
  obtain ⟨q, hheld⟩ := enginePkt_of_takeEngine htake
  rw [hheld] at horder ⊢
  exact (if_neg (ne_true_of_eq_false horder)).trans htake

/-- What a program that kept to its bounds leaves: its table changes, its flow counts, and the copies it made. -/
def engineEffect (r : EngineResult) (p : Packet) (w : Nat) (u : State) : List Packet × Packet × State :=
  r.copies.foldl (fun a c => engineCopy w c a)
    ([], p, r.flows.foldl (fun t f => countFlow f.1 f.2.1 f.2.2 t) (r.ems.foldl (fun t e => engineEm e t) u))

/-- A packet as its program returned it. -/
def engineBack (r : EngineResult) (q : Packet) : Packet :=
  { q with bytes := r.data, slots := slotsHead r.head q.slots, colour := r.colour, queue := r.queue }

section
variable (horder : ((enginePkt s n).any fun p => earlierOut s p) = false) (htake : takeEngine n s = some (p, w, u)) (hlive : p.live = true)
  (hclean : pktPoisoned u p = false) {r : EngineResult}
include horder htake hlive hclean

theorem engineReturn_undeclared (hdeclared : engineDeclared (engineUse s n).1 r = false) :
    exec (.engineReturn n r) s = .next (settle (raise 512 0 (dropPkt p (count (cDev 24) u)))) := by
  have hreturned := returned_of_takeEngine horder htake
  show execEngineReturn n r s = _
  simp only [execEngineReturn, hreturned, hlive, hclean, hdeclared, Bool.not_true, Bool.not_false, Bool.false_eq_true, if_false, if_true, done]

variable (hdeclared : engineDeclared (engineUse s n).1 r = true)
include hdeclared

theorem engineReturn_outOfBounds (hok : engineOk p r = false) :
    exec (.engineReturn n r) s = .next (settle (raise 512 0 (dropPkt p (count (cDev 25) u)))) := by
  have hreturned := returned_of_takeEngine horder htake
  show execEngineReturn n r s = _
  simp only [execEngineReturn, hreturned, hlive, hclean, hdeclared, hok, Bool.not_true, Bool.not_false, Bool.false_eq_true, if_false, if_true, done]

variable (hok : engineOk p r = true)
include hok

theorem engineReturn_drops (hdrop : r.drop = true) : let x := engineEffect r p w u
    exec (.engineReturn n r) s = .next (settle (placeCopies x.1 (dropPkt x.2.1 x.2.2))) := by
  have hreturned := returned_of_takeEngine horder htake
  show execEngineReturn n r s = _
  simp only [execEngineReturn, hreturned, hlive, hclean, hdeclared, hok, hdrop, Bool.not_true, Bool.false_eq_true, if_false, if_true, done,
    engineEffect]

/-- A packet whose bytes are as they were goes on in its buffer. -/
theorem engineReturn_keeps (hdrop : r.drop = false) (hdata : r.data = (engineEffect r p w u).2.1.bytes) : let x := engineEffect r p w u
    exec (.engineReturn n r) s = .next (settle (runWords 17 x.1 (engineBack r x.2.1) x.2.2)) := by
  have hreturned := returned_of_takeEngine horder htake
  show execEngineReturn n r s = _
  simp only [engineEffect] at hdata
  simp only [execEngineReturn, hreturned, hlive, hclean, hdeclared, hok, hdrop, Bool.not_true, Bool.false_eq_true, if_false, if_pos hdata, done,
    engineEffect, engineBack]

/-- Any other goes on in a buffer of its own. -/
theorem engineReturn_changes (hdrop : r.drop = false) (hdata : r.data ≠ (engineEffect r p w u).2.1.bytes) {q : Packet} {y : State}
    (hbuf : ensureBuffer (engineEffect r p w u).2.1 r.data.length (engineEffect r p w u).2.2 = .ok (q, y)) :
    exec (.engineReturn n r) s = .next (settle (runWords 17 (engineEffect r p w u).1 (engineBack r q) y)) := by
  have hreturned := returned_of_takeEngine horder htake
  show execEngineReturn n r s = _
  simp only [engineEffect] at hdata hbuf
  simp only [execEngineReturn, hreturned, hlive, hclean, hdeclared, hok, hdrop, Bool.not_true, Bool.false_eq_true, if_false, if_neg hdata, hbuf, done,
    engineEffect, engineBack]

end

theorem engineFail_drops (htake : takeEngine n s = some (p, w, u)) (i : Nat) : engineFail n i s = raise 512 0 (dropPkt p (count (cDev i) u)) := by
  simp only [engineFail, htake]

/-! ## LEARN (R228) -/

section
variable {v : State} {x t : Nat} {k : Bytes} {rule : Nat} {set : TreeSet} (hwaits : s.cis.learning.find? (fun p => p.num == n) = some p)
  (hv : { s with cis := { s.cis with learning := s.cis.learning.filter fun p => p.num != n } } = v) (hx : listWord v p p.next = x)
  (ht : bits x 48 6 = t) (hset : Store.get ({} : TreeSet) (bindOf (bankFor v p.epoch) p).treeSet (bankFor v p.epoch).treeSets = set)
  (hk : emKey (emAt v t) (selectKey (keyFields p set) (bits x 40 8) (emAt v t).keyLen) = k)
  (hrule : (bits x 24 16 + (if bit x 23 then p.port.getD 16 else 0)) % 65536 = rule) (hclean : (emDefined v t && emPoisoned v t k) = false)
include hwaits hv hx ht hset hk hrule hclean

theorem learnComplete_inserts (hlearnt : (learnKey t k rule v).1 = true) :
    exec (.learnComplete n) s = .next (settle (runActions { p with next := p.next + 1 } (learnKey t k rule v).2)) := by
  show execLearnComplete n s = _
  simp only [execLearnComplete, hwaits, hv, hx, ht, hset, hk, hrule, hclean, hlearnt, Bool.false_eq_true, if_false, if_true, done]

/-- A LEARN that fails acts as a FLOOD word. -/
theorem learnComplete_floods (hfull : (learnKey t k rule v).1 = false) :
    let y := floodPkt { p with next := p.next + 1 } (bits x 0 16) 0 0xFFFF (learnFail t (learnKey t k rule v).2)
    exec (.learnComplete n) s = .next (settle (runWords 17 y.1 y.2.1 y.2.2)) := by
  show execLearnComplete n s = _
  simp only [execLearnComplete, hwaits, hv, hx, ht, hset, hk, hrule, hclean, hfull, Bool.false_eq_true, if_false, done]

end

/-! ## The cipher units (R291 to R293) -/

section
variable {stream : Bool} {unit : Nat} {m : CipherMsg} (hawake : cipherAwake s stream unit = true)
  (hnext : candidate (unitMsgs s stream unit) = some m)
include hawake hnext

theorem cipherMessageStart_idle (hidle : (unitMsgs s stream unit).find? (fun m => m.state == 1) = none) :
    exec (.cipherMessageStart stream unit) s = .next (settle (updMsg m.pkt.num (fun m => { m with state := 1, startAt := s.time.t }) s)) := by
  show execCipherMessageStart stream unit s = _
  simp only [execCipherMessageStart, hawake, hnext, hidle, if_true, done]

variable {r : CipherMsg} (hruns : (unitMsgs s stream unit).find? (fun m => m.state == 1) = some r)
include hruns

/-- A message of higher urgency suspends the one that runs; any other starts when that one has fed its last block. -/
theorem cipherMessageStart_busy {v : State} (hv : advanceTo (feedEnd s r) s = v) :
    let preempts := decide (s.time.t < feedEnd s r) && decide (r.urgency < m.urgency) &&
      !(m.state == 0 && decide (8 ≤ ((unitMsgs s stream unit).filter fun m => m.state == 2).length))
    exec (.cipherMessageStart stream unit) s = .next (settle (if preempts then
        updMsg m.pkt.num (fun m => { m with state := 1, startAt := s.time.t }) (updMsg r.pkt.num (fun m => { m with state := 2, fed := fedBy s m }) s)
      else updMsg m.pkt.num (fun m => { m with state := 1, startAt := v.time.t })
        (updMsg r.pkt.num (fun m => { m with state := 3, fed := m.blocks, startAt := feedEnd v r }) v))) := by
  intro preempts
  have hchoice : (s.time.t < feedEnd s r ∧ r.urgency < m.urgency ∧
      (!(m.state == 0 && decide (8 ≤ ((unitMsgs s stream unit).filter fun m => m.state == 2).length))) = true) ↔ preempts = true := by
    simp only [preempts, Bool.and_eq_true, decide_eq_true_eq, and_assoc]
  show execCipherMessageStart stream unit s = _
  simp only [execCipherMessageStart, hawake, hnext, hruns, hv, if_true, done]
  refine congrArg (fun x => Host.Outcome.next (settle x)) ?_
  by_cases hpreempts : preempts = true
  · rw [if_pos (hchoice.mpr hpreempts), if_pos hpreempts]
    rfl
  · rw [if_neg (mt hchoice.mp hpreempts), if_neg hpreempts]
    rfl

end

theorem cipherResult_returns {m : CipherMsg} (hfed : s.cipher.msgs.find? (fun m => m.pkt.num == n && (m.state == 1 || m.state == 3)) = some m) :
    let x := cipherFinish m (advanceTo (feedEnd s m + (if m.stream then 0 else cycleTime s 0 30)) s)
    exec (.cipherResult n) s = .next (settle (match x.1 with
      | some q => runActions q x.2
      | none => x.2)) := by
  show execCipherResult n s = _
  simp only [execCipherResult, hfed, done]
  split <;> rename_i hend <;> rw [hend]

/-- Settles O45, row by row; ENGINE_RETURN by what the program declares and keeps to, CIPHER_MESSAGE_START by whether a message runs. -/
theorem engineRows : Obligations.EngineRows := by
  intro n p w s u
  refine ⟨fun horder htake hlive hclean => ⟨fun r => engineReturn_undeclared horder htake hlive hclean, fun r hdeclared hok => ⟨?_, ?_, fun q y hdrop hdata => ?_⟩,
      fun r => engineReturn_outOfBounds horder htake hlive hclean⟩,
    fun htake => ⟨?_, ?_, ?_⟩, fun hwaits hclean => ⟨learnComplete_inserts hwaits rfl rfl rfl rfl rfl rfl hclean,
      learnComplete_floods hwaits rfl rfl rfl rfl rfl rfl hclean⟩,
    fun stream unit m => cipherMessageStart_idle, fun stream unit m r hawake hnext hruns => ⟨fun hpreempts => ?_, fun hwaits => ?_⟩,
    fun m => cipherResult_returns⟩
  · exact engineReturn_drops horder htake hlive hclean hdeclared hok
  · exact engineReturn_keeps horder htake hlive hclean hdeclared hok
  · exact engineReturn_changes horder htake hlive hclean hdeclared hok hdrop hdata
  · exact congrArg done (engineFail_drops htake 23)
  · exact congrArg done (engineFail_drops htake 24)
  · exact congrArg done (engineFail_drops htake 25)
  · exact (cipherMessageStart_busy hawake hnext hruns rfl).trans (congrArg (fun v => Host.Outcome.next (settle v)) (if_pos hpreempts))
  · exact (cipherMessageStart_busy hawake hnext hruns rfl).trans
      (congrArg (fun v => Host.Outcome.next (settle v)) (if_neg (ne_true_of_eq_false hwaits)))

end Sys2Proof.Machine
end

section
/-! SUPPORT. Where an access to a register ends (R119 to R121, R138, R142, R145, R146, R460): the 32-bit accesses that reach a function's registers,
and the rows that have a row of their own, with the obligation on them. -/

namespace Sys2Proof.Machine

open Sys2Proof

variable {s : State} {fn off bar value : Nat} {rid : Option Nat} {bad : Bool} {v : Word}

/-! ## A 32-bit access has one part (R120) -/

theorem parts_word (h : off % 4 = 0) : parts ⟨bar, off, 4, bad, rid⟩ = [off] := if_pos ⟨rfl, h⟩

theorem parts_misfit {size : Nat} (h4 : ¬(size = 4 ∧ off % 4 = 0)) (h8 : ¬(size = 8 ∧ off % 8 = 0)) : parts ⟨bar, off, size, bad, rid⟩ = [] :=
  (if_neg h4).trans (if_neg h8)

theorem writeRegs_word (k : Nat → Word → State → State) (h : off % 4 = 0) :
    writeRegs k ⟨bar, off, 4, bad, rid⟩ value s = k off (BitVec.ofNat 32 value) s := by
  simp only [writeRegs, parts_word h, List.isEmpty_cons, Bool.false_eq_true, if_false, writeParts]

theorem readRegs_word (k : Nat → State → Nat × State) (h : off % 4 = 0) : readRegs k ⟨bar, off, 4, bad, rid⟩ s = k off s := by
  simp only [readRegs, parts_word h, List.isEmpty_cons, Bool.false_eq_true, if_false, readParts, Nat.mul_zero, Nat.add_zero]

/-! ## Accesses that reach no register -/

theorem hostRegWrite_undecoded (hdecodes : decodes s fn = false) (a : RegAccess) : hostRegWrite fn a value s = s := by
  simp only [hostRegWrite, hdecodes, Bool.not_false, if_true]

theorem registerRead_undecoded (hdecodes : decodes s fn = false) (a : RegAccess) : exec (.registerRead fn a) s = .next (settle s) := by
  show execRegisterRead fn a s = _
  simp only [execRegisterRead, hdecodes, Bool.not_false, if_true, done]

theorem registerRead_config (hdecodes : decodes s fn = true) {a : RegAccess} (hbar : a.bar = 255) :
    exec (.registerRead fn a) s = .next (settle (emit (.readData (cfgRead fn a s)) s)) := by
  show execRegisterRead fn a s = _
  simp only [execRegisterRead, hdecodes, hbar, Bool.not_true, Bool.false_eq_true, if_false, if_true, done]

section
variable (hdecodes : decodes s fn = true)
include hdecodes

theorem hostRegWrite_dry (hdry : s.mode = .dry) (hoff : off % 4 = 0) (hwindow : off < 0x02000000) (hctrl : off ≠ 0x1C) :
    hostRegWrite fn ⟨0, off, 4, false, rid⟩ value s = s := by
  have hlow : ¬ 0x02000000 ≤ off := by omega
  simp [hostRegWrite, hdecodes, hdry, writeDry, hlow, writeRegs_word _ hoff, hctrl]

theorem registerRead_dry (hdry : s.mode = .dry) (hvf : isVf fn = false) (hoff : off % 4 = 0) (hwindow : off < 0x02000000) :
    exec (.registerRead fn ⟨0, off, 4, false, rid⟩) s = .next (settle (emit (.readData (if off = 0x18 then bootStatus s else 0)) s)) := by
  have hlow : ¬ 0x02000000 ≤ off := by omega
  show execRegisterRead fn _ s = _
  simp [execRegisterRead, hdecodes, hdry, hvf, onHostRead, windowRead, hlow, readRegs_word _ hoff, done]

theorem hostRegWrite_frozen (hdry : s.mode ≠ .dry) (hfrozen : frozen s fn = true) {a : RegAccess} (hbar : a.bar ≠ 255) :
    hostRegWrite fn a value s = count (cDev 6) s := by
  simp [hostRegWrite, hdecodes, hdry, hfrozen, hbar]

theorem registerRead_frozen (hdry : s.mode ≠ .dry) (hfrozen : frozen s fn = true) {a : RegAccess} (hbar : a.bar ≠ 255) (hrom : a.bar ≠ 6) :
    exec (.registerRead fn a) s = .next (settle (emit (.readData (2 ^ (8 * a.size) - 1)) s)) := by
  show execRegisterRead fn a s = _
  simp [execRegisterRead, hdecodes, hdry, hfrozen, hbar, hrom, done]

theorem hostRegWrite_dormant (hmode : s.mode = .dormant) (hfrozen : frozen s fn = false) (hoff : off % 4 = 0) (hwindow : off < 0x01000000)
    (hwake : off ≠ 0x400) : hostRegWrite fn ⟨0, off, 4, false, rid⟩ value s = count (cDev 8) s := by
  have hlow : ¬ 0x01000000 ≤ off := by omega
  simp [hostRegWrite, hdecodes, hmode, hfrozen, hlow, windowWrite, hwindow, parts_word hoff, writeRegs_word _ hoff, writeBar0, hwake]

theorem registerRead_dormant (hmode : s.mode = .dormant) (hfrozen : frozen s fn = false) (hoff : off % 4 = 0) (hwindow : off < 0x01000000)
    (hsilent : dormantReads fn off = false) :
    exec (.registerRead fn ⟨0, off, 4, false, rid⟩) s = .next (settle (emit (.readData 0) (count (cDev 8) s))) := by
  have hlow : ¬ 0x01000000 ≤ off := by omega
  show execRegisterRead fn _ s = _
  simp [execRegisterRead, hdecodes, hmode, hfrozen, hlow, onHostRead, windowRead, hwindow, parts_word hoff, readRegs_word _ hoff, readBar0,
    hsilent, done]

end

/-! ## Accesses to the registers of a function that is up -/

section
variable (hup : HostUp fn s) (hdecodes : decodes s fn = true)
include hup hdecodes

theorem hostRegWrite_poisoned {size : Nat} (hwindow : off < 0x01000000) :
    hostRegWrite fn ⟨0, off, size, true, rid⟩ value s = logAdvisory fn 12 (count (cDev 11) s) := by
  obtain ⟨hdry, -, hfrozen, -⟩ := hup
  have hlow : ¬ 0x01000000 ≤ off := by omega
  simp [hostRegWrite, hdecodes, hdry, hfrozen, hlow, poisonedWrite]

theorem hostRegWrite_misfit {size : Nat} (hwindow : off < 0x01000000) (h4 : ¬(size = 4 ∧ off % 4 = 0)) (h8 : ¬(size = 8 ∧ off % 8 = 0)) :
    hostRegWrite fn ⟨0, off, size, false, rid⟩ value s = count (cDev 3) s := by
  obtain ⟨hdry, hdormant, hfrozen, -⟩ := hup
  have hlow : ¬ 0x01000000 ≤ off := by omega
  simp [hostRegWrite, hdecodes, hdry, hdormant, hfrozen, hlow, windowWrite, hwindow, writeRegs, parts_misfit h4 h8, badAccess]

theorem registerRead_misfit {size : Nat} (hwindow : off < 0x01000000) (h4 : ¬(size = 4 ∧ off % 4 = 0)) (h8 : ¬(size = 8 ∧ off % 8 = 0)) :
    exec (.registerRead fn ⟨0, off, size, false, rid⟩) s = .next (settle (emit (.readData 0) (count (cDev 3) s))) := by
  obtain ⟨hdry, hdormant, hfrozen, -⟩ := hup
  have hlow : ¬ 0x01000000 ≤ off := by omega
  show execRegisterRead fn _ s = _
  simp [execRegisterRead, hdecodes, hdry, hdormant, hfrozen, hlow, onHostRead, windowRead, hwindow, readRegs, parts_misfit h4 h8, badAccess, done]

variable (hoff : off % 4 = 0)
include hoff

/-- A 32-bit write to BAR0 (R121, R146): one of another requester does not reach what only the manager may write. -/
theorem hostRegWrite_bar0 (hwindow : off < 0x01000000) : hostRegWrite fn ⟨0, off, 4, false, rid⟩ value s =
    if rid.isSome && managed fn off then badAccess s
    else if isVf fn then (if off < 0x10000 then writeVf fn off (BitVec.ofNat 32 value) s else s)
    else writePf fn off (BitVec.ofNat 32 value) s := by
  obtain ⟨hdry, hdormant, hfrozen, -⟩ := hup
  have hlow : ¬ 0x01000000 ≤ off := by omega
  simp [hostRegWrite, hdecodes, hdry, hdormant, hfrozen, hlow, windowWrite, hwindow, writeRegs_word _ hoff, writeBar0]

theorem registerRead_bar0 (hwindow : off < 0x01000000) : exec (.registerRead fn ⟨0, off, 4, false, rid⟩) s =
    let r := if isVf fn then (if off < 0x10000 then readVf fn off s else (0, s)) else readPf fn off s
    .next (settle (emit (.readData r.1) r.2)) := by
  obtain ⟨hdry, hdormant, hfrozen, -⟩ := hup
  have hlow : ¬ 0x01000000 ≤ off := by omega
  show execRegisterRead fn _ s = _
  simp [execRegisterRead, hdecodes, hdry, hdormant, hfrozen, hlow, onHostRead, windowRead, hwindow, readRegs_word _ hoff, readBar0, done]

theorem hostRegWrite_msix : hostRegWrite fn ⟨4, off, 4, false, rid⟩ v.toNat s = writeMsix fn off v s := by
  obtain ⟨hdry, hdormant, hfrozen, -⟩ := hup
  simp [hostRegWrite, hdecodes, hdry, hdormant, hfrozen, windowWrite, writeRegs_word _ hoff]

theorem registerRead_msix : exec (.registerRead fn ⟨4, off, 4, false, rid⟩) s = .next (settle (emit (.readData (readMsix s fn off)) s)) := by
  obtain ⟨hdry, hdormant, hfrozen, -⟩ := hup
  show execRegisterRead fn _ s = _
  simp [execRegisterRead, hdecodes, hdry, hdormant, hfrozen, onHostRead, windowRead, readRegs_word _ hoff, done]

end

/-! ## BAR0 of a physical function: writes (R453 to R459) -/

/-- Registers of the manager lie in the host interface of a physical function (R145). -/
theorem managed_range (h : managed fn off = true) : isVf fn = false ∧ ((0x120 ≤ off ∧ off < 0x168) ∨ (0x180 ≤ off ∧ off < 0x1A0)) := by
  simpa [managed] using h

section
variable (hup : HostUp fn s) (hdecodes : decodes s fn = true)
include hup hdecodes

theorem hostRegWrite_managed (hoff : off % 4 = 0) (hmanaged : managed fn off = true) (hbarred : s.served = true ∨ rid.isSome = true) :
    hostRegWrite fn ⟨0, off, 4, false, rid⟩ value s = count (cDev 3) s := by
  obtain ⟨hvf, hrange⟩ := managed_range hmanaged
  rw [hostRegWrite_bar0 hup hdecodes hoff (by omega), hmanaged, Bool.and_true]
  cases hrid : rid.isSome with
  | true => rfl
  | false =>
    have hserved : s.served = true := hbarred.resolve_right (by simp [hrid])
    simp [hvf, writePf, hrange, writePeer, hserved, badAccess]

theorem hostRegWrite_pf (hvf : isVf fn = false) (hoff : off % 4 = 0) (hwindow : off < 0x01000000)
    (hmine : (rid.isSome && managed fn off) = false) : hostRegWrite fn ⟨0, off, 4, false, rid⟩ v.toNat s = writePf fn off v s := by
  simp [hostRegWrite_bar0 hup hdecodes hoff hwindow, hmine, hvf]

end

theorem not_managed_of_high (h : 0x1A0 ≤ off) : managed fn off = false := by
  simp [managed]; omega

/-- Registers of a physical function that ignore a write: those that only tell. -/
def readOnlyRegs : List Nat := [0x10, 0x14, 0x18, 0x20, 0x24, 0x100, 0x104, 0x30C, 0xA0C, 0x2008]

theorem writePf_readOnly (h : off ∈ readOnlyRegs) : writePf fn off v s = s := by
  simp only [readOnlyRegs, List.mem_cons, List.not_mem_nil, or_false] at h
  obtain rfl | rfl | rfl | rfl | rfl | rfl | rfl | rfl | rfl | rfl := h <;> rfl

theorem readOnlyRegs_plain (h : off ∈ readOnlyRegs) : off % 4 = 0 ∧ off < 0x01000000 ∧ managed fn off = false := by
  simp only [readOnlyRegs, List.mem_cons, List.not_mem_nil, or_false] at h
  refine ⟨by omega, by omega, ?_⟩
  simp [managed]; omega

theorem writePf_admBase_enabled (h : (admAt s fn).ctrl.getLsbD 0 = true) : writePf fn 0x200 v s = s := by
  simp [writePf, writeAdmBase, h]

theorem writePf_admBase (h : (admAt s fn).ctrl.getLsbD 0 = false) :
    writePf fn 0x200 v s = updAdm fn (fun r => { r with sq := putHalf r.sq 0 v &&& 0xFFFFFFFFFFFFF000#64 }) s := by
  exact if_neg (ne_true_of_eq_false h)

theorem writePf_peerWindow (h : s.served = false) :
    writePf fn 0x160 v s = updPeer fn (fun p => { p with win := putHalf p.win 0 v &&& 0xFFFFFFFFFF000001#64 }) s := by
  simp [writePf, writePeer, h]

/-- CH_COUNT of a Pump channel lies at 0x10 of the channel's 32 bytes (R320). -/
theorem chCount_place {ch : Nat} (h : ch < 255) :
    (0x10010 + 32 * ch - 0x10000) / 32 = ch ∧ (0x10010 + 32 * ch) % 32 = 0x10 := by omega

theorem writePf_pump {ch : Nat} (hch : ch < 255) (hmine : pumpOwner s fn ch = true) :
    writePf fn (0x10010 + 32 * ch) v s = writePump ch 0x10 v s := by
  obtain ⟨hplace, hreg⟩ := chCount_place hch
  have hne : ch ≠ 255 := by omega
  simp only [writePf, hplace, hreg, hmine, if_neg hne, if_true]
  repeat rw [if_neg (by omega)]
  rw [if_pos (by omega)]

theorem writePump_count_idle {ch : Nat} (h : (pumpAt s ch).state = 0) :
    writePump ch 0x10 v s = updPump ch (fun c => { c with count := v }) s := by simp [writePump, h]

theorem writePump_count_busy {ch : Nat} (h : (pumpAt s ch).state ≠ 0) : writePump ch 0x10 v s = s := by simp [writePump, h]

theorem writePf_wm {n o : Nat} (hn : n < 64) (ho : o < 16) : writePf fn (0x2000 + 16 * n + o) v s = writeWm n o v s := by
  have hplace : (0x2000 + 16 * n + o - 0x2000) / 16 = n := by omega
  have hreg : (0x2000 + 16 * n + o) % 16 = o := by omega
  simp only [writePf, hplace, hreg]
  repeat rw [if_neg (by omega)]
  rw [if_pos (by omega)]

/-! ## BAR0 of a physical function: reads -/

theorem readPf_wmLive {n : Nat} (hn : n < 64) : readPf fn (0x2008 + 16 * n) s = (wmLive s (wmAt s n), s) := by
  have hplace : (0x2008 + 16 * n - 0x2000) / 16 = n := by omega
  have hreg : (0x2008 + 16 * n) % 16 = 8 := by omega
  simp only [readPf, hplace, hreg]
  repeat rw [if_neg (by omega)]
  rw [if_pos (by omega)]
  rfl

theorem readPf_chCount {ch : Nat} (hch : ch < 255) (hmine : pumpOwner s fn ch = true) :
    readPf fn (0x10010 + 32 * ch) s = ((pumpAt s ch).count.toNat, s) := by
  obtain ⟨hplace, hreg⟩ := chCount_place hch
  have hne : ch ≠ 255 := by omega
  simp only [readPf, hplace, hreg, hmine, if_neg hne, if_true]
  repeat rw [if_neg (by omega)]
  rw [if_pos (by omega)]
  rfl

/-! ## BAR0 of a virtual function and BAR4 (R125, R159, R461) -/

theorem hostRegWrite_vf (hup : HostUp fn s) (hdecodes : decodes s fn = true) (hvf : isVf fn = true) (hoff : off % 4 = 0) (hwindow : off < 0x10000) :
    hostRegWrite fn ⟨0, off, 4, false, rid⟩ value s = writeVf fn off (BitVec.ofNat 32 value) s := by
  have hmine : managed fn off = false := by simp [managed, hvf]
  simp [hostRegWrite_bar0 hup hdecodes hoff (by omega), hmine, hvf, hwindow]

theorem writeMsix_data {e : Nat} (htable : e < tableSize fn) (hbacked : e < vecBacked s fn) :
    writeMsix fn (16 * e + 8) v s = updMsix fn e (fun m => { m with data := v }) s := by
  have hentry : (16 * e + 8) / 16 = e := by omega
  have hreg : (16 * e + 8) % 16 = 8 := by omega
  simp only [writeMsix, hentry, hreg, if_neg (show ¬(tableSize fn ≤ e ∨ vecBacked s fn ≤ e) by omega)]

theorem readMsix_data {e : Nat} (htable : e < tableSize fn) (hbacked : e < vecBacked s fn) :
    readMsix s fn (16 * e + 8) = (msixAt s fn e).data.toNat := by
  have hentry : (16 * e + 8) / 16 = e := by omega
  have hreg : (16 * e + 8) % 16 = 8 := by omega
  simp only [readMsix, hentry, hreg, if_pos htable, if_neg (show ¬ vecBacked s fn ≤ e by omega)]

end Sys2Proof.Machine
end

section
/-! SUPPORT. Registers with a row of their own: event enables and the fault register (R437, R441, R442), the admin registers (R312), doorbells
(R302, R304, R308, R311), Pump channels and their completion queues (R320, R321, R324, R325). -/

namespace Sys2Proof.Machine

open Sys2Proof

variable {s : State} {fn : Nat} {v : Word}

/-! ## EVT_ENABLE_n -/

theorem count_evt (n : Nat) (s : State) : (count n s).evt = s.evt := by
  unfold count countBy; split <;> rfl

theorem sendMsix_evt (f e : Nat) (s : State) : (sendMsix f e s).evt = s.evt := by
  unfold sendMsix; split
  · rfl
  · split <;> rfl

theorem updIntx_evt (pf : Nat) (s : State) : (updIntx pf s).evt = s.evt := by
  unfold updIntx; dsimp only; split
  · rfl
  · split <;> rfl

theorem intxAll_evt (s : State) : (intxAll s).evt = s.evt := (updIntx_evt 1 _).trans (updIntx_evt 0 s)

theorem deliverEvt_evt (src : Nat) (s : State) : (deliverEvt src s).evt = s.evt := by
  unfold deliverEvt
  refine (intxAll_evt _).trans ?_
  split
  · split
    · exact count_evt _ s
    · split
      · rfl
      · exact sendMsix_evt _ _ s
  · rfl

/-- What a write to the enable of an assigned source leaves in the event registers: the message it may send changes none. -/
theorem setEnable_evt {src : Nat} {on : Bool} (h : evtAssigned s src = true) :
    (setEnable src on s).evt = { s.evt with enable := Store.set false src on s.evt.enable } := by
  simp only [setEnable, h, Bool.not_true, Bool.false_eq_true, if_false]
  split
  · exact deliverEvt_evt _ _
  · exact intxAll_evt _

theorem setEnable_unassigned {src : Nat} {on : Bool} (h : evtAssigned s src = false) : setEnable src on s = s := by
  simp only [setEnable, h, Bool.not_false, if_true]

theorem outward_setEnable (src : Nat) (on : Bool) (s : State) : Outward s (setEnable src on s) := by
  unfold setEnable
  split
  · exact .refl s
  · have hstore : Outward s { s with evt := { s.evt with enable := Store.set false src on s.evt.enable } } := by
      refine ⟨?_, rfl, rfl, rfl, rfl, id, rfl, fun _ => rfl, rfl, id⟩; constructor <;> simp
    dsimp only
    split
    · exact hstore.trans (outward_deliverEvt _ _)
    · exact hstore.trans (outward_intxAll _)

theorem evtAssigned_of_units {t : State} (h : SameUnits s t) (k : Nat) : evtAssigned t k = evtAssigned s k := by
  have hcap : capUnits t = capUnits s := by simp only [capUnits, h.fuses]
  have hlanes : laneCount t = laneCount s := by unfold laneCount hasLanesHi; rw [hcap]
  simp only [evtAssigned, hlanes, hasCipher, hasCombiner, hasStitch, hcap]

theorem evtStatus_setEnable (src : Nat) (on : Bool) : (setEnable src on s).evt.status = s.evt.status := by
  cases h : evtAssigned s src with
  | true => rw [setEnable_evt h]
  | false => rw [setEnable_unassigned h]

theorem evtEnable_setEnable (src k : Nat) (on : Bool) :
    evtEnable (setEnable src on s) k = if k = src ∧ evtAssigned s k = true then on else evtEnable s k := by
  cases h : evtAssigned s src with
  | true =>
    simp only [evtEnable, setEnable_evt h]
    by_cases hk : k = src
    · subst hk; simp [h]
    · simp [hk, store_get_set_ne false src k on _ hk]
  | false =>
    rw [setEnable_unassigned h, if_neg]
    rintro ⟨rfl, hk⟩
    simp [h] at hk

/-- A write to the first `m` enables of EVT_ENABLE_n. -/
def enablesTo (n m : Nat) (v : Word) (s : State) : State := (List.range m).foldl (fun t i => setEnable (32 * n + i) (v.getLsbD i) t) s

theorem writeEnables_eq (n : Nat) : writeEnables n v s = enablesTo n 32 v s := rfl

theorem enablesTo_succ (n m : Nat) : enablesTo n (m + 1) v s = setEnable (32 * n + m) (v.getLsbD m) (enablesTo n m v s) := by
  simp [enablesTo, List.range_succ]

theorem outward_enablesTo (n m : Nat) : Outward s (enablesTo n m v s) := .fold _ (fun t _ => outward_setEnable _ _ t) _ s

theorem evtStatus_enablesTo (n m : Nat) : (enablesTo n m v s).evt.status = s.evt.status := by
  induction m with
  | zero => rfl
  | succ m ih => rw [enablesTo_succ, evtStatus_setEnable, ih]

theorem evtEnable_enablesTo (n m k : Nat) : evtEnable (enablesTo n m v s) k =
    if 32 * n ≤ k ∧ k < 32 * n + m ∧ evtAssigned s k = true then v.getLsbD (k - 32 * n) else evtEnable s k := by
  induction m with
  | zero => exact (if_neg (by omega)).symm
  | succ m ih =>
    rw [enablesTo_succ, evtEnable_setEnable, ih, evtAssigned_of_units (outward_enablesTo n m).units]
    by_cases hk : k = 32 * n + m
    · subst hk; simp
    · have hrange : k < 32 * n + (m + 1) ↔ k < 32 * n + m := by omega
      simp [hk, hrange]

/-! ## FAULT_STATUS (R437) -/

/-- What FAULT_STATUS holds after a write. -/
def clearedFault (v : Word) (x : FaultSt) : FaultSt :=
  let f := if v.getLsbD 1 then { x with uncorr := false } else x
  if v.getLsbD 0 then { f with latched := false, cause := 0, memory := 0, count := 0, recorded := false, addr := 0, time := 0 } else f

/-- FAULT_N may follow a change of the fault register; nothing else does. -/
theorem withFaultPin_out (g : State → State) : ∃ o, withFaultPin g s = { g s with out := o } := by
  unfold withFaultPin
  dsimp only
  split
  · exact ⟨(g s).out, rfl⟩
  · exact ⟨_, rfl⟩

theorem clearFault_eq : ∃ o, clearFault v s = { s with fault := clearedFault v s.fault, out := o } := withFaultPin_out _

theorem clearedFault_kept (h : v.getLsbD 0 = false) (x : FaultSt) : clearedFault v x = { x with uncorr := (clearedFault v x).uncorr } := by
  simp only [clearedFault, h, Bool.false_eq_true, if_false]
  split <;> rfl

theorem clearedFault_uncorr (x : FaultSt) : (clearedFault v x).uncorr = (x.uncorr && !v.getLsbD 1) := by
  unfold clearedFault
  cases v.getLsbD 1 <;> cases v.getLsbD 0 <;> simp

theorem clearedFault_latched (x : FaultSt) : (clearedFault v x).latched = (x.latched && !v.getLsbD 0) := by
  unfold clearedFault
  cases v.getLsbD 1 <;> cases v.getLsbD 0 <;> simp

theorem clearedFault_record (h : v.getLsbD 0 = true) (x : FaultSt) : (clearedFault v x).cause = 0 ∧ (clearedFault v x).memory = 0 ∧
    (clearedFault v x).count = 0 ∧ (clearedFault v x).addr = 0 ∧ (clearedFault v x).time = 0 := by
  simp [clearedFault, h]

/-! ## ADM_CTRL (R312) -/

theorem admAt_updAdm (g : AdmRegs → AdmRegs) : admAt (updAdm fn g s) fn = g (admAt s fn) := store_get_upd_same ..

/-- What a write leaves in ADM_CTRL. -/
theorem admWrite_ctrl (ready cfgErr : Bool) : (admAt (admWrite fn v ready cfgErr s) fn).ctrl =
    (if (admAt s fn).ctrl.getLsbD 0 then (v &&& 0xFFE00001#32) ||| ((admAt s fn).ctrl &&& 0x001F1F00#32) else v &&& 0xFFFF1F01#32) |||
      BitVec.ofNat 32 (2 * b2n ready + 4 * b2n cfgErr) := congrArg AdmRegs.ctrl (admAt_updAdm _)

theorem admWrite_enable (ready cfgErr : Bool) : (admAt (admWrite fn v ready cfgErr s) fn).ctrl.getLsbD 0 = v.getLsbD 0 := by
  rw [admWrite_ctrl]
  cases (admAt s fn).ctrl.getLsbD 0 <;> cases ready <;> cases cfgErr <;> simp [b2n]

theorem admWrite_ready (ready cfgErr : Bool) : (admAt (admWrite fn v ready cfgErr s) fn).ctrl.getLsbD 1 = ready := by
  rw [admWrite_ctrl]
  cases (admAt s fn).ctrl.getLsbD 0 <;> cases ready <;> cases cfgErr <;> simp [b2n]

theorem admWrite_cfgErr (ready cfgErr : Bool) : (admAt (admWrite fn v ready cfgErr s) fn).ctrl.getLsbD 2 = cfgErr := by
  rw [admWrite_ctrl]
  cases (admAt s fn).ctrl.getLsbD 0 <;> cases ready <;> cases cfgErr <;> simp [b2n]

theorem admEnable_bad (h : admOk v = false) : admEnable fn v s = admWrite fn v false true s := if_pos (by simp [h])

/-- The admin queue pair that ADM_CTRL makes. -/
def admQueue (s : State) (fn : Nat) (v : Word) : Qp :=
  { fn := fn, idx := 0, ty := 2, log2Sq := admLog2Sq v, log2Cq := admLog2Cq v, sqAddr := (admAt s fn).sq.toNat, cqAddr := (admAt s fn).cq.toNat,
    vector := admVector v, state := 1 }

/-- Store a queue pair. -/
def putQp (n : Nat) (q : Qp) (s : State) : State := { s with rings := { s.rings with qps := Store.set {} n q s.rings.qps } }

theorem qpAt_putQp (n : Nat) (q : Qp) : qpAt (putQp n q s) n = q := store_get_set_same ..

theorem admEnable_good (h : admOk v = true) :
    admEnable fn v s = putQp (adminQp s fn) (admQueue s fn v) (admWrite fn v true false s) := if_neg (by simp [h])

/-- ENABLE goes 0 to 1: only the rings change; READY or CFG_ERR tells whether there is an admin queue pair. -/
theorem admEnable_effect : admEnable fn v s = { s with rings := (admEnable fn v s).rings } ∧
    (admAt (admEnable fn v s) fn).ctrl.getLsbD 1 = admOk v ∧ (admAt (admEnable fn v s) fn).ctrl.getLsbD 2 = !admOk v ∧
    (admOk v = true → qpAt (admEnable fn v s) (adminQp s fn) = admQueue s fn v) ∧
    (admOk v = false → (admEnable fn v s).rings.qps = s.rings.qps) := by
  cases h : admOk v with
  | false =>
    rw [admEnable_bad h]
    exact ⟨rfl, admWrite_ready false true, admWrite_cfgErr false true, nofun, fun _ => rfl⟩
  | true =>
    rw [admEnable_good h]
    exact ⟨rfl, admWrite_ready true false, admWrite_cfgErr true false, fun _ => qpAt_putQp _ _, nofun⟩

theorem qpAt_admWrite (ready cfgErr : Bool) (n : Nat) : qpAt (admWrite fn v ready cfgErr s) n = qpAt s n := rfl

theorem qpAt_removeQp (n : Nat) : qpAt (removeQp n s) n = {} := by
  simp only [qpAt, removeQp, store_get_set_same]

/-- ENABLE goes 1 to 0: ENABLE and READY read 0, and the admin queue pair is gone. -/
theorem admDisable_effect (h : v.getLsbD 0 = false) : (admAt (admDisable fn v s) fn).ctrl.getLsbD 0 = false ∧
    (admAt (admDisable fn v s) fn).ctrl.getLsbD 1 = false ∧ (qpAt (admDisable fn v s) (adminQp s fn)).state = 0 :=
  ⟨(admWrite_enable _ _).trans h, admWrite_ready _ _, congrArg Qp.state ((qpAt_admWrite _ _ _).trans (qpAt_removeQp _))⟩

/-! ## Doorbells (R121, R302, R304, R308, R311) -/

theorem cqSize_pos (p : Qp) : 0 < cqSize p := Nat.two_pow_pos _

section
variable {q : Nat} (hdry : s.mode ≠ .dry) (hfrozen : frozen s fn = false)
include hdry hfrozen

theorem doorbell_stray (hok : doorbellOk s fn q = false) (k : Nat → State → State) : doorbell fn q k s = count (cDev 4) s := by
  simp only [doorbell, if_neg hdry, hfrozen, hok, Bool.false_eq_true, if_false, Bool.not_false, if_true]

theorem doorbell_reaches (hok : doorbellOk s fn q = true) (k : Nat → State → State) : doorbell fn q k s = k (devQp s fn q) s := by
  simp only [doorbell, if_neg hdry, hfrozen, hok, Bool.false_eq_true, if_false, Bool.not_true]

end

/-- Nothing is on the way to DORMANT, so a wake event has nothing to end (R31). -/
theorem latchWake_awake (k : Nat) (hmode : s.mode ≠ .dormant) (htransit : s.transit = none) (harmed : s.armedMode = none) : latchWake k s = s := by
  have harm : markArmed s = s := by simp only [markArmed, harmed]
  have hmark : markTransit s = s := by simp only [markTransit, htransit]
  simp only [latchWake, if_neg hmode, harm, hmark, ite_self]

section
variable {n : Nat}

theorem ringTail_beyond (h : sqSize (qpAt s n) ≤ v.toNat % 65536) : ringTail n v s = count (cDev 4) s := if_pos h

theorem ringTail_within (h : v.toNat % 65536 < sqSize (qpAt s n)) : ringTail n v s = kickQp n (updQp n (fun r =>
    { r with tail := v.toNat % 65536, due := entriesTo r (v.toNat % 65536), latched := r.fetching }) s) := if_neg (by omega)

theorem ringHead_beyond (harm : v.getLsbD 16 = false) (h : cqSize (qpAt s n) ≤ v.toNat % 65536) :
    ringHead n v s = kickQp n (count (cDev 12) s) := by
  simp only [ringHead, harm, Bool.false_eq_true, if_false, h, true_or, if_true]

variable {d : Nat} (hd : d = (v.toNat % 65536 + cqSize (qpAt s n) - (qpAt s n).head) % cqSize (qpAt s n)) (hpos : 0 < d)
include hd hpos

theorem ringHead_releases (harm : v.getLsbD 16 = false) (hwithin : v.toNat % 65536 < cqSize (qpAt s n)) (hwritten : d ≤ (qpAt s n).used) :
    ringHead n v s = kickQp n (updQp n (fun r => { r with head := v.toNat % 65536, used := r.used - d }) s) := by
  have hsome : ¬(d = 0 ∧ (qpAt s n).used = cqSize (qpAt s n)) := by omega
  have hgood : ¬(cqSize (qpAt s n) ≤ v.toNat % 65536 ∨ (qpAt s n).used < d) := by omega
  simp only [ringHead, harm, ← hd, if_neg hsome, if_neg hgood, Bool.false_eq_true, if_false]

theorem ringHead_unwritten (harm : v.getLsbD 16 = false) (hwritten : (qpAt s n).used < d) : ringHead n v s = kickQp n (count (cDev 12) s) := by
  have hsome : ¬(d = 0 ∧ (qpAt s n).used = cqSize (qpAt s n)) := by omega
  simp only [ringHead, harm, ← hd, if_neg hsome, hwritten, or_true, if_true, Bool.false_eq_true, if_false]

end

/-- ARM with nothing to read (R311): HEAD stays, and the next completion will send the message. -/
theorem ringHead_arms {n : Nat} (harm : v.getLsbD 16 = true) (hhead : v.toNat % 65536 = (qpAt s n).head)
    (hwithin : (qpAt s n).head < cqSize (qpAt s n)) (hempty : (qpAt s n).used = 0) : ringHead n v s =
    kickQp n (updQp n (fun r => { r with arm := true }) (updQp n (fun r => { r with head := (qpAt s n).head }) s)) := by
  have hzero : ((qpAt s n).head + cqSize (qpAt s n) - (qpAt s n).head) % cqSize (qpAt s n) = 0 := by simp
  have hfull : ¬ 0 = cqSize (qpAt s n) := (cqSize_pos _).ne
  have hgood : ¬ cqSize (qpAt s n) ≤ (qpAt s n).head := by omega
  have hstill : (qpAt (updQp n (fun r => { r with head := (qpAt s n).head }) s) n).used = 0 := by simp [qpAt_updQp, hempty]
  simp only [ringHead, harm, hhead, hempty, hzero, hfull, and_false, hgood, or_false, Nat.sub_zero, hstill, if_true, Nat.lt_irrefl, false_and,
    if_false]

/-! ## Pump channels (R320, R321, R324) -/

section
variable {ch : Nat}

theorem writeChCtrl_go (harm : v.getLsbD 1 = false) : writeChCtrl ch (v ||| 1#32) s = pumpGo ch (v ||| 1#32) s := by
  have hgo : (v ||| 1#32).getLsbD 0 = true := by simp
  have habort : (v ||| 1#32).getLsbD 1 = false := by rw [BitVec.getLsbD_or, harm]; rfl
  simp only [writeChCtrl, hgo, habort, if_true, Bool.false_eq_true, if_false]

theorem writeChCtrl_abort (hgo : v.getLsbD 0 = false) : writeChCtrl ch (v ||| 2#32) s =
    pumpAbort ch (if (pumpAt s ch).state = 0 then updPump ch (pumpCtrl (v ||| 2#32)) s else s) := by
  have habort : (v ||| 2#32).getLsbD 1 = true := by simp
  have hnot : (v ||| 2#32).getLsbD 0 = false := by rw [BitVec.getLsbD_or, hgo]; rfl
  simp only [writeChCtrl, habort, hnot, if_true, Bool.false_eq_true, if_false]

theorem pumpAt_updPump (g : PumpCh → PumpCh) : pumpAt (updPump ch g s) ch = g (pumpAt s ch) := store_get_upd_same ..

theorem pumpAbort_idle (h : (pumpAt s ch).state = 0) : pumpAbort ch s = s := if_pos h

theorem pumpAbort_waits (h : (pumpAt s ch).state = 1) (hfull : pcqFree (pcqAt s (chPcq (pumpAt s ch))) = false) :
    pumpAbort ch s = updPump ch (fun c => { c with ctrl := c.ctrl ||| 2#32 }) s := by
  simp [pumpAbort, h, hfull]

theorem pumpAbort_queued (h : (pumpAt s ch).state = 1) (hfree : pcqFree (pcqAt s (chPcq (pumpAt s ch))) = true) : pumpAbort ch s =
    endPump ch qAborted 0 0 (updPcq (chPcq (pumpAt s ch)) (fun p => { p with reserved := p.reserved + 1 }) s) := by
  simp [pumpAbort, abortPump, h, hfree]

theorem pumpAbort_posted (h : (pumpAt s ch).state = 3) (hall : (pumpAt s ch).done = (pumpAt s ch).count.toNat) : pumpAbort ch s =
    endPump ch (if (pumpAt s ch).bad then qPoisoned else qOk) 0 (pumpAt s ch).done s := by
  simp [pumpAbort, abortPump, h, hall]

theorem pumpAbort_running (h : (pumpAt s ch).state = 2 ∨ (pumpAt s ch).state = 4 ∨
      ((pumpAt s ch).state = 3 ∧ (pumpAt s ch).done ≠ (pumpAt s ch).count.toNat)) : pumpAbort ch s =
    endPump ch qAborted 0 (if chMode (pumpAt s ch) = 0 then (pumpAt s ch).done else 0) s := by
  have hidle : ¬(pumpAt s ch).state = 0 := by omega
  have hqueued : ¬(pumpAt s ch).state = 1 := by omega
  have hposted : ¬((pumpAt s ch).state = 3 ∧ (pumpAt s ch).done = (pumpAt s ch).count.toNat) := by omega
  simp only [pumpAbort, abortPump, if_neg hidle, hqueued, false_and, if_false, if_neg hposted]

end

/-! ## Completion queues of the Pump (R325) -/

theorem pcqAt_updPcq {m : Nat} (g : Pcq → Pcq) : pcqAt (updPcq m g s) m = g (pcqAt s m) := by
  simp only [pcqAt, updPcq, store_get_upd_same]

theorem pcqSize_pos (p : Pcq) : 0 < pcqSize p := Nat.two_pow_pos _

section
variable {m : Nat} (hup : HostUp fn s) (hmine : pcqFor (pcqAt s m) fn = true)
include hup hmine

theorem pcqHead_releases (harm : v.getLsbD 16 = false) {d : Nat}
    (hd : d = (v.toNat % 65536 + pcqSize (pcqAt s m) - (pcqAt s m).head) % pcqSize (pcqAt s m)) (hwithin : v.toNat % 65536 < pcqSize (pcqAt s m))
    (hpos : 0 < d) (hwritten : d ≤ (pcqAt s m).unread.length) : exec (.pcqHead fn m v) s =
    .next (settle (updPcq m (fun p => { p with head := v.toNat % 65536, unread := p.unread.drop d }) s)) := by
  have hsome : ¬(d = 0 ∧ (pcqAt s m).unread.length = pcqSize (pcqAt s m)) := by omega
  have hgood : ¬(pcqSize (pcqAt s m) ≤ v.toNat % 65536 ∨ (pcqAt s m).unread.length < d) := by omega
  show execPcqHead fn m v s = _
  simp only [execPcqHead, onHostWrite_up hup, hmine, harm, ← hd, if_neg hsome, if_neg hgood, Bool.not_true, Bool.false_eq_true, if_false, done]

theorem pcqHead_beyond (harm : v.getLsbD 16 = false) (h : pcqSize (pcqAt s m) ≤ v.toNat % 65536) :
    exec (.pcqHead fn m v) s = .next (settle (count (cDev 12) s)) := by
  show execPcqHead fn m v s = _
  simp only [execPcqHead, onHostWrite_up hup, hmine, harm, h, true_or, if_true, Bool.not_true, Bool.false_eq_true, if_false, done]

theorem pcqHead_arms (harm : v.getLsbD 16 = true) (hhead : v.toNat % 65536 = (pcqAt s m).head)
    (hwithin : (pcqAt s m).head < pcqSize (pcqAt s m)) (hempty : (pcqAt s m).unread = []) : exec (.pcqHead fn m v) s =
    .next (settle (updPcq m (fun p => { p with arm := true }) (updPcq m (fun q => { q with head := (pcqAt s m).head, unread := [] }) s))) := by
  have hzero : ((pcqAt s m).head + pcqSize (pcqAt s m) - (pcqAt s m).head) % pcqSize (pcqAt s m) = 0 := by simp
  have hfull : ¬ 0 = pcqSize (pcqAt s m) := (pcqSize_pos _).ne
  have hgood : ¬ pcqSize (pcqAt s m) ≤ (pcqAt s m).head := by omega
  have hsame : updPcq m (fun p => { p with head := (pcqAt s m).head, unread := p.unread.drop 0 }) s =
      updPcq m (fun q => { q with head := (pcqAt s m).head, unread := [] }) s := by
    unfold updPcq Store.upd
    have : (Store.get {} m s.rings.pcqs).unread = [] := hempty
    simp only [List.drop_zero, this]
  have hstill : (pcqAt (updPcq m (fun q => { q with head := (pcqAt s m).head, unread := [] }) s) m).unread = [] :=
    congrArg Pcq.unread (pcqAt_updPcq _)
  show execPcqHead fn m v s = _
  simp only [execPcqHead, onHostWrite_up hup, hmine, harm, hhead, hempty, List.length_nil, hzero, hfull, and_false, hgood, Nat.lt_irrefl, or_false,
    hsame, hstill, List.any_nil, Bool.not_true, Bool.false_eq_true, if_true, if_false, done]

end

end Sys2Proof.Machine
end

section
/-! SUPPORT. The rows that stand for writes and reads of named registers, with the obligation on them. -/

namespace Sys2Proof.Machine

open Sys2Proof

variable {s t : State} {fn off value : Nat} {rid : Option Nat} {v : Word}

/-! ## Rows of their own on a function that is up -/

theorem onHostRead_up (hup : HostUp fn s) {n w : Nat} {dry dormant : Bool} {k : State → Nat × State} (hk : k s = (w, t)) :
    onHostRead fn n dry dormant k s = emit (.readData w) t := by
  obtain ⟨hdry, hdormant, hfrozen, -⟩ := hup
  simp only [onHostRead, hdry, hdormant, hfrozen, hk, false_and, and_false, Bool.false_eq_true, if_false]

theorem registerWrite_done {a : RegAccess} (h : hostRegWrite fn a value s = t) : exec (.registerWrite fn a value) s = .next (settle t) :=
  congrArg done h

theorem wmWrite_done {n o : Nat} (hn : n < 64) (ho : o < 16) (h : hostRegWrite fn ⟨0, 0x2000 + 16 * n + o, 4, false, rid⟩ value s = t) :
    exec (.watermarkRegisterWrite fn ⟨0, 0x2000 + 16 * n + o, 4, false, rid⟩ value) s = .next (settle t) :=
  congrArg done ((if_pos ⟨rfl, by simp only []; omega, by simp only []; omega⟩).trans h)

section
variable (hup : HostUp fn s) (hdecodes : decodes s fn = true)
include hup hdecodes

theorem registerWrite_pf (hvf : isVf fn = false) (hoff : off % 4 = 0) (hwindow : off < 0x01000000)
    (hmine : (rid.isSome && managed fn off) = false) (h : writePf fn off v s = t) :
    exec (.registerWrite fn ⟨0, off, 4, false, rid⟩ v.toNat) s = .next (settle t) :=
  registerWrite_done ((hostRegWrite_pf hup hdecodes hvf hoff hwindow hmine).trans h)

theorem registerRead_pf (hvf : isVf fn = false) (hoff : off % 4 = 0) (hwindow : off < 0x01000000) {w : Nat} (h : readPf fn off s = (w, t)) :
    exec (.registerRead fn ⟨0, off, 4, false, rid⟩) s = .next (settle (emit (.readData w) t)) := by
  rw [registerRead_bar0 hup hdecodes hoff hwindow]
  simp only [hvf, Bool.false_eq_true, if_false, h]

theorem registerRead_vf (hvf : isVf fn = true) (hoff : off % 4 = 0) (hwindow : off < 0x10000) {w : Nat} (h : readVf fn off s = (w, t)) :
    exec (.registerRead fn ⟨0, off, 4, false, rid⟩) s = .next (settle (emit (.readData w) t)) := by
  rw [registerRead_bar0 hup hdecodes hoff (by omega)]
  simp only [hvf, hwindow, if_true, h]

theorem wmRegisterWrite_pf (hvf : isVf fn = false) {n o : Nat} (hn : n < 64) (ho : o < 16) (hoff : o % 4 = 0) (h : writeWm n o v s = t) :
    exec (.watermarkRegisterWrite fn ⟨0, 0x2000 + 16 * n + o, 4, false, rid⟩ v.toNat) s = .next (settle t) :=
  wmWrite_done hn ho ((hostRegWrite_pf hup hdecodes hvf (by omega) (by omega)
    (by rw [not_managed_of_high (by omega), Bool.and_false])).trans ((writePf_wm hn ho).trans h))

/-! ## The registers of a physical function that the obligation names -/

theorem pfWrites (hvf : isVf fn = false) (v : Word) (rid : Option Nat) :
    let wr (off : Nat) : Host.Outcome State Fault Refusal := exec (.registerWrite fn ⟨0, off, 4, false, rid⟩ v.toNat) s
    (∀ off ∈ readOnlyRegs, wr off = .next (settle s)) ∧
    wr 0xA00 = .next (settle { s with evt := { s.evt with sel := Store.set 0 fn (v.toNat % 2048) s.evt.sel } }) ∧
    wr 0x404 = .next (settle { s with wh := { s.wh with wakeEn := v.setWidth 8 ||| 0x82#8 } }) ∧
    wr 0x408 = .next (settle { s with wh := { s.wh with latched := s.wh.latched &&& ~~~(v.setWidth 8) } }) ∧
    wr 0x40C = .next (settle { s with wh := { s.wh with timer := v } }) ∧
    ((admAt s fn).ctrl.getLsbD 0 = true → wr 0x200 = .next (settle s)) ∧
    ((admAt s fn).ctrl.getLsbD 0 = false → wr 0x200 =
      .next (settle (updAdm fn (fun r => { r with sq := putHalf r.sq 0 v &&& 0xFFFFFFFFFFFFF000#64 }) s))) ∧
    (s.served = false → rid = none → wr 0x160 =
      .next (settle (updPeer fn (fun p => { p with win := putHalf p.win 0 v &&& 0xFFFFFFFFFF000001#64 }) s))) ∧
    (∀ ch, ch < 255 → pumpOwner s fn ch = true →
      ((pumpAt s ch).state = 0 → wr (0x10010 + 32 * ch) = .next (settle (updPump ch (fun c => { c with count := v }) s))) ∧
      ((pumpAt s ch).state ≠ 0 → wr (0x10010 + 32 * ch) = .next (settle s))) := by
  have high {off : Nat} (hoff : off % 4 = 0) (hlow : 0x1A0 ≤ off) (hwindow : off < 0x01000000) {t : State} (h : writePf fn off v s = t) :
      exec (.registerWrite fn ⟨0, off, 4, false, rid⟩ v.toNat) s = .next (settle t) :=
    registerWrite_pf hup hdecodes hvf hoff hwindow (by rw [not_managed_of_high hlow, Bool.and_false]) h
  refine ⟨fun off hmem => ?_, high (by omega) (by omega) (by omega) rfl, high (by omega) (by omega) (by omega) rfl,
    high (by omega) (by omega) (by omega) rfl, high (by omega) (by omega) (by omega) rfl,
    fun henabled => high (by omega) (by omega) (by omega) (writePf_admBase_enabled henabled),
    fun hdisabled => high (by omega) (by omega) (by omega) (writePf_admBase hdisabled), fun hopen hrid => ?_,
    fun ch hch hmine => ⟨fun hidle => ?_, fun hbusy => ?_⟩⟩
  · obtain ⟨hoff, hwindow, hplain⟩ := readOnlyRegs_plain (fn := fn) hmem
    exact registerWrite_pf hup hdecodes hvf hoff hwindow (by rw [hplain, Bool.and_false]) (writePf_readOnly hmem)
  · exact registerWrite_pf hup hdecodes hvf (by omega) (by omega) (by rw [hrid]; rfl) (writePf_peerWindow hopen)
  · exact high (by omega) (by omega) (by omega) ((writePf_pump hch hmine).trans (writePump_count_idle hidle))
  · exact high (by omega) (by omega) (by omega) ((writePf_pump hch hmine).trans (writePump_count_busy hbusy))

theorem pfReads (hvf : isVf fn = false) (rid : Option Nat) :
    let rd (off : Nat) (v : Nat) : Prop := exec (.registerRead fn ⟨0, off, 4, false, rid⟩) s = .next (settle (emit (.readData v) s))
    rd 0x10 (capUnits s) ∧ rd 0x14 (devMode s) ∧ rd 0x18 (bootStatus s) ∧ rd 0x20 (b2n s.served) ∧ rd 0x24 0 ∧
    rd 0x100 (linkStatus s fn) ∧ rd 0x104 (65536 * vecBacked s fn + intMode s fn) ∧ rd 0x210 (admAt s fn).ctrl.toNat ∧
    rd 0x304 (Store.get 0 fn s.time.latch / 2 ^ 48 % 2 ^ 32) ∧ rd 0x308 (Store.get 0 fn s.time.latch % 65536) ∧ rd 0x30C (timeStatus s) ∧
    rd 0x404 (s.wh.wakeEn ||| 0x82#8).toNat ∧ rd 0xA20 (faultStatus s) ∧
    (∀ n, n < 64 → rd (0x2008 + 16 * n) (wmLive s (wmAt s n))) ∧
    (∀ ch, ch < 255 → pumpOwner s fn ch = true → rd (0x10010 + 32 * ch) (pumpAt s ch).count.toNat) := by
  have reads {off w : Nat} (hoff : off % 4 = 0) (hwindow : off < 0x01000000) (h : readPf fn off s = (w, s)) :
      exec (.registerRead fn ⟨0, off, 4, false, rid⟩) s = .next (settle (emit (.readData w) s)) :=
    registerRead_pf hup hdecodes hvf hoff hwindow h
  refine ⟨reads ?_ ?_ rfl, reads ?_ ?_ rfl, reads ?_ ?_ rfl, reads ?_ ?_ rfl, reads ?_ ?_ rfl, reads ?_ ?_ rfl, reads ?_ ?_ rfl, reads ?_ ?_ rfl,
    reads ?_ ?_ rfl, reads ?_ ?_ rfl, reads ?_ ?_ rfl, reads ?_ ?_ rfl, reads ?_ ?_ rfl, fun n hn => reads ?_ ?_ (readPf_wmLive hn),
    fun ch hch hmine => reads ?_ ?_ (readPf_chCount hch hmine)⟩ <;> omega

end

/-! ## TIME_NOW_LO (R336) -/

/-- A read of TIME_NOW_LO is a read of the host where the function decodes it. -/
theorem timeNowLoRead_decoded (hdecodes : decodes s fn = true) (hvf : isVf fn = false) :
    exec (.timeNowLoRead fn) s = .next (settle (onHostRead fn 4 false false (readTimeLo fn) s)) := by
  show execTimeNowLoRead fn s = _
  simp only [execTimeNowLoRead, hdecodes, hvf, Bool.not_true, Bool.false_eq_true, if_false, done]

theorem onHostRead_frozen (hdry : s.mode ≠ .dry) (hfrozen : frozen s fn = true) (n : Nat) (dry dormant : Bool) (k : State → Nat × State) :
    onHostRead fn n dry dormant k s = emit (.readData (2 ^ (8 * n) - 1)) s := by
  simp only [onHostRead, hdry, hfrozen, false_and, if_false, ne_eq, not_false_eq_true, and_true, if_true]

theorem onHostRead_silent (hmode : s.mode = .dormant) (hfrozen : frozen s fn = false) (n : Nat) (dry : Bool) (k : State → Nat × State) :
    onHostRead fn n dry false k s = emit (.readData 0) (count (cDev 8) s) := by
  simp [onHostRead, hmode, hfrozen]

theorem onHostRead_dry (hmode : s.mode = .dry) (n : Nat) (dormant : Bool) (k : State → Nat × State) :
    onHostRead fn n false dormant k s = emit (.readData 0) s := if_pos ⟨hmode, rfl⟩

/-! ## A counter page (R447) -/

/-- The counter at a place of a function's page: its own block, then what is granted to it. -/
def pageCounter (s : State) (f off : Nat) : Nat := if off < 0x100 then cFn f (off / 8) else grantOf s f ((off - 0x100) / 8)

/-- A LO register of the page was read: its counter and the time are latched. -/
def latchPage (f off : Nat) (s : State) : State :=
  updFunc f (fun x => { x with latch := { counter := off, value := BitVec.ofNat 64 (counterValue s (pageCounter s f off)),
                                          time24 := BitVec.ofNat 24 (nowNs s), used := true } }) s

theorem counterPageRead_up (hup : HostUp fn s) {o w : Nat} (hoff : o % 4 = 0) (h : readPage fn o s = (w, t)) :
    exec (.counterPageRead fn o) s = .next (settle (emit (.readData w) t)) :=
  congrArg done (onHostRead_up hup ((if_neg (not_not_intro hoff)).trans h))

theorem counterPageRead_misfit (hup : HostUp fn s) {o : Nat} (hoff : o % 4 ≠ 0) :
    exec (.counterPageRead fn o) s = .next (settle (emit (.readData 0) (count (cDev 3) s))) :=
  congrArg done (onHostRead_up hup (if_pos hoff))

theorem readPage_absent {o : Nat} (hpage : (funcOf s fn).counterPage = false) : readPage fn o s = (0, s) := if_pos (by rw [hpage]; rfl)

section
variable (hpage : (funcOf s fn).counterPage = true)
include hpage

theorem readPage_lo {o : Nat} (hoff : o % 8 = 0) (ho : o < 0x300) :
    readPage fn o s = (counterValue s (pageCounter s fn o) % 2 ^ 32, latchPage fn o s) := by
  simp only [readPage, latchPage, pageCounter, hpage, Bool.not_true, Bool.false_eq_true, if_false, if_neg (show ¬ o = 0x300 by omega),
    if_neg (show ¬ 0x300 ≤ o by omega), if_neg (show ¬ o % 8 = 4 by omega)]
  split <;> rfl

theorem readPage_hi {k : Nat} (hk : k < 96) : readPage fn (8 * k + 4) s =
    (if (funcOf s fn).latch.used && (funcOf s fn).latch.counter == 8 * k then (funcOf s fn).latch.value.toNat / 2 ^ 32 else 0, s) := by
  simp only [readPage, hpage, Bool.not_true, Bool.false_eq_true, if_false, if_neg (show ¬ 8 * k + 4 = 0x300 by omega),
    if_neg (show ¬ 0x300 ≤ 8 * k + 4 by omega), if_pos (show (8 * k + 4) % 8 = 4 by omega), Nat.add_sub_cancel]

theorem readPage_stamp : readPage fn 0x300 s = ((funcOf s fn).latch.time24.toNat, s) := by
  simp only [readPage, hpage, Bool.not_true, Bool.false_eq_true, if_false, if_true]

end

theorem pageCounter_own {k : Nat} (hk : k < 32) : pageCounter s fn (8 * k) = cFn fn k := by
  have hplace : 8 * k / 8 = k := by omega
  rw [pageCounter, if_pos (by omega), hplace]

theorem pageCounter_granted {k : Nat} : pageCounter s fn (0x100 + 8 * k) = grantOf s fn k := by
  have hplace : (0x100 + 8 * k - 0x100) / 8 = k := by omega
  rw [pageCounter, if_neg (by omega), hplace]

/-! ## GO and ABORT of a Pump channel (R320, R321, R324) -/

section
variable (hup : HostUp fn s) {ch : Nat}
include hup

theorem go_barred (hother : pumpOwner s fn ch = false) : exec (.go fn ch v) s = .next (settle (count (cDev 3) s)) :=
  congrArg done ((onHostWrite_up hup _).trans (if_pos (by rw [hother]; rfl)))

theorem channelAbort_barred (hother : pumpOwner s fn ch = false) : exec (.channelAbort fn ch v) s = .next (settle (count (cDev 3) s)) :=
  congrArg done ((onHostWrite_up hup _).trans (if_pos (by rw [hother]; rfl)))

variable (hmine : pumpOwner s fn ch = true)
include hmine

theorem go_owned (habort : v.getLsbD 1 = false) : exec (.go fn ch v) s = .next (settle (pumpGo ch (v ||| 1#32) s)) :=
  congrArg done ((onHostWrite_up hup _).trans ((if_neg (by rw [hmine]; decide)).trans (writeChCtrl_go habort)))

theorem channelAbort_owned (hgo : v.getLsbD 0 = false) : exec (.channelAbort fn ch v) s =
    .next (settle (pumpAbort ch (if (pumpAt s ch).state = 0 then updPump ch (pumpCtrl (v ||| 2#32)) s else s))) :=
  congrArg done ((onHostWrite_up hup _).trans ((if_neg (by rw [hmine]; decide)).trans (writeChCtrl_abort hgo)))

theorem channelAbort_busy (hgo : v.getLsbD 0 = false) (hbusy : (pumpAt s ch).state ≠ 0) :
    exec (.channelAbort fn ch v) s = .next (settle (pumpAbort ch s)) := by
  rw [channelAbort_owned hup hmine hgo, if_neg hbusy]

end

section
variable {ch : Nat}

theorem pumpGo_busy (hbusy : (pumpAt s ch).state ≠ 0) : pumpGo ch v s = count (cDev 13) s := if_pos hbusy

variable (hidle : (pumpAt s ch).state = 0) {u : State} (hu : updPump ch (pumpCtrl v) s = u)
include hidle hu

theorem pumpGo_outOfService (hserve : inService s = false) : pumpGo ch v s = count (cDev 14) u := by
  subst hu
  exact (if_neg (not_not_intro hidle)).trans (if_pos (by simpa [inService] using hserve))

theorem pumpGo_unqueued (hserve : inService s = true) (hqueue : pcqFor (pcqAt u (chPcq (pumpAt u ch))) (pumpPf ch (pumpAt u ch)) = false) :
    pumpGo ch v s = count (cDev 15) (updPump ch (fun c => { c with lastStatus := qMalformed }) u) := by
  have hserve' : inService u = true := by subst hu; simpa [inService] using hserve
  simp only [pumpGo, if_neg (not_not_intro hidle), hu, hserve', hqueue, Bool.not_true, Bool.false_eq_true, if_false, Bool.not_false, if_true]

theorem pumpGo_queued (hserve : inService s = true) (hqueue : pcqFor (pcqAt u (chPcq (pumpAt u ch))) (pumpPf ch (pumpAt u ch)) = true) :
    pumpGo ch v s = updPump ch (fun c => { c with state := 1, ctrl := c.ctrl ||| 1#32, done := 0 }) u := by
  have hserve' : inService u = true := by subst hu; simpa [inService] using hserve
  simp only [pumpGo, if_neg (not_not_intro hidle), hu, hserve', hqueue, Bool.not_true, Bool.false_eq_true, if_false]

end

/-! ## Doorbells: their rows -/

section
variable {q : Nat}

theorem arm_eq_completionDoorbell : exec (.arm fn q v) s = exec (.completionDoorbell fn q (v ||| 0x10000#32)) s := rfl

theorem armed_head : (v ||| 0x10000#32).toNat % 65536 = v.toNat % 65536 := by
  have hsame : (v ||| 0x10000#32).setWidth 16 = v.setWidth 16 := by ext i hi; simp
  have hnat := congrArg BitVec.toNat hsame
  rwa [BitVec.toNat_setWidth, BitVec.toNat_setWidth] at hnat

theorem armed_bit : (v ||| 0x10000#32).getLsbD 16 = true := by simp

section
variable (hdry : s.mode ≠ .dry) (hfrozen : frozen s fn = false)
include hdry hfrozen

section
variable (hstray : doorbellOk s fn q = false)
include hstray

theorem submissionDoorbell_stray : exec (.submissionDoorbell fn q v) s = .next (settle (count (cDev 4) s)) :=
  congrArg done (doorbell_stray hdry hfrozen hstray _)

theorem completionDoorbell_stray : exec (.completionDoorbell fn q v) s = .next (settle (count (cDev 4) s)) :=
  congrArg done (doorbell_stray hdry hfrozen hstray _)

end

variable (hok : doorbellOk s fn q = true)
include hok

theorem submissionDoorbell_awake (hmode : s.mode ≠ .dormant)
    (hquiet : (qpAt s (devQp s fn q)).ty = 2 → s.transit = none ∧ s.armedMode = none) :
    exec (.submissionDoorbell fn q v) s = .next (settle (ringTail (devQp s fn q) v s)) := by
  have hwake : (if (qpAt s (devQp s fn q)).ty = 2 then latchWake 0 s else s) = s := by
    split
    · next hadmin => exact latchWake_awake 0 hmode (hquiet hadmin).1 (hquiet hadmin).2
    · rfl
  show execSubmissionDoorbell fn q v s = _
  simp only [execSubmissionDoorbell, doorbell_reaches hdry hfrozen hok, hwake, if_neg hmode, done]

theorem completionDoorbell_awake (hmode : s.mode ≠ .dormant) :
    exec (.completionDoorbell fn q v) s = .next (settle (ringHead (devQp s fn q) v s)) :=
  congrArg done ((doorbell_reaches hdry hfrozen hok _).trans (if_neg hmode))

end

section
variable (hmode : s.mode = .dormant) (hfrozen : frozen s fn = false) (hok : doorbellOk s fn q = true)
include hmode hfrozen hok

theorem submissionDoorbell_dormant (hdata : (qpAt s (devQp s fn q)).ty ≠ 2) : exec (.submissionDoorbell fn q v) s =
    .next (settle (updQp (devQp s fn q) (fun r => { r with latchTail := some v }) s)) := by
  have hdry : s.mode ≠ .dry := by simp [hmode]
  show execSubmissionDoorbell fn q v s = _
  simp only [execSubmissionDoorbell, doorbell_reaches hdry hfrozen hok, if_neg hdata, if_pos hmode, done]

theorem completionDoorbell_dormant : exec (.completionDoorbell fn q v) s =
    .next (settle (updQp (devQp s fn q) (fun r => { r with latchHead := some v }) s)) :=
  congrArg done ((doorbell_reaches (by simp [hmode]) hfrozen hok _).trans (if_pos hmode))

end
end

/-! ## The obligation -/

/-- Settles O38, register by register: where an access ends (R119 to R121, R138, R142, R146, R460), then what the register it reaches does. -/
theorem registerRows : Obligations.RegisterRows := by
  unfold Obligations.RegisterRows
  intro fn s
  refine ⟨fun a v hundecoded => ?undecoded, fun hdecodes hdry off rid v hoff hwindow => ?dry, fun hdecodes hdry hfrozen a v => ?frozen,
    fun hdecodes hmode hfrozen off rid v hoff hwindow => ?dormant, fun hup hdecodes => ⟨fun off size rid v hwindow => ?poisoned,
      fun off size rid v hwindow h4 h8 => ?misfit, fun off rid v hoff hmanaged hbarred => ?managed, fun hvf v rid => ?writes,
      fun hvf rid v => ?vfWrites, fun e v rid htable hbacked => ?msixWrite, fun hvf n v rid hn => ?wm, fun hvf rid => ?reads,
      fun hvf rid => ?vfReads, fun e rid htable hbacked => ?msixRead⟩,
    fun hdecodes a hbar => ?config, fun hvf hdecodes => ⟨fun hup => ?timeUp, fun hdry hfrozen => ?timeFrozen,
      fun hmode hfrozen => ?timeDormant, fun hmode => ?timeDry⟩,
    fun hup => ⟨fun off hoff => ?pageMisfit, fun off hoff hpage => ?pageAbsent, fun hpage => ⟨fun k hk => ?pageOwn, fun k hk => ?pageGranted,
      fun k hk => ?pageHi, ?pageStamp⟩⟩,
    fun hup v => ⟨fun hvf => ?faultVf, fun hvf => ?fault⟩, fun hup n v hn => ⟨fun hvf => ?enableVf, fun hvf => ?enable⟩,
    fun hup hvf v => ?admVf,
    fun hup hvf v => ⟨fun hoff hon => ?admOn, fun hon hoff => ?admOff, fun hkeep => ?admOnKept, fun hkeep => ?admOffKept⟩,
    fun hdry hfrozen q v hstray => ?stray, fun hdry hmode hfrozen q v hok => ?doorbells, fun hmode hfrozen q v hok => ?latched,
    fun hup ch v => ?pump, fun hup m v => ?pcq⟩
  case undecoded => exact ⟨registerWrite_done (hostRegWrite_undecoded hundecoded a), registerRead_undecoded hundecoded a⟩
  case dry =>
    exact ⟨fun hctrl => registerWrite_done (hostRegWrite_dry hdecodes hdry hoff hwindow hctrl),
      fun hvf => registerRead_dry hdecodes hdry hvf hoff hwindow⟩
  case frozen =>
    exact ⟨fun hbar => registerWrite_done (hostRegWrite_frozen hdecodes hdry hfrozen hbar),
      fun hbar hrom => registerRead_frozen hdecodes hdry hfrozen hbar hrom⟩
  case dormant =>
    exact ⟨fun hwake => registerWrite_done (hostRegWrite_dormant hdecodes hmode hfrozen hoff hwindow hwake),
      fun hsilent => registerRead_dormant hdecodes hmode hfrozen hoff hwindow hsilent⟩
  case poisoned => exact registerWrite_done (hostRegWrite_poisoned hup hdecodes hwindow)
  case misfit =>
    exact ⟨registerWrite_done (hostRegWrite_misfit hup hdecodes hwindow h4 h8), registerRead_misfit hup hdecodes hwindow h4 h8⟩
  case managed => exact registerWrite_done (hostRegWrite_managed hup hdecodes hoff hmanaged hbarred)
  case writes => exact pfWrites hup hdecodes hvf v rid
  case vfWrites =>
    have hlive := hup.2.2.2
    exact ⟨registerWrite_done ((hostRegWrite_vf hup hdecodes hvf (by omega) (by omega)).trans (by simp [writeVf])),
      registerWrite_done ((hostRegWrite_vf hup hdecodes hvf (by omega) (by omega)).trans (by simp [writeVf, hlive, badAccess]))⟩
  case msixWrite => exact registerWrite_done ((hostRegWrite_msix hup hdecodes (by omega)).trans (writeMsix_data htable hbacked))
  case wm =>
    have writes {o : Nat} (ho : o < 16) (hoff : o % 4 = 0) {t : State} (h : writeWm n o v s = t) :
        exec (.watermarkRegisterWrite fn ⟨0, 0x2000 + 16 * n + o, 4, false, rid⟩ v.toNat) s = .next (settle t) :=
      wmRegisterWrite_pf hup hdecodes hvf hn ho hoff h
    exact ⟨writes (by omega) (by omega) rfl, writes (by omega) (by omega) rfl, writes (by omega) (by omega) rfl,
      fun hset => writes (by omega) (by omega) (if_pos hset)⟩
  case reads => exact pfReads hup hdecodes hvf rid
  case vfReads =>
    have hlive := hup.2.2.2
    have reads {off w : Nat} {t : State} (hoff : off % 4 = 0) (hwindow : off < 0x10000) (h : readVf fn off s = (w, t)) :=
      registerRead_vf (rid := rid) hup hdecodes hvf hoff hwindow h
    refine ⟨reads (by omega) (by omega) ?_, reads (by omega) (by omega) ?_, reads (by omega) (by omega) ?_, reads (by omega) (by omega) ?_⟩ <;>
      simp [readVf, hlive, badAccess]
  case msixRead => rw [registerRead_msix hup hdecodes (by omega), readMsix_data htable hbacked]
  case config => exact registerRead_config hdecodes hbar
  case timeUp => exact (timeNowLoRead_decoded hdecodes hvf).trans (congrArg done (onHostRead_up hup rfl))
  case timeFrozen => exact (timeNowLoRead_decoded hdecodes hvf).trans (congrArg done (onHostRead_frozen hdry hfrozen 4 false false _))
  case timeDormant => exact (timeNowLoRead_decoded hdecodes hvf).trans (congrArg done (onHostRead_silent hmode hfrozen 4 false _))
  case timeDry => exact (timeNowLoRead_decoded hdecodes hvf).trans (congrArg done (onHostRead_dry hmode 4 false _))
  case pageMisfit => exact counterPageRead_misfit hup hoff
  case pageAbsent => exact counterPageRead_up hup hoff (readPage_absent hpage)
  case pageOwn =>
    rw [counterPageRead_up hup (by omega) (readPage_lo hpage (by omega) (by omega)), latchPage, pageCounter_own hk]
  case pageGranted =>
    rw [counterPageRead_up hup (by omega) (readPage_lo hpage (by omega) (by omega)), latchPage, pageCounter_granted]
  case pageHi => exact counterPageRead_up hup (by omega) (readPage_hi hpage hk)
  case pageStamp => exact counterPageRead_up hup (by omega) (readPage_stamp hpage)
  case faultVf => exact congrArg done ((onHostWrite_up hup _).trans (if_pos hvf))
  case fault =>
    obtain ⟨o, hclear⟩ := clearFault_eq (s := s) (v := v)
    exact ⟨_, congrArg done ((onHostWrite_up hup _).trans ((if_neg (ne_true_of_eq_false hvf)).trans hclear)), rfl, clearedFault_uncorr _,
      clearedFault_latched _, fun hset => clearedFault_record hset _, fun hset => clearedFault_kept hset _⟩
  case enableVf => exact congrArg done ((onHostWrite_up hup _).trans (if_pos hvf))
  case enable =>
    refine ⟨enablesTo n 32 v s, congrArg done ((onHostWrite_up hup _).trans ((if_neg (ne_true_of_eq_false hvf)).trans
        ((if_neg (by omega)).trans (writeEnables_eq n)))),
      fun i hi hassigned => ?_, fun k hother => ?_, evtStatus_enablesTo n 32⟩
    · rw [evtEnable_enablesTo, if_pos ⟨by omega, by omega, hassigned⟩, Nat.add_sub_cancel_left]
    · rw [evtEnable_enablesTo, if_neg]
      rintro ⟨hlow, hhigh, hassigned⟩
      rcases hother with hplace | hreserved
      · omega
      · simp [hassigned] at hreserved
  case admVf =>
    exact ⟨congrArg done ((onHostWrite_up hup _).trans (if_pos hvf)), congrArg done ((onHostWrite_up hup _).trans (if_pos hvf))⟩
  case admOn =>
    obtain ⟨hrings, hready, herr, hqueue, hnone⟩ := admEnable_effect (s := s) (fn := fn) (v := v)
    refine ⟨admEnable fn v s, ?_, hrings, hready, herr, fun hvalid => ?_, hnone⟩
    · exact congrArg done ((onHostWrite_up hup _).trans ((if_neg (ne_true_of_eq_false hvf)).trans (if_neg (by simp only [hoff, hon]; decide))))
    · rw [hqueue hvalid]
      exact ⟨rfl, rfl, rfl, rfl, rfl, rfl, rfl, rfl, rfl, rfl, rfl⟩
  case admOff =>
    refine ⟨admDisable fn v s, ?_, admDisable_effect hoff⟩
    exact congrArg done ((onHostWrite_up hup _).trans ((if_neg (ne_true_of_eq_false hvf)).trans (if_neg (by simp only [hoff, hon]; decide))))
  case admOnKept =>
    exact congrArg done ((onHostWrite_up hup _).trans ((if_neg (ne_true_of_eq_false hvf)).trans (if_pos (by
      rw [Bool.or_eq_true, Bool.not_eq_true']; exact hkeep))))
  case admOffKept =>
    exact congrArg done ((onHostWrite_up hup _).trans ((if_neg (ne_true_of_eq_false hvf)).trans (if_pos (by
      rw [Bool.or_eq_true, Bool.not_eq_true']; exact hkeep))))
  case stray =>
    exact ⟨submissionDoorbell_stray hdry hfrozen hstray, completionDoorbell_stray hdry hfrozen hstray, completionDoorbell_stray hdry hfrozen hstray⟩
  case doorbells =>
    refine ⟨fun hquiet => ⟨fun h => ?_, fun h => ?_⟩, fun harm => ⟨fun h => ?_, fun hwithin d hd hpos => ⟨fun h => ?_, fun h => ?_⟩⟩,
      fun hhead hwithin hempty => ?_, rfl⟩
    · rw [submissionDoorbell_awake hdry hfrozen hok hmode hquiet, ringTail_beyond h]
    · rw [submissionDoorbell_awake hdry hfrozen hok hmode hquiet, ringTail_within h]
    · rw [completionDoorbell_awake hdry hfrozen hok hmode, ringHead_beyond harm h]
    · rw [completionDoorbell_awake hdry hfrozen hok hmode, ringHead_releases hd hpos harm hwithin h]
    · rw [completionDoorbell_awake hdry hfrozen hok hmode, ringHead_unwritten hd hpos harm h]
    · rw [arm_eq_completionDoorbell, completionDoorbell_awake hdry hfrozen hok hmode, ringHead_arms armed_bit (armed_head.trans hhead) hwithin hempty]
  case latched => exact ⟨submissionDoorbell_dormant hmode hfrozen hok, completionDoorbell_dormant hmode hfrozen hok⟩
  case pump =>
    refine ⟨fun hother => ⟨go_barred hup hother, channelAbort_barred hup hother⟩, fun hmine habort => ⟨fun hbusy => ?_, fun hidle =>
      ⟨fun hserve => ?_, fun hserve hqueue => ?_, fun hserve hqueue => ?_⟩⟩, fun hmine hgo => ⟨fun hidle => ?_, fun hstate hfull => ?_,
      fun hstate hfree => ?_, fun hstate hall => ?_, fun hstate => ?_⟩⟩
    · rw [go_owned hup hmine habort, pumpGo_busy hbusy]
    · rw [go_owned hup hmine habort, pumpGo_outOfService hidle rfl hserve]
    · rw [go_owned hup hmine habort, pumpGo_unqueued hidle rfl hserve hqueue]
    · rw [go_owned hup hmine habort, pumpGo_queued hidle rfl hserve hqueue]
    · rw [channelAbort_owned hup hmine hgo, if_pos hidle, pumpAbort_idle]
      rw [pumpAt_updPump]
      exact hidle
    · rw [channelAbort_busy hup hmine hgo (by omega), pumpAbort_waits hstate hfull]
    · rw [channelAbort_busy hup hmine hgo (by omega), pumpAbort_queued hstate hfree]
    · rw [channelAbort_busy hup hmine hgo (by omega), pumpAbort_posted hstate hall]
    · rw [channelAbort_busy hup hmine hgo (by omega), pumpAbort_running hstate]
  case pcq =>
    refine ⟨fun hother => ?_, fun hmine harm => ⟨fun d hd hwithin hpos hwritten => pcqHead_releases hup hmine harm hd hwithin hpos hwritten,
      fun h => pcqHead_beyond hup hmine harm h⟩, fun hmine harm hhead hwithin hempty => pcqHead_arms hup hmine harm hhead hwithin hempty⟩
    exact congrArg done ((onHostWrite_up hup _).trans (if_pos (by rw [hother]; rfl)))

end Sys2Proof.Machine
end
